-- ==== Sys2Proof/Word.lean ====
section
/-! DEFINITION. The words of the SK6410: bytes, 32-bit registers (R7), 64-bit times, and the table type in which
the model keeps state that is sparse (one entry per unit, cell, connection, memory cell …). -/

namespace Sys2Proof

/-- A byte of memory, of a frame or of the store. -/
abbrev Byte := BitVec 8
/-- A half word: ring indices, SEQ, tags. -/
abbrev Half := BitVec 16
/-- A 32-bit register (R7). -/
abbrev Word := BitVec 32
/-- A 64-bit time or address. -/
abbrev Dword := BitVec 64

/-- A sparse table from numbers to values. Where it is well formed, keys rise strictly and no entry equals the
value an unlisted key reads as, so equal tables are equal lists. -/
abbrev Tab (α : Type) := List (Nat × α)

/-- What a table holds under a key, `d` where it lists none. -/
def Tab.get {α : Type} (d : α) : Tab α → Nat → α
  | [], _ => d
  | (k, v) :: t, i => if k = i then v else Tab.get d t i

/-- The table without one key. -/
def Tab.drop {α : Type} : Tab α → Nat → Tab α
  | [], _ => []
  | (k, v) :: t, i => if k = i then Tab.drop t i else (k, v) :: Tab.drop t i

/-- One entry put in before the first greater key. -/
def Tab.ins {α : Type} : Tab α → Nat → α → Tab α
  | [], i, x => [(i, x)]
  | (k, v) :: t, i, x => if i < k then (i, x) :: (k, v) :: t else (k, v) :: Tab.ins t i x

/-- A write: the entry replaced, and removed where the value is what an unlisted key reads as. -/
def Tab.put {α : Type} [DecidableEq α] (d : α) (t : Tab α) (i : Nat) (x : α) : Tab α :=
  if x = d then Tab.drop t i else Tab.ins (Tab.drop t i) i x

/-- A change of the value under one key. -/
def Tab.upd {α : Type} [DecidableEq α] (d : α) (t : Tab α) (i : Nat) (f : α → α) : Tab α :=
  Tab.put d t i (f (Tab.get d t i))

/-- Keys rise strictly from a bound on. -/
def Tab.rising {α : Type} : Tab α → Nat → Bool
  | [], _ => true
  | (k, _) :: t, lo => decide (lo ≤ k) && Tab.rising t (k + 1)

/-- The canonical form: keys rise strictly and no entry holds the value of an unlisted key. -/
def Tab.wf {α : Type} [DecidableEq α] (d : α) (t : Tab α) : Bool :=
  Tab.rising t 0 && t.all (fun e => decide (e.2 ≠ d))

/-- Change of every listed value. -/
def Tab.mapVal {α : Type} [DecidableEq α] (d : α) (f : α → α) (t : Tab α) : Tab α :=
  (t.map (fun e => (e.1, f e.2))).filter (fun e => decide (e.2 ≠ d))

/-- Change of every listed value, by its key. -/
def Tab.mapKV {α : Type} [DecidableEq α] (d : α) (f : Nat → α → α) (t : Tab α) : Tab α :=
  (t.map (fun e => (e.1, f e.1 e.2))).filter (fun e => decide (e.2 ≠ d))

/-- A value put into a list that rises by key, after those of the same key. -/
def insertKey {α : Type} (k : Nat) (x : α) : List (Nat × α) → List (Nat × α)
  | [] => [(k, x)]
  | (j, y) :: t => if k < j then (k, x) :: (j, y) :: t else (j, y) :: insertKey k x t

/-- The values of a list in ascending order of their keys, as they stand where keys are equal. -/
def sortKeys {α : Type} (l : List (Nat × α)) : List α :=
  (l.foldl (fun acc e => insertKey e.1 e.2 acc) []).map (·.2)

/-- One bit as a Bool, by number. -/
def bit {w : Nat} (x : BitVec w) (i : Nat) : Bool := x.getLsbD i

/-- A field NAME[msb:lsb] as a number (R7). -/
def fld {w : Nat} (x : BitVec w) (msb lsb : Nat) : Nat := (x.toNat >>> lsb) % 2 ^ (msb + 1 - lsb)

/-- One bit set or cleared. -/
def setBit {w : Nat} (x : BitVec w) (i : Nat) (v : Bool) : BitVec w :=
  if v then x ||| (BitVec.ofNat w (2 ^ i)) else x &&& ~~~(BitVec.ofNat w (2 ^ i))

/-- A Bool as a bit at a place. -/
def atBit (w i : Nat) (v : Bool) : BitVec w := if v then BitVec.ofNat w (2 ^ i) else 0

/-- A number at a place in a word. -/
def atLsb (w lsb n : Nat) : BitVec w := BitVec.ofNat w (n <<< lsb)

/-- The four bytes of a word, least significant first (R7). -/
def bytes4 (x : Word) : List Byte :=
  [x.extractLsb' 0 8, x.extractLsb' 8 8, x.extractLsb' 16 8, x.extractLsb' 24 8]

/-- The word of the first four bytes of a list, least significant first. Missing bytes read 0. -/
def word4 (l : List Byte) : Word :=
  (l.getD 0 0).zeroExtend 32 ||| ((l.getD 1 0).zeroExtend 32 <<< 8) |||
  ((l.getD 2 0).zeroExtend 32 <<< 16) ||| ((l.getD 3 0).zeroExtend 32 <<< 24)

/-- The word of the first four bytes of a list, most significant first (R339). -/
def word4be (l : List Byte) : Word :=
  word4 [l.getD 3 0, l.getD 2 0, l.getD 1 0, l.getD 0 0]

/-- The four bytes of a word, most significant first (R339). -/
def bytes4be (x : Word) : List Byte := (bytes4 x).reverse

/-- Addition that saturates at a bound. -/
def satAdd (bound a b : Nat) : Nat := min bound (a + b)

/-- A W1C counter or count field: one more, saturating at all ones. -/
def satInc {w : Nat} (x : BitVec w) : BitVec w := if x = BitVec.allOnes w then x else x + 1

end Sys2Proof
end

