-- ==== Sys2Proof/Syntax.lean ====
section
/-! DEFINITION. The commands of the SK6410: `Instr` has one constructor for every row of spec/opcode_table.json.
A command is an event at the module's balls, lanes, links or registers, an operation of one of its services, or an
instruction that a safety engine executes. Its operands say which unit it concerns and what the outside shows
(a level, a word, a reading); everything else comes from the state. The types before it are those operands. -/

namespace Sys2Proof

/-- Channel A or B of a dual-channel structure: an element, a Lid, a half of a field die, a ring (R11, R46). -/
inductive AB | a | b
deriving DecidableEq, Repr

/-- 0 for A and 1 for B, as every numbering of the manual has it. -/
def AB.n : AB → Nat | .a => 0 | .b => 1
/-- The other channel. -/
def AB.other : AB → AB | .a => .b | .b => .a

/-- The four switched rails (R440), numbered as R529 numbers them. -/
inductive Rail | vio | vcore | vmem | vser
deriving DecidableEq, Repr

/-- Detail word 6 of a RAIL record (R529). -/
def Rail.n : Rail → Nat | .vio => 0 | .vcore => 1 | .vmem => 2 | .vser => 3

/-- Who reads a latched group (R83, R492). -/
inductive Party
  | engine (e : Fin 64)
  | host
  | jtag
deriving DecidableEq, Repr

/-- What a party reads of the latched group of TB_LO (R83, R492): TB_LO, a 64-bit read at its address, TB_HI, or TB_FRAC. -/
inductive TbRead | lo | wide | hi | frac
deriving DecidableEq, Repr

/-- Who reads a capture queue (R142, R144): host software, or a cell. -/
inductive CapReader
  | host
  | cell (c : Fin 1024)
deriving DecidableEq, Repr

/-- The level a readback comparator gives (R146): between 5 V and 11 V it is undefined. -/
inductive Lvl | low | high | undef
deriving DecidableEq, Repr

/-- What one half reads of an output: node N and the ball (R146). -/
structure Reading where
  n    : Lvl
  ball : Lvl
deriving DecidableEq, Repr

/-- A junction with a thermal threshold: an element of an output, or a test-pulse source (R151, R159). -/
inductive Junction
  | elem (o : Fin 64) (x : AB)
  | tp (t : Fin 32)
deriving DecidableEq, Repr

/-- What an SGMII partner brings up (R359). -/
inductive Link | up | down | bad
deriving DecidableEq, Repr

/-- The transport by which a frame reached the Wilis receiver (R342): `ok` where every header check of R342 holds. -/
structure Encap where
  udp : Bool
  ok  : Bool
deriving DecidableEq, Repr

/-- A PTP message as the slave-only port of R361 sees it. `sync` is a completed measurement with its offset in ns;
`announce` carries the outcome of the best master clock algorithm and the fields R108 uses. -/
inductive PtpMsg
  | sync (offset : Int)
  | announce (best : Bool) (utc : Half) (utcValid ptpTimescale leap61 leap59 : Bool)
deriving DecidableEq, Repr

/-- What BIST, a retest or a field test reports of one unit (R169, R478): its site, the code, detail word 6, and whether the
start-up found the failure again, so that its repair is fused (R481). -/
structure BistItem where
  site   : Half
  code   : Byte
  detail : Word
  fuse   : Bool
deriving DecidableEq, Repr

/-- What the element test of one output reads (R184): both elements off, element A on alone, element A off again, and whether
each half's gate driver and comparators of the output pass their own check. -/
structure ElTest where
  o     : Fin 64
  off   : Reading
  aOn   : Reading
  aOff  : Reading
  drvA  : Bool
  drvB  : Bool
deriving DecidableEq, Repr

/-- What the off-pulse of 50 µs of one source reads back (R184): the ball in the pulse and after it, and its current limit. -/
structure TpTest where
  t        : Fin 32
  pulse    : Lvl
  on       : Lvl
  limiting : Bool
deriving DecidableEq, Repr

/-- What the tests of a start-up find, and what the start-up finds outside (R464 to R467). -/
structure StartObs where
  /-- Spine units that fail S3, by site. -/
  spine     : List Half
  /-- A Lid fails S4. -/
  lidA      : Bool
  lidB      : Bool
  /-- The store die fails its test in S7. -/
  storeLost : Bool
  /-- Banks whose VF is applied (S5). -/
  vf        : BitVec 4
  /-- Lanes, supervisors and inputs that fail the bank start-up test, with the code of R143 for an input. -/
  field     : List BistItem
  /-- Readings of the start-up element tests and of the sources' off-pulses; a unit not listed reads as expected. -/
  elements  : List ElTest
  sources   : List TpTest
  /-- Regions whose fabric and power switch pass S6. -/
  regions   : BitVec 4
  /-- What the region BIST and the comparator test report (S6, S9), with the codes of R478. -/
  items     : List BistItem
  /-- The module is locked under R90 within 10 s of S10 (R466). -/
  lock      : Bool
deriving DecidableEq, Repr

/-- A half's report of its bank (R152, R186): the 100 ms average of the current in mA, its temperature + 64, and VFb in 50 mV. -/
structure BankReport where
  milliamps : Nat
  temp      : Byte
  vf        : BitVec 10
deriving DecidableEq, Repr

/-- The readings that each half takes of an output in the last 5 µs of a pulse (R162). -/
structure PulseReadings where
  a : List Reading
  b : List Reading
deriving DecidableEq, Repr

/-- A level that an output's ball has shown (R174). -/
structure BallReading where
  out  : Fin 64
  ball : Lvl
deriving DecidableEq, Repr

/-- A heartbeat word (R175): its sequence number and TB[31:0]. -/
structure HbWord where
  seq : Byte
  tb  : Word
deriving DecidableEq, Repr

/-- A bank whose VF has come up, and the readings of its start-up tests (R184). -/
structure BankUp where
  bank     : Fin 4
  elements : List ElTest
  sources  : List TpTest
deriving DecidableEq, Repr

/-- A source's readback (R159): its ball, whether it is in current limit, and the balls of the bank that read low at the sample. -/
structure TpReading where
  ball     : Lvl
  limiting : Bool
  fallen   : BitVec 16
deriving DecidableEq, Repr

/-- A checkpoint (R215, R218): its identifier, whether comparator X or Y judges its seals wrongly, and whether an entry of the
follower's queue has failed its parity. -/
structure Checked where
  ident  : Half
  badX   : Bool
  badY   : Bool
  parity : Bool
deriving DecidableEq, Repr

/-- What the test of a unit finds after its reset (R470): whether it passes, and the readings of R184 for elements and sources. -/
structure Retest where
  pass     : Bool
  elements : List ElTest
  sources  : List TpTest
deriving DecidableEq, Repr

/-- What has happened to a cluster memory since the scrubber last reported (R210, R212): bits that have flipped in a word, differences
of the address and tag under which its code stands, and a parity bit of its block's owner-table entry. -/
structure Upset where
  word   : Half
  flips  : Fin 3
  addr   : Half
  tag    : Byte
  parity : Bool
deriving DecidableEq, Repr

/-- A register of a halted engine that JTAG reads (R236): gn, the boolean registers, PC, or a handler register of R243. -/
inductive DebugReg
  | g (n : Fin 32)
  | k
  | pc
  | handler (n : Fin 12)
deriving DecidableEq, Repr

/-- A JTAG access to a halted engine (R236): a word of cluster memory written, which is the command's own row, or read, at the
address and under the tag that the command names; a register read, a single step, or a breakpoint set or taken away. -/
inductive DebugAccess
  | write (v : Word)
  | read
  | reg (r : DebugReg)
  | step
  | breakpoint (a : Option Word)
deriving DecidableEq, Repr

/-- What ends a store operation (R414): it ran to its end, or it was cut (R414, R447). -/
inductive OpEnd | done | cut
deriving DecidableEq, Repr

/-- What the host's DMA brings (R396): submission entries of 16 words, the bytes of a command's buffer, an error of either read, or
the failure of a completion's write. -/
inductive DmaData
  | entries (l : List (List Word))
  | buffer (l : List Byte)
  | failed (entry : Bool)
  | cqeFailed
deriving DecidableEq, Repr

/-- The two roles of a session (R400), numbered 1 and 2. -/
inductive Role | maintenance | safetyEngineer
deriving DecidableEq, Repr

/-- The role's number in P0 and in a change-log entry (R400, R429). -/
def Role.n : Role → Nat | .maintenance => 1 | .safetyEngineer => 2

/-- The kinds of SH.I (R250). -/
inductive ShKind | left | logical | arithmetic
deriving DecidableEq, Repr

/-- The commands, one constructor per row of spec/opcode_table.json, in the table's order. -/
inductive Instr
  -- power, start-up, resets
  | vsysStartThreshold
  | startUp (obs : StartObs)
  | unlockedLoad
  | vsysHoldUpCrossing
  | dipRideThrough
  | powerFailure
  | powerFailReset
  | overvoltageEvent
  | railOutOfWindow (r : Rail)
  | coreOvertemperature (t : Byte)
  | holdNotCharged (hold : BitVec 10)
  | rstnLow (ns : Nat)
  | rstnRelease
  | stbynLow
  | standbyRequest
  | wakeByStbyn
  | wakeByWake
  | pePerstnLow
  | functionLevelReset
  | hotReset
  | dlDown
  | d3hotTransition (enter : Bool)
  | pllLockLoss
  | refclkCheck (ppm : Int)
  | lfOscillatorChange (runs : Bool)
  | safeOkRefreshLoss
  -- latched register reads
  | tbLoRead (p : Party) (what : TbRead)
  | capLoRead (e : Fin 8) (r : CapReader)
  | statLoRead
  | clkIncLoRead
  -- compare channels and engine timers
  | tcmpLoWrite (n : Fin 256) (v : Word)
  | tcmpHiWrite (n : Fin 256) (v : Word)
  | tcmpActWrite (n : Fin 32) (v : Word)
  | tcmpFlagOnly (n : Fin 256)
  | tcmpSetStandardOutput (n : Fin 256)
  | tcmpHostSnapshot (n : Fin 256)
  | tcmpCellSnapshot (n : Fin 256)
  | tcmpPermitRelease (n : Fin 256)
  | tcmpTestPulseScheduleStart (n : Fin 256)
  | tcmpCellExchange (n : Fin 256)
  | tcmpSs1Launch (n : Fin 256)
  | tcmpHandover (n : Fin 256)
  | etFire (e : Fin 64) (i : Fin 4)
  | etReload (e : Fin 64) (i : Fin 4)
  | cycleBudgetOverrun (e : Fin 64) (both : Bool)
  | etValueWrite (e : Fin 64) (i : Fin 4) (v : Word)
  | etModeWrite (e : Fin 64) (v : Word)
  | etWdWrite (e : Fin 64) (v : Word)
  -- time sources
  | ptpMessageReceive (m : Fin 4) (msg : PtpMsg)
  | lockTimeout
  | leapSecondMidnight
  -- inputs
  | inputEdge (n : Fin 128) (level : Bool) (partner : Option Bool)
  | lidMaskCheck (l : AB) (o : Fin 64)
  | inputLaneStatusWord (n : Fin 128) (w : Word) (ok : Bool)
  | wettingEnd (h : Fin 8) (sinkOk : Bool)
  | tpWindowStart (n : Fin 128)
  | tpWindowEnd (n : Fin 128)
  | foreignWindowEnd (n : Fin 128) (k : Fin 8)
  | ossdHoldExpiry (n : Fin 128)
  | ossdNoTest (n : Fin 128)
  | filterExpiry (n : Fin 128)
  | wireBreakMeasurement (n : Fin 128) (below : Bool)
  | discTimerExpiry (p : Fin 64)
  | sinkProbe (n : Fin 128) (sinkOk : Bool)
  | inputApplied (p : Fin 64)
  | encoderEdge (e : Fin 8) (a b : Bool)
  -- outputs, sources and the Ladle
  | outputTurnOff (o : Fin 64)
  | outputTurnOn (o : Fin 64)
  | ladleGrant (d : Fin 5)
  | ladleOverdraw (d : Fin 5)
  | ladleReturn (d : Fin 5) (site : Half)
  | ladleRefill (d : Fin 5)
  | ladleAudit (b : Fin 4) (repA repB flightA flightB backA backB : Half)
  | ladleCfgWrite (d : Fin 5) (v : Word)
  | currentLimitExpiry (o : Fin 64)
  | thermalShutdown (j : Junction)
  | bankCurrentAverage (b : Fin 4) (h : AB) (r : BankReport)
  | elementOffPulse (o : Fin 64) (x : AB)
  | pulseVerdict (o : Fin 64) (r : PulseReadings) (fallen : BitVec 16)
  | offCheck (o : Fin 64) (ra rb : Reading)
  | darkTestProbe (o : Fin 64) (x : AB) (readings : Option (Reading × Reading)) (fallen : BitVec 16)
  | continuousOutputCheck (o : Fin 64) (h : AB) (r : Reading) (limiting : Bool)
  | controlLaneReport (o : Fin 64) (h : AB) (verdict : Byte) (raw : List Byte)
  | outputLaneStatusWord (o : Fin 64) (x : AB) (w : Word) (ok : Bool)
  | stdMismatch (r : BallReading)
  | outputCodeClear (o : Fin 64)
  | heartbeat (b : Fin 4) (h : AB) (w : HbWord) (ok : Bool)
  | silExpired (b : Fin 4) (h : AB)
  | vfLow (b : Fin 4) (h : AB)
  | vfHigh (b : Fin 4) (h : AB)
  | vfDip (b : Fin 4) (h : AB)
  | vfRecovery (r : BankUp)
  | halfBrownOut (b : Fin 4) (h : AB)
  | tpSourceOffPulse (t : Fin 32) (start : Bool)
  | tpSourceReadback (t : Fin 32) (r : TpReading)
  | tpOverload (t : Fin 32)
  | tpSourceRetry (t : Fin 32) (good : Bool)
  -- cells
  | cellRelease (c : Fin 1024)
  | permitRenewalExpiry (slot : Fin 256) (second : Bool)
  | degr50 (c : Fin 1024)
  | degr90 (c : Fin 1024)
  | degrExpiry (c : Fin 1024)
  -- Damuno
  | add (e : Fin 64) (rd rs rt : Fin 32)
  | sub (e : Fin 64) (rd rs rt : Fin 32)
  | and (e : Fin 64) (rd rs rt : Fin 32)
  | or (e : Fin 64) (rd rs rt : Fin 32)
  | xor (e : Fin 64) (rd rs rt : Fin 32)
  | nor (e : Fin 64) (rd rs rt : Fin 32)
  | sll (e : Fin 64) (rd rs rt : Fin 32)
  | srl (e : Fin 64) (rd rs rt : Fin 32)
  | sra (e : Fin 64) (rd rs rt : Fin 32)
  | slt (e : Fin 64) (rd rs rt : Fin 32)
  | sltu (e : Fin 64) (rd rs rt : Fin 32)
  | mul (e : Fin 64) (rd rs rt : Fin 32)
  | mulh (e : Fin 64) (rd rs rt : Fin 32)
  | mulhu (e : Fin 64) (rd rs rt : Fin 32)
  | div (e : Fin 64) (rd rs rt : Fin 32)
  | divu (e : Fin 64) (rd rs rt : Fin 32)
  | rem (e : Fin 64) (rd rs rt : Fin 32)
  | remu (e : Fin 64) (rd rs rt : Fin 32)
  | min (e : Fin 64) (rd rs rt : Fin 32)
  | max (e : Fin 64) (rd rs rt : Fin 32)
  | addsat (e : Fin 64) (rd rs rt : Fin 32)
  | subsat (e : Fin 64) (rd rs rt : Fin 32)
  | kand (e : Fin 64) (rd rs rt : Fin 32)
  | kor (e : Fin 64) (rd rs rt : Fin 32)
  | kxor (e : Fin 64) (rd rs rt : Fin 32)
  | kandn (e : Fin 64) (rd rs rt : Fin 32)
  | korn (e : Fin 64) (rd rs rt : Fin 32)
  | knot (e : Fin 64) (rd rs : Fin 32)
  | kmov (e : Fin 64) (rd rs : Fin 32)
  | keq (e : Fin 64) (rd rs rt : Fin 32)
  | kne (e : Fin 64) (rd rs rt : Fin 32)
  | klt (e : Fin 64) (rd rs rt : Fin 32)
  | kltu (e : Fin 64) (rd rs rt : Fin 32)
  | kge (e : Fin 64) (rd rs rt : Fin 32)
  | kgeu (e : Fin 64) (rd rs rt : Fin 32)
  | kbit (e : Fin 64) (rd rs rt : Fin 32)
  | gfk (e : Fin 64) (rd rs : Fin 32)
  | kfg (e : Fin 64) (rd rs : Fin 32)
  | sel (e : Fin 64) (rd rs rt k : Fin 32)
  | addI (e : Fin 64) (rd rs : Fin 32) (imm : Half)
  | andI (e : Fin 64) (rd rs : Fin 32) (imm : Half)
  | orI (e : Fin 64) (rd rs : Fin 32) (imm : Half)
  | xorI (e : Fin 64) (rd rs : Fin 32) (imm : Half)
  | sltI (e : Fin 64) (rd rs : Fin 32) (imm : Half)
  | sltuI (e : Fin 64) (rd rs : Fin 32) (imm : Half)
  | hi16 (e : Fin 64) (rd : Fin 32) (imm : Half)
  | shI (e : Fin 64) (rd rs : Fin 32) (k : ShKind) (amount : BitVec 5)
  | ldw (e : Fin 64) (rd rs : Fin 32) (imm : Half)
  | ldh (e : Fin 64) (rd rs : Fin 32) (imm : Half)
  | ldhu (e : Fin 64) (rd rs : Fin 32) (imm : Half)
  | ldb (e : Fin 64) (rd rs : Fin 32) (imm : Half)
  | ldbu (e : Fin 64) (rd rs : Fin 32) (imm : Half)
  | stw (e : Fin 64) (rd rs : Fin 32) (imm : Half)
  | sth (e : Fin 64) (rd rs : Fin 32) (imm : Half)
  | stb (e : Fin 64) (rd rs : Fin 32) (imm : Half)
  | orq (e : Fin 64) (rd rs : Fin 32) (imm : Half)
  | ork (e : Fin 64) (rd rs : Fin 32) (imm : Half)
  | beq (e : Fin 64) (rs rt : Fin 32) (off : Half)
  | bne (e : Fin 64) (rs rt : Fin 32) (off : Half)
  | blt (e : Fin 64) (rs rt : Fin 32) (off : Half)
  | bge (e : Fin 64) (rs rt : Fin 32) (off : Half)
  | bltu (e : Fin 64) (rs rt : Fin 32) (off : Half)
  | bgeu (e : Fin 64) (rs rt : Fin 32) (off : Half)
  | bkt (e : Fin 64) (rs : Fin 32) (off : Half)
  | bkf (e : Fin 64) (rs : Fin 32) (off : Half)
  | j (e : Fin 64) (off : BitVec 26)
  | call (e : Fin 64) (off : BitVec 26)
  | jmpr (e : Fin 64) (rd rs : Fin 32)
  | loop (e : Fin 64) (imm : Bool) (rs : Fin 32) (cnt last : BitVec 10)
  | wait (e : Fin 64)
  | brk (e : Fin 64)
  | mode (e : Fin 64) (cell : Bool)
  | chkp (e : Fin 64) (c : Checked)
  | chkpTest (e : Fin 64) (ident : Half) (cmpX cmpY : Bool)
  | sealTimeout (k : Fin 32)
  | mismatchSelfTestEnd (k : Fin 32) (passEven passOdd : Bool)
  | engineSelfTestPeriodic (e : Fin 64) (pass : Bool)
  | sadj (e : Fin 64) (r : Fin 32)
  | rdh (e : Fin 64) (r c : Fin 32)
  | wrh (e : Fin 64) (r c : Fin 32)
  | sys (e : Fin 64) (imm : Half)
  | rth (e : Fin 64)
  | eventEntry (e : Fin 64)
  | scrubRead (c : Fin 16) (w : Half) (upsets : List Upset)
  -- debug and test access
  | engineDebugHalt (e : Fin 64)
  | debugRelease (e : Fin 64)
  | moduleDebugHalt
  | moduleDebugRelease
  | tapReset
  | bootHold
  | scanEn (readBackZero : Bool)
  | extest
  | clamp
  | samplePreload
  | bypass
  -- Wilis and Ethernet
  | wilisDataTransmit (c : Fin 1024)
  | connectTransmit (c : Fin 1024)
  | data (m : Fin 4) (x : Encap) (f : List Byte)
  | connect (m : Fin 4) (x : Encap) (f : List Byte)
  | accept (m : Fin 4) (x : Encap) (f : List Byte)
  | reject (m : Fin 4) (x : Encap) (f : List Byte)
  | close (m : Fin 4) (x : Encap) (f : List Byte)
  | wilisWatchdogExpiry (c : Fin 1024)
  | pathDown (c : Fin 1024) (second : Bool)
  | failedRetry (c : Fin 1024)
  | ethernetFrameReceive (m : Fin 4) (f : List Byte) (fcsOk pause : Bool)
  | sgmiiLinkChange (m : Fin 4) (l : Link)
  -- FiminLink
  | fiminlinkCycleStart
  | fiminlinkSlotAssembly
  | fiminlinkSlotReceive (r : AB) (body : List Byte) (whole : Bool) (slot : Fin 16) (arrival : Int)
  | fiminlinkSyncReceive (r : AB) (body : List Byte) (capture : Int)
  | listenExpiry
  | backoffExpiry
  | moduleLost (m : Fin 16)
  | fiminlinkLinkDown (r : AB)
  | fiminlinkLinkUp (r : AB)
  -- host interface
  | sqDoorbell (q : Fin 64) (v : Word)
  | cqDoorbell (q : Fin 64) (v : Word)
  | sqFetch (q : Fin 64)
  | qpEnable (q : Fin 64) (v : Word)
  | qpDisable (q : Fin 64) (v : Word)
  | cqInterruptTimer (q : Fin 64)
  | hostSilenceOnset
  | nop (q : Fin 64)
  | piRead (q : Fin 64)
  | piWrite (q : Fin 64)
  | diagReadFaultRecords (q : Fin 64)
  | diagReadAvailability (q : Fin 64)
  | diagReadMasks (q : Fin 64)
  | diagReadDescriptor (q : Fin 64)
  | diagReadSite (q : Fin 64)
  | diagReadBist (q : Fin 64)
  | logRead (q : Fin 64)
  | ack (q : Fin 64)
  | timeSet (q : Fin 64)
  | offsetSet (q : Fin 64)
  | sessOpen (q : Fin 64)
  | lockoutEnd (r : Role)
  | sessWrite (q : Fin 64)
  | sessCommit (q : Fin 64)
  | sessClose (q : Fin 64)
  | sessionIdleTimeout (r : Role)
  | cellExchange (q : Fin 64)
  | exchangeLoadDone
  | exchangeCarryCopy
  | handoverEnd
  | cellMove (q : Fin 64)
  | pairSplit (q : Fin 64)
  | pairMerge (q : Fin 64) (passEven passOdd injection : Bool)
  | cellRestart (q : Fin 64)
  | unitReset (q : Fin 64) (r : Retest)
  | frameTx (q : Fin 64)
  | rxPost (q : Fin 64)
  -- the store
  | storeGrant
  | storeOperationDone (x : OpEnd)
  | storePeriodicCheck (bad : BitVec 5)
  -- BIST
  | bistRunStart
  | bistRunEnd (items : List BistItem)
  | bistConditionLapse
  | rowTestTimeout
  | bistRunTimeout
  -- registers
  | sysLockWrite (v : Word)
  | cvuStart (n : Fin 8) (v : Word)
  | cvuStop (n : Fin 8) (v : Word)
  | cvuRegisterWrite (n : Fin 8) (reg : Fin 8) (v : Word)
  | registerWrite (offset : BitVec 14) (v : Word)
  -- events that the table lists last
  | inputLaneWordMissing (n : Fin 128)
  | outputLaneWordMissing (o : Fin 64) (x : AB)
  | ossdStartHoldExpiry (n : Fin 128)
  | holdExhausted
  | holdCharged
  | illegalInstruction (e : Fin 64) (w : Word)
  | debugMemoryWrite (e : Fin 64) (addr : BitVec 18) (a : DebugAccess) (tag : Byte)
  | pePerstnRelease
  | dlUp
  | dmaReadCompletion (q : Fin 64) (d : DmaData)
  | completionTimeout (q : Fin 64) (entry : Bool)
  | passwordCheckDone (r : Role)
  | reservedRangeRead (bar2 : Bool) (offset : BitVec 14) (bytes : Nat)
  | msiXTableWrite (offset : BitVec 12) (v : Word)
  | announceReceiptTimeout (m : Fin 4)
  | ptpDelayRequestSend (m : Fin 4)
  | thermalRelease (j : Junction)
  | coreTemperatureFall (t : Byte)
deriving DecidableEq, Repr

end Sys2Proof
end

