-- ==== Sys2Proof/Decode.lean ====
section
/-! DEFINITION. The commands that words of the opcode table spell. No row of the table gives bits: a command comes
from the module's balls, lanes and links, not from a word. -/

namespace Sys2Proof

/-- The command a table word spells. The table gives no row any bits, so no word spells a command. -/
def decodeTableWord (_nbits _w : Nat) : Option Instr := none

end Sys2Proof
end

