-- ==== Sys2Proof/Machine/State.lean ====
section
/-! DEFINITION. The state of an SK6410: plain data. Every register, latch, book, queue, timer and mode that the spec
gives the module has its field here; what a register view shows that can be computed from these fields is computed
in Machine/Views.lean. Each field's docstring gives its width, the rule that names it and its value at reset.
"Model" marks the fields that are the model's own. -/

namespace Sys2Proof.Machine

/-- Why a run of the model stops. No command of this block stops with a fault: a command that names nothing the spec
gives is refused by WellFormed, and the spec gives every other command an effect. -/
inductive Fault
  /-- Kept for a unit that is not there; raised by no command. Safe. -/
  | absent
deriving DecidableEq, Repr

/-- Why a command has no meaning. -/
inductive Refusal
  /-- The command has no meaning in the model yet; the string is its mnemonic. Raised by Dispatch alone. Safe. -/
  | notModelled (mnemonic : String)
deriving DecidableEq, Repr

/-! ### The configuration image (R10, R413) -/

/-- An input record of three words (R120). -/
structure InRec where
  w0 : Word := 0
  w1 : Word := 0
  w2 : Word := 0
deriving DecidableEq, Repr, Inhabited

/-- A record of two words: an output record (R153) or a test-pulse source record (R154). -/
structure Rec2 where
  w0 : Word := 0
  w1 : Word := 0
deriving DecidableEq, Repr, Inhabited

/-- What an encoder interface's image says of its queue and owner (R140, R142). -/
structure CapCfg where
  /-- Events captured: bits 0 to 3 A rising, A falling, B rising, B falling; bit 4 the latch input. -/
  events : BitVec 5 := 0
  latch  : Option Nat := none
  rising : Bool := true
  /-- The one consumer: none is host software, otherwise the owning cell. -/
  consumer : Option Nat := none
  owner    : Option Nat := none
deriving DecidableEq, Repr, Inhabited

/-- A cell as an image carries it: the 64-word descriptor (R283), the code area with the declaration table (R284), the
initial words of the state area, the mask shares by output (R193), and the reference of each checkpoint (R48). -/
structure CellImg where
  desc  : List Word
  code  : List Word
  init  : List Word
  masks : Tab (BitVec 512)
  refs  : Tab Word
  inst  : Tab Nat
deriving DecidableEq, Repr, Inhabited

/-- One role's credential record (R426). `factory` marks the records of the factory area (R425). -/
structure Cred where
  salt    : BitVec 128
  iters   : Word
  hash    : BitVec 256
  factory : Bool
deriving DecidableEq, Repr, Inhabited

/-- A configuration image: what the bytes of a bank spell. The records have the spec's bit layouts; where they lie in
the image is Phigifel's. `rev` and `icrc` are the image header's; `ok` says that header and ICRC are well formed. -/
structure Image where
  ok       : Bool
  rev      : Byte
  icrc     : Word
  len      : Nat
  modAddr  : BitVec 4
  dbgEn    : Bool
  flkEn    : Bool
  present  : BitVec 16
  sysid    : Word
  exports  : Tab Nat
  imports  : Tab (Nat × Nat)
  instMap  : Tab Nat
  ins      : Tab InRec
  outs     : Tab Rec2
  tps      : Tab Rec2
  banks    : Tab Word
  cells    : Tab CellImg
  axes     : Tab (List Word)
  groups   : Tab (List Word)
  conns    : Tab (List Word)
  caps     : Tab CapCfg
  /-- Receive-entry index of each connection, which Phigifel assigns (R356). -/
  rxIdx    : Tab Nat
  /-- TXOFS of each connection in ns, which Phigifel assigns (R345). -/
  txOfs    : Tab Nat
  /-- BANK, OUT and LEVEL of the channels of cells with action code 0x1, laid out as TCMP_ACT (R97). -/
  chPar    : Tab (BitVec 12)
  /-- Runtime data of the engine slots, by engine: first block and number of blocks of its cluster memory (R211, R212). -/
  rtData   : Tab (Nat × Nat)
  creds    : Option (Cred × Cred)
deriving DecidableEq, Repr, Inhabited

/-- The image of a module with no configuration loaded (R40, R416). -/
def Image.none : Image :=
  { ok := false, rev := 0, icrc := 0, len := 0, modAddr := 0, dbgEn := false, flkEn := false, present := 0, sysid := 0,
    exports := [], imports := [], instMap := [], ins := [], outs := [], tps := [], banks := [], cells := [], axes := [],
    groups := [], conns := [], caps := [], rxIdx := [], txOfs := [], chPar := [], rtData := [], creds := .none }

/-! ### Records kept by the module -/

/-- A fault record of 8 words (R406), by field. -/
structure FRec where
  seq     : Word
  cal     : Dword
  tb      : Word
  site    : Half
  level   : BitVec 3
  startup : Bool
  recov   : Bool
  acked   : Bool
  bd      : Bool
  src     : Byte
  code    : Byte
  cell    : Option Nat
  related : Half
  d6      : Word
  d7      : Word
deriving DecidableEq, Repr, Inhabited

/-- A change-log entry of 128 bytes (R429), by field; `read` is the read mark. -/
structure LogE where
  kind    : Byte
  role    : BitVec 2
  seq     : Word
  tb      : Dword
  cal     : Dword
  cell    : Option Nat
  handle  : Half
  oldSig  : Word
  newSig  : Word
  bankSeq : Word
  lost    : Word
  site    : Half
  level   : BitVec 3
  d12     : Word
  d13     : Word
  read    : Bool
deriving DecidableEq, Repr, Inhabited

/-- A completion entry of 8 words (R398), by field. -/
structure Cqe where
  qp     : Nat
  idx    : Half
  tag    : Half
  sqidx  : Half
  status : Half
  res0   : Word
  res1   : Word
  tb     : Dword
  xlen   : Word
  phase  : Bool
deriving DecidableEq, Repr, Inhabited

/-- What leaves the module (model: its output port, the newest first). -/
inductive Emit
  /-- A completion entry written to a CQ (R398). -/
  | cqe (c : Cqe)
  /-- Data of a read command written to its host buffer, as words or bytes (R399). -/
  | buffer (qp : Nat) (b : List Byte)
  /-- A memory read request for SQ entries, or for a command's buffer (R395). -/
  | fetch (qp first count : Nat)
  /-- An MSI-X message (R407). -/
  | msix (v : Nat)
  /-- A Wilis frame on a path of a connection (R339). -/
  | wilis (conn path : Nat) (f : List Byte)
  /-- A REJECT for a CID the module does not hold (R357). -/
  | rejectUnknown (mac : Nat) (f : List Byte)
  /-- A host frame sent (R360). -/
  | frame (mac : Nat) (f : List Byte)
  /-- A Delay_Req or Pdelay_Req with its sequenceId (R112, R361). -/
  | ptp (mac : Nat) (seq : Half)
  /-- A SYNC frame, or the module's own slot frame, on both rings (R368). -/
  | sync (body : List Byte)
  | slot (body : List Byte)
  /-- A FiminLink frame forwarded on a ring (R372). -/
  | forward (ring : AB) (body : List Byte)
  /-- The outcome of a TAP instruction (R484, R525): accepted or refused. -/
  | tap (accepted : Bool)
deriving DecidableEq, Repr

/-- What a read returned: the model's own port for the value of a host, engine or JTAG read. -/
structure ReadPort where
  lo : Word := 0
  hi : Word := 0
deriving DecidableEq, Repr, Inhabited

/-- Service state of one unit, by site address with M = 0 (R12, R404 selector 0x05). -/
structure UnitSvc where
  oos   : Bool := false
  code  : Byte := 0
  count : Half := 0
deriving DecidableEq, Repr, Inhabited

/-! ### Power, start-up, clocks -/

/-- Where the module stands between power-on and service (R437, R448, R449, R464, R467, R484, R93). -/
inductive Phase | off | reset | starting | waitLock | service | faultStop | bootHold | standby | debugHalt
deriving DecidableEq, Repr, Inhabited

/-- The power die and the PWR block (R437 to R463). -/
structure Power where
  /-- Phase of the module. R464. Reset: `starting`, the state in which a start-up begins. -/
  phase    : Phase := .starting
  /-- VSYS is above the hold-up release level, PWR_STAT[1]. R461. Reset 0. -/
  vsysOk   : Bool := false
  /-- VSYS is below the hold-up threshold, so the converter runs from HOLD. R446. Reset: no (DESIGN CHOICE). -/
  dip      : Bool := false
  /-- A power failure is declared: no store grant until the next start-up. R447, R422. Reset: no. -/
  fail     : Bool := false
  /-- HOLD is at 38 V or more, PWR_STAT[0]. R445. Reset 0. -/
  holdOk   : Bool := false
  /-- Junction at 125 °C or more, PWR_STAT[2]. R444. Reset 0. -/
  ot       : Bool := false
  /-- The overtemperature reset holds the module until below 115 °C. R444. Reset: no. -/
  otHold   : Bool := false
  /-- PWR_STAT.START, 2 bits. R461. Reset 0. -/
  start    : BitVec 2 := 0
  /-- PWR_STAT[20:16] DIP_EVT, OV_EVT, OT_EVT, STBY_REF_EVT, HOLD_EVT. R461. Reset 0. -/
  evt      : BitVec 5 := 0
  /-- TB at which VSYS fell below the hold-up threshold, and at which the rails were last good. R445, R446, R447. Reset 0. -/
  dipAt    : Nat := 0
  railsAt  : Nat := 0
  /-- HOLD_EVT has been reported for the present time without HOLD_OK. R445. Reset: no. -/
  holdRep  : Bool := false
  /-- TB at which S10 of the last start-up began. R466. Reset 0. -/
  s10At    : Nat := 0
  /-- PWR_MEAS[19:10], HOLD in 100 mV. R461. Reset: DESIGN CHOICE 0. -/
  mHold    : BitVec 10 := 0
  /-- PWR_MEAS[27:20], core junction temperature + 64. R461. Reset: DESIGN CHOICE 0. -/
  mTemp    : Byte := 0
  /-- PWR_DIPS, 32 bits. R461. Reset 0. -/
  dips     : Word := 0
  /-- Ball RSTN is high. R26. Reset: high. -/
  rstn     : Bool := true
  /-- Ball STBYN is high. R449. Reset: high (DESIGN CHOICE: the board drives it). -/
  stbyn    : Bool := true
  /-- A wake that arrived during standby entry or while RSTN is low. R452, R528. Reset: none. -/
  wake     : Bool := false
  /-- The rail kept as the cause of a power-fail reset. R441. Reset: none. -/
  rail     : Option Rail := none
  /-- The last power-fail reset was an overtemperature reset. R444, R529. Reset: no. -/
  otKept   : Bool := false
  /-- A power failure ended the last run, to be recorded at the next start-up. R447, R529. Reset: no. -/
  pfKept   : Bool := false
  /-- A clock fault kept for the record of the next start-up: 0 none, 1 PLL, 2 REFCLK. R496. Reset 0. -/
  clkKept  : BitVec 2 := 0
deriving DecidableEq, Repr, Inhabited

/-- The SYS block and the pins SAFE_OK and FAULTN (R72, R27, R494, R495). -/
structure Sys where
  /-- Ball SAFE_OK is released, SYS_STAT[0]. R72. Reset 0. -/
  safeOk   : Bool := false
  /-- FAULTN is asserted, SYS_STAT[1]. R27, R465. Reset 1. -/
  faultn   : Bool := true
  /-- The refresh of output permit logic A, and that of logic B, reaches the power die. R72. Reset: no. -/
  refreshA : Bool := false
  refreshB : Bool := false
  /-- SYS_STAT[19:16] SAFEOK_EVT, FAULT_EVT, RUN_EVT, LOCKWR_EVT. R495. Reset 0. -/
  evt      : BitVec 4 := 0
  /-- SYS_LOCK.LOCK. R495. Reset 0. -/
  lock     : Bool := false
  /-- SYS_SCRATCH, 32 bits. R494. Reset 0. -/
  scratch  : Word := 0
  /-- SYS_START.DONE, 11 bits. R495. Reset 0. -/
  done     : BitVec 11 := 0
  /-- SYS_START.FAILSTEP, 4 bits. R495. Reset 0. -/
  failStep : BitVec 4 := 0
  /-- SYS_START.NOBANK. R495. Reset 0. -/
  noBank   : Bool := false
  /-- SYS_START.UNLOCKED. R495. Reset 0. -/
  unlocked : Bool := false
  /-- Boot engine, chosen by R44. Reset: none. -/
  boot     : Option Nat := none
  /-- The core-die spine is lost: a clock fault has stopped it. R24, R78. Reset: no. -/
  coreLost : Bool := false
deriving DecidableEq, Repr, Inhabited

/-- The CLK block (R496). -/
structure Clk where
  /-- CLK_STAT[0]. R496. Reset 0. -/
  pllLock : Bool := false
  /-- CLK_STAT[1]. R496. Reset 0. -/
  refOk   : Bool := false
  /-- CLK_STAT[2]. R496. Reset 0. -/
  lfOk    : Bool := false
  /-- CLK_STAT[18:16] LOCK_EVT, REF_EVT, LF_EVT. R496. Reset 0. -/
  evt     : BitVec 3 := 0
  /-- CLK_REFPPM[15:0], signed. R496. Reset: DESIGN CHOICE 0. -/
  ppm     : Half := 0
  /-- The host's latch of INC[63:32]. R492. Reset 0. -/
  incHi   : Word := 0
deriving DecidableEq, Repr, Inhabited

/-! ### Timebase -/

/-- Where the UTC offset comes from (R108). -/
inductive UtcSrc | none | host | ptp
deriving DecidableEq, Repr, Inhabited

/-- One party's latch of TB_HI and TB_FRAC (R83). -/
structure TbLatch where
  hi   : Word := 0
  frac : Word := 0
deriving DecidableEq, Repr, Inhabited

/-- The timebase, its discipline and its registers (R81 to R93, R107 to R110). -/
structure Timebase where
  /-- TB[63:0] in ns. R81. Reset 0 (R85). -/
  tb       : Dword := 0
  /-- The fraction in 2^-32 ns, 32 bits. R81. Reset 0 (R85). -/
  frac     : Word := 0
  /-- INC, 64 bits, in 2^-32 ns per tick. R82. Reset 0x4_0000_0000 (R496, the nominal increment). -/
  inc      : Dword := 0x400000000#64
  /-- Latches by party: 0 to 63 engines, 64 host, 65 JTAG. R83. Reset 0. -/
  latch    : Tab TbLatch := []
  /-- TB_STAT.LOCK. R90. Reset 0. -/
  lock     : Bool := false
  /-- TB_STAT.UNSET. R85. Reset 1 after retention loss, otherwise unchanged. -/
  unset    : Bool := true
  /-- TB_STAT[6:2] LOCK_LOST, SRC_CHG, FAR, LATE, BADACT. Reset 0. -/
  evt      : BitVec 5 := 0
  /-- TB_STAT.LF_RUN. R92. Reset 0. -/
  lfRun    : Bool := false
  /-- TB_OFFSET in ns, signed, saturating. R91. Reset: DESIGN CHOICE 0. -/
  offset   : Int := 0
  /-- Consecutive measurements within 40 ns, counted to 8. R90. Reset 0. -/
  good     : Nat := 0
  /-- Consecutive measurements beyond 60 ns, counted to 2. R90. Reset 0. -/
  far      : Nat := 0
  /-- TB_SRC[3:0], address of the reference. R86. Reset: DESIGN CHOICE 0. -/
  refAddr  : BitVec 4 := 0
  /-- TB_SRC[5:4]: 0 PTP, 1 FiminLink, 2 holdover, 3 host-set. R86. Reset: DESIGN CHOICE 2. -/
  src      : BitVec 2 := 2
  /-- TB_SRC[7:6], PTP slave port. R86. Reset: DESIGN CHOICE 0. -/
  port     : BitVec 2 := 0
  /-- UTC_OFS[15:0], signed. R108. Reset 0. -/
  utc      : Half := 0
  /-- Instant of the last measurement of the source, or of the change to it. R90. Reset: none. -/
  measAt   : Option Nat := none
  /-- The last measurement found more than 1 ms with a cell loaded. R91. Reset: no. -/
  farNow   : Bool := false
  /-- Source of the offset. R108. Reset: none. -/
  utcSrc   : UtcSrc := .none
  /-- Offset last set by host software. R108. Reset: none. -/
  utcHost  : Option Half := none
  /-- A positive or negative leap second is announced for today, and the number of that UTC day. R108. Reset: none. -/
  leap61   : Bool := false
  leap59   : Bool := false
  leapDay  : Nat := 0
  /-- Standard outputs that a channel has switched off in the present tick. R99. Reset: none. -/
  chanOff  : List Nat := []
  /-- Standard outputs that a PI_WRITE has switched off in the present tick. R402. Reset: none. -/
  hostOff  : List Nat := []
deriving DecidableEq, Repr, Inhabited

/-- What a compare channel acts on beyond its action code: a bank's schedule, a cell's hand-over, a pair's (R97). -/
inductive ChUse | none | bank (b : Nat) | cell (c : Nat) | pair (k : Nat)
deriving DecidableEq, Repr, Inhabited

/-- A compare channel (R94 to R100). -/
structure Chan where
  /-- Low word as last written or committed. R95. Reset 0 (R96). -/
  lo    : Word := 0
  /-- High word. R95. Reset 0. -/
  hi    : Word := 0
  /-- Value V with which it was last armed. R94, R95. Reset 0. -/
  val   : Dword := 0
  /-- TCMP_ARM. R95. Reset 0. -/
  armed : Bool := false
  /-- TCMP_ACT: ACT, BANK, OUT, LEVEL, IRQ, 12 bits. R97. Reset 0. -/
  act   : BitVec 12 := 0
  /-- Cell whose slot the channel is. R96. Reset: none. -/
  cell  : Option Nat := none
  /-- What a runtime channel concerns. R97. Reset: none. -/
  use   : ChUse := .none
  /-- Armed for a shared instant, R106. Reset: no. -/
  shared : Bool := false
  /-- Armed by the new version or instance of its cell in a hand-over, R307. Reset: no. -/
  newV  : Bool := false
deriving DecidableEq, Repr, Inhabited

/-- A permit change towards on that an armed 0x4 channel holds (R98): slot and instance. -/
structure Held where
  cell   : Nat
  slot   : Nat
  second : Bool
deriving DecidableEq, Repr, Inhabited

/-! ### Inputs -/

/-- States of a pair (R133). -/
inductive PairSt | off | waitOn | on | waitOff | fault
deriving DecidableEq, Repr, Inhabited

/-- One safe input and its Colander channel (R113 to R143). -/
structure Input where
  /-- Level at the input's lane. R117. Reset: DESIGN CHOICE 0. -/
  line     : Bool := false
  /-- Raw level that the Colander receives, IN_RAW: the lane's, and OFF while the input is out of service. R13, R121 step 1.
  Reset: DESIGN CHOICE 0. -/
  raw      : Bool := false
  /-- Level as qualified by step 3 of R121, before forcing. Reset 0. -/
  q        : Bool := false
  /-- Diagnostic code, 8 bits. R143. Reset 0. -/
  code     : Byte := 0
  /-- Occurrence count, 16 bits. R143. Reset 0. -/
  count    : Half := 0
  /-- Inside its own window, end instant of that window, level held at its start, drop seen. R122, R124, R135. Reset: no. -/
  inWin    : Bool := false
  winEnd   : Nat := 0
  held     : Bool := false
  dropSeen : Bool := false
  /-- Instant of the last drop outside the own window. R127. Reset: none. -/
  dropAt   : Option Nat := none
  /-- A drop lay inside a foreign window since the end of the previous own window. R143 CROSS_SHORT. Reset: no. -/
  crossed  : Bool := false
  /-- Held in its safe direction after loading. R136. Reset: yes. -/
  hold0    : Bool := true
  /-- Start instant of the running filter. R130. Reset: none. -/
  filter   : Option Nat := none
  /-- Start instant of a held OSSD drop. R128. Reset: none. -/
  ossd     : Option Nat := none
  /-- Start instant of the last counted test, and the instant from which PMAX runs. R129. Reset: none. -/
  lastTest : Option Nat := none
  onSince  : Option Nat := none
  /-- Consecutive failed or missing status words, and consecutive good ones. R117, R143. Reset 0. -/
  laneBad  : Nat := 0
  laneGood : Nat := 0
  /-- Instant of the last level change or sink probe, from which 10 s run. R143. Reset 0. -/
  edgeAt   : Nat := 0
  /-- Instant of the last wire-break measurement. R131. Reset: none. -/
  wbAt     : Option Nat := none
  /-- Consecutive wire-break measurements below and above the threshold. R131, R143. Reset 0. -/
  wbLow    : Nat := 0
  wbHigh   : Nat := 0
  /-- The condition of the latched code has gone and its first clearing event has been seen. R143. Reset: no. -/
  armClr   : Bool := false
  /-- The sink runs at the wetting current: for 2 ms after a wetting edge, and at all times where it is fixed. R113, R115.
  Reset: no. -/
  wet      : Bool := false
deriving DecidableEq, Repr, Inhabited

/-- The pair of inputs 2p and 2p + 1 (R119, R133, R137). -/
structure InPair where
  /-- State of the pair. R133. Reset OFF (R136). -/
  st       : PairSt := .off
  /-- Start instant of the discrepancy timer. R133. Reset: none. -/
  start    : Option Nat := none
  /-- Which channel became active first. R133. Reset: A. -/
  first    : AB := .a
  /-- Records waiting for the pair to be OFF, and the cell that brought them. R137. Reset: none. -/
  deferred : Option (InRec × InRec × Nat) := none
deriving DecidableEq, Repr, Inhabited

/-- A capture entry (R142). -/
structure CapE where
  stamp : Dword
  count : Word
  kind  : BitVec 3
deriving DecidableEq, Repr, Inhabited

/-- An encoder interface with its capture queue and the host's capture latch (R138 to R144). -/
structure Encoder where
  /-- Levels of A and B. R138. Reset: DESIGN CHOICE 0. -/
  a      : Bool := false
  b      : Bool := false
  /-- 32-bit count. R138. Reset: DESIGN CHOICE 0. -/
  count  : Word := 0
  /-- Direction flag, 1 down. R139. Reset 0. -/
  dir    : Bool := false
  /-- Counts moved against the direction since the last extreme. R139. Reset 0. -/
  back   : Nat := 0
  /-- Period in ns, 32 bits. R140. Reset 0xFFFF_FFFF. -/
  period : Word := 0xFFFFFFFF#32
  /-- Instant of the last edge of each kind counted in the present direction. R140. Reset: none. -/
  edgeAt : Tab Nat := []
  /-- Older edge of the pair that gave the period. R140. Reset 0. -/
  perAt  : Nat := 0
  /-- Taken out of use by its owner, and the edge kinds seen since it was re-armed. R141. Reset: no, none. -/
  rearm  : Bool := false
  seen   : BitVec 4 := 0
  /-- Instants of the last edge of A and of B. R141. Reset: none. -/
  lastA  : Option Nat := none
  lastB  : Option Nat := none
  /-- Count at the owner's last snapshot, and the window count latched there. R140. Reset 0. -/
  base   : Word := 0
  window : Word := 0
  /-- VALID. R141. Reset 0. -/
  valid  : Bool := false
  /-- ENC_STAT[5:2] PLAUS, RATE, SUPPLY, CAP_OVF. R144. Reset 0. -/
  evt    : BitVec 4 := 0
  /-- Faults PLAUS, RATE and SUPPLY raised since the interface was last re-armed: what the axis sees, which no write clears.
  R10, R141, R318. Reset 0. -/
  flt    : BitVec 3 := 0
  /-- Capture queue of at most 4 entries, oldest first. R142. Reset: empty. -/
  queue  : List CapE := []
  /-- The host's latch of a CAP_LO read: entry and its validity. R144. Reset 0, not valid. -/
  latch  : Option CapE := none
  /-- The latches of the cells that have read CAP_LO, by cell: the entry, and none where it was marked invalid. R142, R492.
  Reset: none. -/
  cellLatch : Tab (Option CapE) := []
deriving DecidableEq, Repr, Inhabited

/-- The wetting queue of one half (R115). -/
structure Wetting where
  now     : Option Nat := none
  /-- Instant at which its wetting began. R115. Reset 0. -/
  at_     : Nat := 0
  waiting : List Nat := []
deriving DecidableEq, Repr, Inhabited

/-! ### Outputs -/

/-- What an element is doing besides being on or off: a scheduled off-pulse or a dark-test probe in progress, or the
20 µs before the off-check (R160, R163, R165). -/
inductive Test | none | pulse | failed | probe
deriving DecidableEq, Repr, Inhabited

/-- One element of an output (R46, R149, R160). -/
structure Element where
  /-- The element conducts. R149. Reset: off (R465). -/
  on      : Bool := false
  /-- A turn-on waits for tokens. R150. Reset: no. -/
  waiting : Bool := false
  /-- TB of its last start of gate turn-on. R454. Reset 0. -/
  startAt : Nat := 0
  /-- Test in progress. R160. Reset: none. -/
  test    : Test := .none
  /-- Nominal start instant of that test. R157, R160, R165. Reset 0. -/
  testAt  : Nat := 0
  /-- A turn-off has ended the off-pulse in the tick of this TB: its verdict is still made in that tick. R168, R198.
  Reset: none. -/
  cutAt   : Option Nat := none
  /-- A turn-on commanded during a probe waits for the probe's end. R168. Reset: no. -/
  late    : Bool := false
  /-- A failed verdict holds the element off. R162. Reset: no. -/
  barred  : Bool := false
  /-- Its junction has reached the shutdown threshold and not fallen below the release threshold. R151, R169. Reset: no. -/
  hot     : Bool := false
  /-- Two lane words in a row have failed, and 8 good ones have not followed. R170, R169. Reset: no. -/
  laneOff : Bool := false
  /-- A latched code that SIL_EXPIRED replaced holds the element of a standard output off. R177. Reset: no. -/
  heldOff : Bool := false
  /-- The element conducted at the last valid heartbeat of its half. R177. Reset: no. -/
  hbOn    : Bool := false
  /-- Silence state of a standard output's element, kept until a write names the output. R177, R178. Reset: none. -/
  keep    : Option Bool := none
  /-- Tests discarded one after another. R181. Reset 0. -/
  discard : Nat := 0
  /-- Consecutive failed or missing lane words, and good ones. R170. Reset 0. -/
  laneBad  : Nat := 0
  laneGood : Nat := 0
deriving DecidableEq, Repr, Inhabited

/-- One output (R146 to R187). -/
structure Output where
  a        : Element := {}
  b        : Element := {}
  /-- Output code, 8 bits. R169. Reset 0. -/
  code     : Byte := 0
  /-- Occurrence count. R169. Reset 0. -/
  count    : Half := 0
  /-- After a clear: the combined permit has still to be seen off. R171. Reset: no. -/
  rearm    : Bool := false
  /-- Level last written for a standard output. R172, R401. Reset 0. -/
  level    : Bool := false
  /-- A standard output follows its level again only from the next write that names it. R174, R178. Reset: yes (R465). -/
  stdWait  : Bool := true
  /-- The failed pulse, for the off-check: which element, and what half A and half B read. R163, R167. Reset: none. -/
  failX    : Option (AB × Reading × Reading) := none
  /-- Last readings of the ball by each half and of N; OUT_RBA and OUT_RBB show which are high. R146, R186. Reset: low. -/
  rbA      : Lvl := .low
  rbB      : Lvl := .low
  nA       : Lvl := .low
  nB       : Lvl := .low
  /-- Verdicts reported by the two halves for the present check. R167. Reset: none. -/
  verA     : Option Byte := none
  verB     : Option Byte := none
  /-- In recovery, and the instant of the first turn-on in it, from which one OPP ends it. R183. Reset: no. -/
  recov    : Bool := false
  recovAt  : Option Nat := none
  /-- Instants of the last turn-on of the output and of the last turn-off of an element, and of the end of its last off-pulse.
  R166, R169. Reset 0. -/
  onAt     : Nat := 0
  offAt    : Nat := 0
  pulseAt  : Nat := 0
  /-- Instant since which the output reads in current limit. R151. Reset: none. -/
  limAt    : Option Nat := none
  /-- Instant since which the ball reads low with both elements off. R169. Reset: none. -/
  lowAt    : Option Nat := none
  /-- The other party of a CROSS_SHORT: output or 64 + source. R164, R169. Reset: none. -/
  partner  : Option Nat := none
deriving DecidableEq, Repr, Inhabited

/-- One test-pulse source (R154 to R159). -/
structure Source where
  /-- In its off-pulse, and the nominal start instant of that off-pulse. R157. Reset: no, 0. -/
  pulse  : Bool := false
  pulseAt : Nat := 0
  /-- Ball read high. R186. Reset 0. -/
  high   : Bool := false
  /-- Source code, 8 bits. R159. Reset 0. -/
  code   : Byte := 0
  /-- Occurrence count. R502. Reset 0. -/
  count  : Half := 0
  /-- Steps of a clearing event: instant from which the ball is low, and a unit reset has been given. R159.
  Reset: none, no. -/
  lowAt  : Option Nat := none
  armClr : Bool := false
  /-- The other party of a TP_CROSS. R164. Reset: none. -/
  partner : Option Nat := none
  /-- A retry waits for tokens; its tokens have been granted and the retry is under way. R156. Reset: no. -/
  waiting : Bool := false
  retrying : Bool := false
  /-- Instant since which the source reads in current limit. R156. Reset: none. -/
  limAt  : Option Nat := none
  /-- Instant of the overload or of the last retry, from which 1 s runs. R156. Reset 0. -/
  retryAt : Nat := 0
  /-- Start of the period at which the source resumes after a supply loss. R182. Reset: none. -/
  resume : Option Nat := none
  /-- End of the recovery phase: TPP after it began. R183. Reset: none. -/
  recovTo : Option Nat := none
deriving DecidableEq, Repr, Inhabited

/-- A report that a half holds back while no heartbeat reaches it: output, verdict and the bytes for the lane (R176). -/
structure Report where
  o       : Nat
  verdict : Byte
  raw     : List Byte
deriving DecidableEq, Repr, Inhabited

/-- One half of a field die (R175 to R186). -/
structure FieldHalf where
  /-- Sequence reference. R175. Reset: none. -/
  ref     : Option Byte := none
  /-- Valid heartbeats in a row since the last that was not valid. R178. Reset 0. -/
  run     : Nat := 0
  /-- Silence timer expired, BANK_STAT SIL. R177. Reset 0. -/
  silent  : Bool := false
  /-- BANK_STAT VFLOW and VFHIGH. R186. Reset 0. -/
  vfLow   : Bool := false
  vfHigh  : Bool := false
  /-- Quiesced: outputs off, sources low, silence timer stopped. R179. Reset: no. -/
  quiet   : Bool := false
  /-- Instant of the last valid heartbeat, and TB[31:0] that it carried. R175, R176. Reset: none, 0. -/
  lastHb  : Option Nat := none
  hbTb    : Word := 0
  /-- The core side's heartbeat sender: sequence number last sent to this half, and when. R42, R175. Reset 0
  (DESIGN CHOICE). -/
  sent    : Byte := 0
  sentAt  : Nat := 0
  /-- The half's own copy of the schedule's start instant. R157. Reset: none. -/
  sched   : Option Nat := none
  /-- Instant of the last dip of VF shorter than 10 µs. R181. Reset: none. -/
  dipAt   : Option Nat := none
  /-- Reports buffered while no heartbeat arrives, oldest first, at most 16, and reports dropped. R176. Reset: none, 0. -/
  buffered : List Report := []
  dropped : Half := 0
  /-- Temperature + 64. R186. Reset: DESIGN CHOICE 0. -/
  temp    : Byte := 0
deriving DecidableEq, Repr, Inhabited

/-- One field bank (R155, R157, R186). -/
structure FBank where
  /-- Start instant S of the running schedule. R157. Reset: none. -/
  sched  : Option Nat := none
  /-- VF is applied and good. R438. Reset: no (DESIGN CHOICE). -/
  vf     : Bool := false
  /-- VFb in 50 mV, BANK_MEAS[25:16]. R186. Reset: DESIGN CHOICE 0. -/
  meas   : BitVec 10 := 0
  /-- BANK_STAT[20:16] VF_EVT, DIP_EVT, SIL_EVT, OVL_EVT, RESYNC_EVT. R186. Reset 0. -/
  evt    : BitVec 5 := 0
deriving DecidableEq, Repr, Inhabited

/-! ### The Ladle -/

/-- A request or holding of the Ladle: the site that asked and its cost (R454, R455). -/
structure Tok where
  site : Nat
  cost : Nat
  at_  : Nat
deriving DecidableEq, Repr, Inhabited

/-- One domain's bucket (R453). -/
structure Bucket where
  /-- Size B, 15 bits. R462. Reset 1,000 (35 for d = 0). -/
  size  : Nat := 1000
  /-- Refill rate, 16 bits. R462. Reset 4,096 (3 for d = 0). -/
  rate  : Nat := 4096
  /-- L, signed. R453. Reset: B. -/
  level : Int := 1000
  /-- H. R453. Reset 0. -/
  held  : Nat := 0
  /-- S. R453. Reset 0. -/
  spent : Nat := 0
  /-- Refill accumulator in 1/64,000 token. R456. Reset 0. -/
  acc   : Nat := 0
  /-- Waiting requests, oldest first. R455. Reset: none. -/
  queue : List Tok := []
  /-- Granted events that hold tokens. R454. Reset: none. -/
  grants : List Tok := []
  /-- The bank's standing reservation. R454. Reset 0. -/
  resv  : Nat := 0
deriving DecidableEq, Repr, Inhabited

/-- The Ladle (R453 to R463). -/
structure Ladle where
  /-- Domain 0, VSYS. Reset B = 35, rate 3. -/
  vsys  : Bucket := { size := 35, rate := 3, level := 35 }
  /-- Domains 1 to 4, VF0 to VF3, by bank. Reset as `Bucket`. -/
  vf    : Tab Bucket := []
  /-- LADLE_STAT[19:16] OVER_EVT, AUDIT_EVT, BADCFG, YIELD_EVT. R462. Reset 0. -/
  evt   : BitVec 4 := 0
  /-- LADLE_OVER, 32 bits. R462. Reset 0. -/
  overN : Word := 0
  /-- LADLE_TPC[7:0]. R462. Reset 30. -/
  tpc   : Byte := 30
  /-- LADLE_OC_w by global output, 8 bits each. R462. Reset 60. -/
  oc    : Tab Byte := []
deriving DecidableEq, Repr, Inhabited

/-! ### The Lid and the output permit logic -/

/-- TRIP_CAUSE and TRIP_STAMP of one output (R204). -/
structure Cause where
  term  : BitVec 9 := 0
  valid : Bool := false
  dis   : Bool := false
  count : Half := 0
  stamp : Word := 0
deriving DecidableEq, Repr, Inhabited

/-- Both Lids (R188 to R205). -/
structure LidS where
  /-- Latches of Lid-A and Lid-B, one bit an output: ARMED, and RELEASABLE; an output in neither is TRIPPED. R196.
  Reset TRIPPED. -/
  armA   : BitVec 64 := 0
  relA   : BitVec 64 := 0
  armB   : BitVec 64 := 0
  relB   : BitVec 64 := 0
  /-- Latches that have become RELEASABLE in the present tick, by Lid. R198. Reset: none. -/
  relNowA : BitVec 64 := 0
  relNowB : BitVec 64 := 0
  /-- Outputs of which a latch has left ARMED in the present tick, and those of which Lid-A's has. R204. Reset: none. -/
  tripNow : BitVec 64 := 0
  tripNowA : BitVec 64 := 0
  /-- Effective mask of each element in each Lid, 512 bits. R194. Reset 0. -/
  maskA  : Tab (BitVec 512) := []
  maskB  : Tab (BitVec 512) := []
  /-- Imported terms held active, 192 bits. R192. Reset: all active. -/
  im     : BitVec 192 := BitVec.allOnes 192
  /-- TRIP_NEW, 64 bits. R204. Reset 0. -/
  new    : BitVec 64 := 0
  /-- TRIP_STAT[5:2] DIS_EVT, CHK_EVT, TRIP_EVT, IMP_EVT. R204. Reset 0. -/
  evt    : BitVec 4 := 0
  /-- TRIP_STAT[0] and [1]: Lid faulty. R202. Reset 0. -/
  faultA : Bool := false
  faultB : Bool := false
  /-- Causes by output. R204. Reset 0. -/
  cause  : Tab Cause := []
  /-- Instants of the disagreements of the last second. R201. Reset: none. -/
  disAt  : List Nat := []
deriving DecidableEq, Repr, Inhabited

/-- One owner slot of an output (R291, R292, R297). -/
structure Slot where
  /-- Cell named. R291. Reset: not in use. -/
  cell   : Option Nat := none
  /-- Instance bits P0 and P1, and which are in use. R291, R297. Reset 0; only P0 in use. -/
  p0     : Bool := false
  p1     : Bool := false
  use0   : Bool := true
  use1   : Bool := false
  /-- P1 follows P0 (an output that only the old version owns). R297. Reset: no. -/
  follow : Bool := false
  /-- TB of the last renewal of each bit. R292. Reset 0. -/
  t0     : Nat := 0
  t1     : Nat := 0
deriving DecidableEq, Repr, Inhabited

/-- A cell trip term's two instance bits (R293). -/
structure Ct where
  b0 : Bool := true
  b1 : Bool := false
deriving DecidableEq, Repr, Inhabited

/-- One entry of the output request buffer (R277): offset in the window or in the compare slots, and data. -/
structure Req where
  slot : Bool
  off  : Nat
  data : Word
deriving DecidableEq, Repr, Inhabited

/-- Requests of a matched checkpoint that have not yet taken effect (R219): the engine, the cell dispatched, whether in its new
version or instance, and the leader's buffer. -/
structure Due where
  eng  : Nat
  cell : Option Nat
  newV : Bool
  reqs : List Req
deriving DecidableEq, Repr, Inhabited

/-- The output permit logics (R291 to R293). -/
structure Permits where
  /-- Owner slots by number 4o + i in output permit logic A, and in logic B. R46, R291. Reset: none in use. -/
  slots : Tab Slot := []
  slotsB : Tab Slot := []
  /-- Cell trip terms by k; b0 raised. R293, R191. Reset: raised. -/
  ct    : Tab Ct := []
  /-- Held changes towards on. R98. Reset: none. -/
  held  : List Held := []
  /-- Commits that have matched and not yet taken effect, oldest first. R219. Reset: none. -/
  due   : List Due := []
deriving DecidableEq, Repr, Inhabited

/-! ### Engines, cluster memories, pairs -/

/-- Roles of an engine (R207), with why it is halted (R207: mismatch, hand-over, debug halt). -/
inductive EngRole | idle | single | leader | follower | halted | out
deriving DecidableEq, Repr, Inhabited

/-- A hardware loop level (R257). -/
structure LoopLv where
  lc : Word := 0
  ls : Word := 0
  le : Word := 0
deriving DecidableEq, Repr, Inhabited

/-- A short timer (R101, R102). -/
structure EtTimer where
  value : Word := 0
  armed : Bool := false
  count : Word := 0
deriving DecidableEq, Repr, Inhabited

/-- A branch whose delay slot is to issue: its address, the target where it is taken, whether it ends the loops that its
target leaves, and ENS.MP and ENS.MODE as it issued (R254, R261, R266). -/
structure DSlot where
  branch : Word
  target : Option Word
  ends   : Bool
  mp     : BitVec 2
  cellM  : Bool
deriving DecidableEq, Repr, Inhabited

/-- What an entry of the load-and-event queue carries (R215). -/
inductive QKind | word | load | clock | event
deriving DecidableEq, Repr, Inhabited

/-- An entry of the load-and-event queue, tagged with the index of the instruction it belongs to (R215): its value, and its error
status. -/
structure QEnt where
  idx   : Word
  kind  : QKind
  value : Word
  err   : Bool
deriving DecidableEq, Repr, Inhabited

/-- A safety engine (R206, R241 to R245, R101). -/
structure Engine where
  /-- Role. R207. Reset IDLE. -/
  role   : EngRole := .idle
  /-- g1 to g31, 32 bits each; g0 is never stored. R241. Reset 0 (R242). -/
  g      : Tab Word := []
  /-- k1 to k31 in one word; bit 0 stays 0. R241. Reset 0 (R242). -/
  k      : Word := 0
  /-- PC. R241. Reset 0x4000_0000 (R242). -/
  pc     : Word := 0x40000000#32
  /-- The instruction now issuing is a delay slot. R254. Reset: no. -/
  ds     : Option DSlot := none
  /-- ENS fields MODE (cell), HND, EVE, DZE, LA, MP, PM. R244. Reset 0. -/
  cellM  : Bool := false
  hnd    : Bool := false
  eve    : Bool := false
  dze    : Bool := false
  la0    : Bool := false
  la1    : Bool := false
  mp     : BitVec 2 := 0
  pm     : Bool := false
  /-- EPC, ES, EVA, 32 bits each. R243. Reset 0 (R242). -/
  epc    : Word := 0
  es     : Word := 0
  eva    : Word := 0
  /-- Loop levels 0 and 1. R243. Reset 0 (R242). -/
  lp0    : LoopLv := {}
  lp1    : LoopLv := {}
  /-- CTAG[7:0]. R243. Reset: DESIGN CHOICE 0. -/
  ctag   : Byte := 0
  /-- Whisk register. R217. Reset 0xFFFF_FFFF. -/
  whisk  : Word := 0xFFFFFFFF#32
  /-- Output request buffer, oldest first, and requests of the interval. R206, R220. Reset: empty. -/
  reqs   : List Req := []
  nreq   : Nat := 0
  /-- Pending events by EVN. R272. Reset: none. -/
  events : BitVec 64 := 0
  /-- Stalled in WAIT. R250. Reset: no. -/
  stall  : Bool := false
  /-- Stalled at a CHKP that it alone of its pair has sealed. R218, R275. Reset: no. -/
  sealed : Bool := false
  /-- The load-and-event queue, used while the engine is a follower, at most 16 entries, oldest first; and the index of the next
  instruction of the pair's stream. R206, R215. Reset: empty, 0. -/
  queue  : List QEnt := []
  idx    : Word := 0
  /-- A queue entry of the follower has failed its parity. R215. Reset: no. -/
  qbad   : Bool := false
  /-- The fetch buffer: the last 4 words fetched, the newest first. R206. Reset: empty. -/
  fbuf   : List Word := []
  /-- Process image as the runtime reads and writes it with no cell running, by word offset. R246. Reset 0 (DESIGN CHOICE). -/
  pi     : Tab Word := []
  /-- JTAG has asked for a single step; address of a breakpoint. R236. Reset: no, none. -/
  step1  : Bool := false
  bp     : Option Word := none
  /-- Stopped by a double fault. R270. Reset: no. -/
  dead   : Bool := false
  /-- Halted by debug, or by a hand-over (role HALTED). R207. Reset: no. -/
  dbg    : Bool := false
  /-- Short timers ET_0 to ET_3. R101. Reset 0, disarmed. -/
  et     : Tab EtTimer := []
  /-- ET_MODE and ET_STAT, 4 bits each. R102. Reset 0. -/
  etMode : BitVec 4 := 0
  etStat : BitVec 4 := 0
  /-- ET_WD in ns, and whether its overrun is pending. R102. Reset 0, stopped. -/
  wd     : Word := 0
  wdHit  : Bool := false
  /-- Cell dispatched, and whether in its new version or at its new place. R287, R297. Reset: none. -/
  cell   : Option Nat := none
  newV   : Bool := false
  /-- TB of the last self-test. R48. Reset 0. -/
  tested : Nat := 0
deriving DecidableEq, Repr, Inhabited

/-- One block's entry of the owner table (R212). -/
structure OwnE where
  tag    : Byte := 0
  ro     : Bool := false
  badPar : Bool := false
deriving DecidableEq, Repr, Inhabited

/-- One cluster memory (R209 to R213, R239). -/
structure Cluster where
  /-- 262,144 bytes; an unlisted byte reads 0 (DESIGN CHOICE). R209. -/
  mem   : List Host.Cell := []
  /-- Bits in error in a word, by word address, counted to 3. R210. Reset 0. -/
  err   : Tab Nat := []
  /-- Tag under which the words of a block were written, by block. R210, R211. Reset 0x00 (DESIGN CHOICE). -/
  wrote : Tab Byte := []
  /-- Tag under which a word was last written, by word address; unlisted: that of its block in `wrote`. R210. -/
  tags  : Tab Byte := []
  /-- Word address under which a word was last written; unlisted: its own. R210. -/
  addrs : Tab Half := []
  /-- Owner table, 256 entries. R212. Reset: unallocated. -/
  own   : Tab OwnE := []
  /-- MEM_CE, MEM_UE, MEM_SCRUB, 32 bits each. R239. Reset 0. -/
  ce    : Word := 0
  ue    : Word := 0
  scrub : Word := 0
  /-- Spares in use and fuse entries used. R479, R481. Reset 0. -/
  spares : Byte := 0
  fuses  : Byte := 0
deriving DecidableEq, Repr, Inhabited

/-- States of a pair of engines (R239). -/
inductive PState | idle | paired | split | resolving | degEven | degOdd | debug | handover | part | out
deriving DecidableEq, Repr, Inhabited

/-- A pair of engines (R218 to R240). -/
structure EPair where
  /-- PAIR_MODE. R239. Reset IDLE. -/
  st      : PState := .idle
  /-- Comparator registers L and F once sealed in the present checkpoint. R218. Reset: none. -/
  l       : Option Word := none
  f       : Option Word := none
  /-- PAIR_INFO CAUSE, CMP_DIS, MM_COUNT, SKEW_MAX. R239. Reset 0. -/
  cause   : BitVec 3 := 0
  cmpDis  : Bool := false
  mm      : Half := 0
  skewMax : BitVec 4 := 0
  /-- PAIR_INFO SKEW. R214, R239. Reset 0. -/
  skew    : BitVec 4 := 0
  /-- PAIR_LAST. R239. Reset 0. -/
  last    : Word := 0
  /-- TB of the both-pass outcomes of the last 24 h. R226. Reset: none. -/
  both    : List Nat := []
  /-- The first matching checkpoint has formed the pair. R233. Reset: no. -/
  formed  : Bool := false
  /-- Self-test after a mismatch, not after an engine fault or merge. R224, R230. Reset: no. -/
  disc5   : Bool := false
  /-- TB at which one of the two engines sealed while the other had not. R220. Reset 0. -/
  sealAt  : Nat := 0
deriving DecidableEq, Repr, Inhabited

/-! ### Cells, groups and axes -/

/-- States of a cell (R281). -/
inductive CState | unloaded | loading | running | safe | held | handover | stopping
deriving DecidableEq, Repr, Inhabited

/-- A safety cell of the module (R281 to R309). -/
structure CellS where
  /-- State. R281. Reset UNLOADED. -/
  st    : CState := .unloaded
  /-- Running version. R282. Reset: none. -/
  ver   : Option CellImg := none
  /-- Engine, or even engine of the pair, and ONPAIR. R308. Reset 0. -/
  eng   : Nat := 0
  onP   : Bool := false
  /-- Cell slot, first code block, first state block where it runs. R283, R296. Reset 0. -/
  slot  : Nat := 0
  cblk  : Nat := 0
  sblk  : Nat := 0
  /-- Kinds of degraded mode present. R59. Reset: none. -/
  dEng  : Bool := false
  dRing : Bool := false
  dNet  : Bool := false
  /-- TB at entry into degraded mode. R60. Reset: none. -/
  dAt   : Option Nat := none
  /-- Which of 50 % and 90 % have been reported. R65. Reset: no. -/
  r50   : Bool := false
  r90   : Bool := false
  /-- Next release sets FIRST. R289. Reset: no. -/
  first : Bool := false
  /-- TB of the cell faults of the last second, and CELL_INFO.FCOUNT. R274, R308. Reset 0. -/
  fAt   : List Nat := []
  fcnt  : Byte := 0
  /-- Availability accumulator in ns, and TB since which it counts. R69. Reset 0. -/
  avail : Dword := 0
  since : Option Nat := none
  /-- Kept out of availability: a load that host software requested. R69. Reset: no. -/
  excl  : Bool := false
  /-- The new version's next release sets FIRST. R297. Reset: no. -/
  nfirst : Bool := false
  /-- A matching checkpoint since the hand-over began. R303. Reset: no. -/
  chk   : Bool := false
  /-- STOP at degraded expiry waits for the next cycle. R61. Reset: no. -/
  expd  : Bool := false
  /-- Process image of the last snapshot, by word offset. R289. Reset 0. -/
  pi    : Tab Word := []
  /-- Records of a hand-over pending on this cell: the new version and where it runs. R296, R303. Reset: none. -/
  nver  : Option CellImg := none
  neng  : Nat := 0
  nonP  : Bool := false
  nslot : Nat := 0
  ncblk : Nat := 0
  nsblk : Nat := 0
  /-- Cycle of the two versions for the renewal, in ns. R292. Reset 0. -/
  cyc   : Nat := 0
  /-- TB of the last release of the running version, and of the new version or instance. R285. Reset: none. -/
  relAt  : Option Nat := none
  nrelAt : Option Nat := none
deriving DecidableEq, Repr, Inhabited

/-- Steps of an exchange or move (R308: CELL_HO.STEP), or a split or merge that waits for H (R232). -/
inductive HoStep | idle | loading | waiting | running
deriving DecidableEq, Repr, Inhabited

/-- What the one hand-over of the module does (R295, R303, R530, R232). -/
inductive HoKind | exchange | move | remove | split | merge
deriving DecidableEq, Repr, Inhabited

/-- The hand-over under way (R295, R308). -/
structure Handover where
  step : HoStep := .idle
  kind : HoKind := .exchange
  cell : Nat := 0
  pair : Nat := 0
  /-- X or H. R296, R232. -/
  x    : Dword := 0
  /-- Channel armed for it. R296. -/
  chan : Nat := 0
  /-- Queue pair and TAG of the command, cells still to exchange, cells exchanged. R405. -/
  qp   : Nat := 0
  rest : List Nat := []
  done : Nat := 0
  /-- Cells of a split that go to the odd engine. R231. -/
  odd  : List Nat := []
  /-- Axis, group and connection records of the new version. R310, R333, R337. -/
  axes : Tab (List Word) := []
  groups : Tab (List Word) := []
  conns : Tab (List Word) := []
  /-- Input records as the old version runs with them, kept from X to the end of the hand-over. R137, R294. -/
  ins : Tab InRec := []
  /-- TB at which the search for X or H began. R296. -/
  at_  : Nat := 0
  /-- The state area of the new version or place has been copied. R296, R303. Reset: no. -/
  copied : Bool := false
deriving DecidableEq, Repr, Inhabited

/-- States of an axis group (R321). -/
inductive GState | unused | run | sos | stopping | stoppingT | sto
deriving DecidableEq, Repr, Inhabited

/-- An axis group (R312, R321 to R335). -/
structure Group where
  /-- State. R321. Reset UNUSED; STO at every load. -/
  st    : GState := .unused
  /-- Cause of the last STO, 4 bits. R335. Reset 0. -/
  cause : BitVec 4 := 0
  /-- Launch instant L. R324. Reset 0. -/
  launch : Nat := 0
  /-- TB of the STOPPING_T launch. R327. Reset 0. -/
  tLaunch : Nat := 0
  /-- First evaluation after L is still to come. R325. Reset: no. -/
  fresh : Bool := false
  /-- Start of the standstill confirmation. R326. Reset: none. -/
  still : Option Nat := none
  /-- Requests as last committed: SS1, SOS, RELEASE; TB of the renewal. R322. Reset 0. -/
  ss1   : Bool := false
  sos   : Bool := false
  rel   : Bool := false
  reqAt : Nat := 0
  /-- SOS and RELEASE as the new version or instance last committed them in a hand-over. R333. Reset: no. -/
  nsos  : Bool := false
  nrel  : Bool := false
  /-- SS1 as the new version or instance last committed it in a hand-over. R333. Reset: no. -/
  nss1  : Bool := false
  /-- Both combined permits have been on since the group left STO. R323. Reset: no. -/
  bothOn : Bool := false
  /-- Launches of SS1 that came outside RUN and SOS and changed nothing, saturating. R324. Reset 0. -/
  idle   : Half := 0
deriving DecidableEq, Repr, Inhabited

/-- An axis (R311 to R335). -/
structure Axis where
  /-- V_EST, signed. R314, R317. Reset 0. -/
  est   : Int := 0
  /-- V_BOUND. R314. Reset 0. -/
  bound : Nat := 0
  /-- Code of R318, 8 bits. Reset 0. -/
  code  : Byte := 0
  /-- A condition of R318 was present at the last evaluation. R332. Reset: no. -/
  cond  : Bool := false
  /-- UNSETTLED at the next evaluation, and at the last one. R315. Reset: yes. -/
  unset : Bool := true
  wasUn : Bool := true
  /-- The source was not valid at the last evaluation. R315. Reset: no. -/
  inval : Bool := false
  /-- V_L and V_ENV. R325. Reset 0, 0xFFFF_FFFF. -/
  vl    : Nat := 0
  env   : Nat := 0xFFFFFFFF
  envV  : Bool := false
  /-- SOS reference and displacement. R328. Reset 0. -/
  ref   : Int := 0
  disp  : Int := 0
  sosV  : Bool := false
  /-- SLS selection 0 to 4, V_LIM, and the ramp: start, old limit, new limit. R329. Reset off. -/
  sel   : Nat := 0
  lim   : Nat := 0xFFFFFFFF
  ramp0 : Nat := 0
  limO  : Nat := 0xFFFFFFFF
  limN  : Nat := 0xFFFFFFFF
  slsV  : Bool := false
  /-- Start instants of NO_EDGE, XCHK, FRZ_CNT and FRZ_VAL conditions. R318. Reset: none. -/
  noE   : Option Nat := none
  xchk  : Option Nat := none
  frzC  : Option Nat := none
  frzV  : Option Nat := none
  /-- Last counter word and value word, and the TB of the last evaluation. R318, R314. Reset 0. -/
  lastC : Word := 0
  lastV : Word := 0
  lastT : Nat := 0
  age   : Nat := 0
  xval  : Int := 0
deriving DecidableEq, Repr, Inhabited

/-! ### Wilis and Ethernet -/

/-- States of a connection (R349). -/
inductive ConnSt | closed | connecting | open | failed
deriving DecidableEq, Repr, Inhabited

/-- A Wilis connection (R336 to R358). -/
structure Conn where
  /-- State. R349. Reset CLOSED. -/
  st    : ConnSt := .closed
  /-- Code, 8 bits. R357. Reset 0. -/
  code  : Byte := 0
  /-- Transmit SEQ, 16 bits. R345. Reset: DESIGN CHOICE 0. -/
  tx    : Half := 0
  /-- Last accepted SEQ. R348. Reset: DESIGN CHOICE 0. -/
  rx    : Half := 0
  /-- STAMP, receive stamp, data, PASSIV of the last accepted frame; VALID. R356. Reset 0. -/
  stamp : Word := 0
  rxAt  : Nat := 0
  data  : List Word := []
  passv : Bool := false
  valid : Bool := false
  /-- First snapshot since OPEN. R356. Reset: no. -/
  first : Bool := false
  /-- Paths UP, TB of the last live frame on each, TB of entry into OPEN or FAILED. R353. Reset: DOWN. -/
  up0   : Bool := false
  up1   : Bool := false
  at0   : Nat := 0
  at1   : Nat := 0
  since : Nat := 0
  /-- Lost frames since OPEN (16 bits) and since start-up (CONN_LOST), CONN_DISC. R356, R363. Reset 0. -/
  lostO : Half := 0
  lost  : Word := 0
  disc  : Word := 0
  /-- Safe data and transmit control as committed, by word; the new version's in a hand-over. R290, R297. Reset 0. -/
  out   : Tab Word := []
  ctl   : Word := 0
  out1  : Tab Word := []
  ctl1  : Word := 0
  /-- Command bits set by a group's stop: words ORed into the data sent. R324. Reset 0. -/
  cmdOr : Tab Word := []
  /-- TB of the last scheduled frame. R345, R349. Reset: none. -/
  txAt  : Option Nat := none
  /-- The receive entry as it stood before the frames of the tick `rxAt`, which a snapshot of that tick shows. R358. Reset: none. -/
  was   : List Word := []
deriving DecidableEq, Repr, Inhabited

/-- One MAC with its PTP port and counters (R359 to R363). -/
structure Mac where
  /-- MAC_CTL EN and WL_EN. R363. Reset 0. -/
  en     : Bool := false
  wlEn   : Bool := false
  /-- MAC_ADDR (48 bits), IP_ADDR, PTP_LAT. R363. Reset: DESIGN CHOICE 0. -/
  addr   : BitVec 48 := 0
  ip     : Word := 0
  lat    : Word := 0
  /-- MAC_STAT LINK and [19:16]. R363. Reset 0. -/
  link   : Bool := false
  evt    : BitVec 4 := 0
  /-- PTP_PORT[3:0] and asCapable. R363. Reset: DISABLED 3 (DESIGN CHOICE), 0. -/
  port   : BitVec 4 := 3
  asCap  : Bool := false
  /-- sequenceId of the next PTP message it sends, 16 bits. R112. Reset: DESIGN CHOICE 0. -/
  ptpSeq : Half := 0
  /-- Statistics counters 0 to 15, 64 bits. R363. Reset 0. -/
  stat   : Tab Dword := []
  /-- TB of the last REJECT of reason 2. R357. Reset: none. -/
  rejAt  : Option Nat := none
deriving DecidableEq, Repr, Inhabited

/-- The MAC/PTP block's common registers (R363). -/
structure Net where
  macs   : Tab Mac := []
  conns  : Tab Conn := []
  /-- WL_UDP, WL_ETYPE, WL_DSCP, WL_STAT[4:0], PTP_CFG, PTP_NPDT, STAT_SEL, CONN_SEL, the latch of STAT_HI. R363.
  Reset 0 (WL_STAT by the table; the others DESIGN CHOICE). -/
  udp    : Half := 0
  etype  : Half := 0
  dscp   : BitVec 6 := 0
  evt    : BitVec 5 := 0
  ptpCfg : Word := 0
  npdt   : Word := 0
  statSel : Byte := 0
  connSel : BitVec 10 := 0
  statHi : Word := 0
deriving DecidableEq, Repr, Inhabited

/-! ### FiminLink -/

/-- States of FLK_ROLE (R377). -/
inductive FlkRole | off | listen | backoff | join | run | resync | dup
deriving DecidableEq, Repr, Inhabited

/-- The copies of one module's slot that arrive on one ring (R373, R379, R381, R385). -/
structure RxRing where
  /-- Cycle number of the last valid copy, and bit i: a valid copy in the cycle i before it. R373, R378. Reset: none. -/
  last : Word := 0
  hist : BitVec 8 := 0
  /-- The path on this ring is lost. R381. Reset: no. -/
  lost : Bool := false
  /-- Deviation of the last valid copy in ns (FLK_DEV) and failed checks (FLK_BAD). R385. Reset 0. -/
  dev  : Half := 0
  bad  : Half := 0
  /-- Consecutive cycles in which the module reports this module unheard on this ring alone. R381. Reset 0. -/
  unh  : Nat := 0
deriving DecidableEq, Repr, Inhabited

/-- What a module keeps of one other module on the ring (R373 to R382). -/
structure Peer where
  /-- Admitted; declared lost and not readmitted. R378, R380. Reset: no. -/
  adm    : Bool := false
  lost   : Bool := false
  /-- Copies on ring A and ring B. Reset: none. -/
  a      : RxRing := {}
  b      : RxRing := {}
  /-- Consecutive cycles with a valid copy and LOCK = 1, and the last of them. R378. Reset 0. -/
  good   : Nat := 0
  goodAt : Word := 0
  /-- Last valid body. R370. Reset: none. -/
  body   : List Byte := []
  /-- LEAVE in the last valid copy. R380. Reset: no. -/
  leave  : Bool := false
  /-- LINK_A as it last reported it. R374. Reset 0. -/
  linkA  : Half := 0
  /-- FLK_LOST. R385. Reset 0. -/
  lostN  : Word := 0
  /-- Last GEN armed of instant entries 0 to 3. R382. Reset: none. -/
  gens   : Tab (Option Byte) := []
deriving DecidableEq, Repr, Inhabited

/-- An own instant entry of the slot body (R382). -/
structure InstE where
  instant : Dword := 0
  gen   : Byte := 0
  valid : Bool := false
  /-- Number of the last cycle whose slot carries the entry as valid, as TB div 50,000 ns. Reset 0. -/
  upTo  : Nat := 0
deriving DecidableEq, Repr, Inhabited

/-- FiminLink (R365 to R386). -/
structure Flk where
  /-- FLK_ROLE state. R377. Reset OFF. -/
  role   : FlkRole := .off
  /-- Ring master address. R376. Reset 0. -/
  master : BitVec 4 := 0
  /-- This module is ring master. R376. Reset: no. -/
  isMaster : Bool := false
  /-- FLK_STAT LINKA, LINKB, ISOL. R385. Reset 0. -/
  linkA  : Bool := false
  linkB  : Bool := false
  isol   : Bool := false
  /-- FLK_STAT[23:16]: LOST, ADM, PATH, COLL, EXCL, LONG, DUP, CHK. R385. Reset 0. -/
  evt    : BitVec 8 := 0
  /-- FLK_SEL. R385. Reset: DESIGN CHOICE 0. -/
  sel    : BitVec 4 := 0
  /-- Peers by address. Reset: none known. -/
  peers  : Tab Peer := []
  /-- Own instant entries: instant, GEN, valid. R382. Reset: not valid. -/
  inst   : Tab InstE := []
  /-- Next slot carries LEAVE; it has been sent and the module sends no more. R380. Reset: no. -/
  leave  : Bool := false
  left   : Bool := false
  /-- Measured DEV_A and DEV_B, and the last 16 delays of the ring A link into this module, the newest first. R374.
  Reset 0, none. -/
  devA   : Int := 0
  devB   : Int := 0
  delays : List Int := []
  /-- Cycle of the last differing frame of the own address. R380. Reset: none. -/
  dupAt  : Option Word := none
  /-- Body last sent. R380. Reset: none. -/
  last   : List Byte := []
  /-- ROFS measured as ring master. R375. Reset 0. -/
  rofs   : Int := 0
  /-- Cycle of the SYNC last measured from, and its master; a ring B copy kept until its cycle ends. R375. Reset: none. -/
  measAt : Option (Word × Nat) := none
  syncB  : Option (Word × Int) := none
  /-- Cycle in which a slot of the reference was last measured by the ring master. R375. Reset: none. -/
  refAt  : Option Word := none
  /-- TB of entry into the role; BACKOFF has ended and the module becomes ring master at its next cycle start. R377. Reset 0, no. -/
  roleAt : Nat := 0
  lead   : Bool := false
  /-- Cycle last begun, and cycle of the last own slot. R368. Reset: none. -/
  cycAt  : Option Word := none
  sentIn : Option Word := none
deriving DecidableEq, Repr, Inhabited

/-! ### Host interface -/

/-- A submission entry of 16 words (R397) once fetched, with its index and the bytes of its buffer once read. -/
structure Desc where
  w      : List Word
  sqidx  : Half
  buf    : Option (List Byte)
  /-- Its buffer read failed: it completes with HOST_MEM_ERROR when it runs. R396. -/
  memErr : Bool
  /-- It has started and runs. R399. -/
  ran    : Bool
  /-- Its queue pair was reset after its fetch: it runs to its end and its completion is discarded. R390, R409. -/
  lost   : Bool := false
  /-- It came by a network queue pair. R391. -/
  net    : Bool := false
deriving DecidableEq, Repr, Inhabited

/-- A completion held while the function is in D3hot (R409). -/
structure HeldC where
  tag    : Half
  sqidx  : Half
  status : Half
  res0   : Word
  res1   : Word
  xlen   : Word
  data   : List Byte
  noirq  : Bool
deriving DecidableEq, Repr, Inhabited

/-- States of a queue pair (R396). -/
inductive QpSt | disabled | active | draining | error
deriving DecidableEq, Repr, Inhabited

/-- A queue pair (R391 to R412). -/
structure Qp where
  /-- QP_CTL EN, class and MAC. R410. Reset 0 (class and MAC DESIGN CHOICE). -/
  en     : Bool := false
  cls    : Bool := false
  mac    : BitVec 2 := 0
  /-- QP_SQ_LO/HI, QP_SQ_CFG, QP_CQ_LO/HI, QP_CQ_CFG. R410. Reset: DESIGN CHOICE 0. -/
  sqBase : Dword := 0
  sqCfg  : BitVec 4 := 0
  cqBase : Dword := 0
  cqCfg  : BitVec 23 := 0
  /-- Indices SQP, SQC, CQP, CQC, 16 bits each. R393. Reset 0. -/
  sqp    : Half := 0
  sqc    : Half := 0
  cqp    : Half := 0
  cqc    : Half := 0
  /-- QP_STAT STATE, CAUSE, ERR_EVT. R410. Reset 0. -/
  st     : QpSt := .disabled
  cause  : BitVec 3 := 0
  errEvt : Bool := false
  /-- Index of the first entry and the entries of the read outstanding. R395. Reset: none. -/
  reading : Option (Half × Nat) := none
  /-- Commands fetched and not completed, oldest first. R393. Reset: none. -/
  cmds   : List Desc := []
  /-- OUT, 13 bits. R393. Reset 0. -/
  out    : Nat := 0
  /-- Completions counted for the interrupt since the last message, and TB at the first of them. R407. Reset 0. -/
  irq    : Nat := 0
  irqAt  : Nat := 0
  /-- Completions held while in D3hot. R409. Reset: none. -/
  heldC  : List HeldC := []
  /-- QP_DROP. R410. Reset 0. -/
  drop   : Word := 0
  /-- Posted receive buffers: tag, index, length. R400. Reset: none. -/
  posts  : List Desc := []
  /-- TB of the last SQ doorbell accepted, and SQP before the first one of that tick. R411. Reset: none, 0. -/
  sqpAt  : Option Nat := none
  sqpWas : Half := 0
  /-- TB at which it last left ACTIVE. R411. Reset: none. -/
  leftAt : Option Nat := none
deriving DecidableEq, Repr, Inhabited

/-- The HIF block, PCIe and the host process image (R387 to R412). -/
structure Hif where
  qps    : Tab Qp := []
  /-- HIF_CTL T_HSIL. R410. Reset 100. -/
  tHsil  : Byte := 100
  /-- HIF_STAT SILENT and [22:16]. R410. Reset 0. -/
  silent : Bool := false
  evt    : BitVec 7 := 0
  /-- HIF_EVT_EN, 7 bits. R410. Reset 0. -/
  evtEn  : BitVec 7 := 0
  /-- QP_SEL. R410. Reset: DESIGN CHOICE 0. -/
  qpSel  : BitVec 6 := 0
  /-- The link is up (not DL_Down), the function is in D3hot, PE_PERSTN is high. R390, R387. Reset: down, D0, high. -/
  linkUp : Bool := false
  d3     : Bool := false
  perstn : Bool := true
  /-- TB at which the present silence began; TB of the last write; T_HSIL has passed without one. R408. Reset: none. -/
  silAt  : Option Nat := none
  lastW  : Nat := 0
  silTo  : Bool := false
  /-- MSI-X table: masked vectors and pending vectors, 65 bits each. R407. Reset: masked, none (PRESUMED PCI). -/
  mask   : BitVec 65 := BitVec.allOnes 65
  pend   : BitVec 65 := 0
  /-- MSI-X message address and data by dword of the table. R388. Reset: DESIGN CHOICE 0. -/
  msix   : Tab Word := []
  /-- A silence has ended and vector 0 waits for a QP to be active. R408. Reset: no. -/
  wakeV  : Bool := false
  /-- Host process image of the last action 0x2 snapshot, 32 words. R401. Reset: none. -/
  snap   : Option (List Word) := none
  /-- The queue pair whose SQ was last read: the round robin goes on behind it. R395. Reset 63, so that QP0 comes first. -/
  turn   : Nat := 63
  /-- Frames that the present tick has brought for a network queue pair, each with the queue pair, its bytes and its receive stamp.
  R409, R411. Reset: none. -/
  rx     : List (Nat × List Byte × Word) := []
  /-- CQ doorbells of the present tick beyond CQP: they are judged against the CQP that the tick leaves. R411. Reset: none. -/
  late   : List (Nat × Half) := []
deriving DecidableEq, Repr, Inhabited

/-! ### The store, sessions and the log -/

/-- The header sector of a bank, word by word; an erased word is all ones (R415). -/
structure Header where
  seq    : Word := 0xFFFFFFFF#32
  len    : Word := 0xFFFFFFFF#32
  bcrc   : Word := 0xFFFFFFFF#32
  rev    : Word := 0xFFFFFFFF#32
  icrc   : Word := 0xFFFFFFFF#32
  resv   : Word := 0xFFFFFFFF#32
  hcrc   : Word := 0xFFFFFFFF#32
  commit : Word := 0xFFFFFFFF#32
  revoke : Word := 0xFFFFFFFF#32
deriving DecidableEq, Repr, Inhabited

/-- An image bank: header sector, body bytes (unlisted: 0xFF, erased), and the image those bytes spell (R415). -/
structure BankS where
  hdr   : Header := {}
  body  : Tab Byte := []
  image : Image := Image.none
  /-- The header sector, and 64 KiB blocks of the body, that fail their check: an operation cut short, or a periodic check
  that failed. R414, R423. Reset: none. -/
  hdrTorn : Bool := false
  torn  : List Nat := []
  /-- 64 KiB blocks erased in this session, and the end of what it has written. R418, R419. Reset: none. -/
  fresh : List Nat := []
  extent : Nat := 0
deriving DecidableEq, Repr, Inhabited

/-- An operation of the store die (R414, R421). -/
inductive StoreOp | none | read | program | eraseSector | eraseBlock
deriving DecidableEq, Repr, Inhabited

/-- One step of the host session's work at the store port (R418, R420, R426, R432): each but `check` and `flush` is one
operation of R414; `check` is R419, `flush` waits for the log writer. Offsets and blocks are those of the target bank. -/
inductive Job
  | check
  | eraseHdr
  | eraseBlk (n : Nat)
  | page (off : Nat) (data : List Byte)
  | readBody
  | flush
  | header
  | commit
  | revoke
  | credA
  | credB
  | readLog
deriving DecidableEq, Repr

/-- A command of the host session that uses the store, with its remaining jobs and the completion it will get; `d` is none
for work that no command waits for. R418, R424, R432. -/
structure Work where
  q    : Nat
  d    : Option Desc
  jobs : List Job
  code : Nat
  res0 : Word
deriving DecidableEq, Repr

/-- One role's credentials, lockout and session (R403, R424 to R428). -/
structure RoleS where
  /-- Credentials in use. R425, R426. Reset: the factory records. -/
  cred  : Cred
  /-- FAILS 0 to 4 and LEVEL 0 to 11. R426. Reset: DESIGN CHOICE 0 (kept in the store). -/
  fails : Nat := 0
  level : Nat := 0
  /-- A lockout is in force; fabric ticks until it ends; TB of the tick in which the last one ended. R427, R434. Reset: no, 0, none. -/
  locked : Bool := false
  lockT  : Nat := 0
  freedAt : Option Nat := none
  /-- Open session: handle and queue pair; TB of its last command. R403, R428. Reset: none. -/
  sess  : Option (Half × Nat) := none
  lastC : Nat := 0
  /-- A password check in progress, with its queue pair. R424, R425. Reset: none. -/
  chk   : Option Nat := none
deriving DecidableEq, Repr, Inhabited

/-- The store die, its arbiter, the sessions and the change log (R413 to R436). -/
structure Store where
  bank0 : BankS := {}
  bank1 : BankS := {}
  /-- Winning bank, none where no bank is valid. R416. Reset: none. -/
  win   : Option Bool := none
  /-- The store die is lost. R24. Reset: no. -/
  lost  : Bool := false
  /-- STORE_ARB priorities of requesters 0 to 3 and FREEZE. R435. Reset 3, 2, 1, 0; 0. -/
  prio  : BitVec 8 := 0x1B
  freeze : Bool := false
  /-- The holder of the port with its operation; for the log writer, the entries of the page it programs, 0 for read
  marks. R421. Reset: none. -/
  holder : Option Nat := none
  op    : StoreOp := .none
  logN  : Nat := 0
  /-- End of the last read of the runtime load service. R422. Reset: none. -/
  rtAt  : Option Nat := none
  /-- Work of the host session, the first in progress. R418. Reset: none. -/
  works : List Work := []
  /-- The session has erased the target header. R418 step 1. Reset: no. -/
  begun : Bool := false
  /-- SEQ that a commit in progress writes, its image length, and once step 4 has begun the log entries still to program.
  R418. Reset 0, none. -/
  newSeq : Word := 0
  newLen : Nat := 0
  flushN : Option Nat := none
  /-- Step 6 has begun. R420. Reset: no. -/
  at6   : Bool := false
  /-- The reset hook acts at the end of the operation in progress; TB of the reset or close that asked for it. R420, R434. Reset: no,
  none. -/
  hook  : Bool := false
  hookAt : Option Nat := none
  /-- TB of the last periodic check. R423. Reset 0. -/
  checkAt : Nat := 0
  /-- STORE_STAT[23:16]. R435. Reset 0. -/
  evt   : BitVec 8 := 0
  maint : RoleS
  safety : RoleS
  /-- Credential copies exist with this generation. R425, R426. Reset: none. -/
  gen   : Option Nat := none
  /-- Credential copies A and B known to fail their check: an operation on them was cut, or a periodic check failed. R423,
  R426. Reset: none. -/
  credBad : BitVec 2 := 0
  /-- Held entries of the log with a right CRC, oldest first, each with its sequence number; buffered entries; newest
  sequence number; lost-entry counter. R431. Reset: an empty log (DESIGN CHOICE: the store's contents at delivery). -/
  log   : List LogE := []
  buf   : List LogE := []
  next  : Word := 0
  lostN : Word := 0
  /-- Log sector last erased ahead of the ring, and sequence numbers whose read marks wait to be programmed. R431, R432.
  Reset: none. -/
  erased : Option Nat := none
  marks : List Word := []
  /-- The last log entry programmed is STANDBY. R430 START, R433. Reset: no. -/
  stby  : Bool := false
  /-- SEQ of a commit whose COMMIT entry is programmed, until step 7 or its ROLLBACK entry. R418 step 4, R420. Reset: none. -/
  pendC : Option Word := none
deriving DecidableEq, Repr, Inhabited

/-! ### BIST, CVU, test access -/

/-- Result summary of one region, the spine or the store die (R478). -/
structure BistSum where
  /-- Outcome of the last complete run: 0 not run, 1 pass, 2 pass with repair, 3 fail. R478, R486. Reset 0. -/
  outcome : BitVec 2 := 0
  /-- TB[31:0] at its end. R478, BIST_LAST_q. Reset 0. -/
  last    : Word := 0
  /-- Complete runs since start-up. R478. Reset 0. -/
  runs    : Word := 0
  /-- Incomplete runs in a row, saturating. R477, BIST_RES_q. Reset 0. -/
  incompl : Byte := 0
deriving DecidableEq, Repr, Inhabited

/-- The BIST controller (R472 to R487). -/
structure Bist where
  /-- BG_PER. R486. Reset 15. -/
  per    : Byte := 15
  /-- The conditions of R473 that no other field shows (VCORE, VMEM) hold; CONDS shows all of them. R473, R486. Reset 0. -/
  conds  : Bool := false
  /-- ACTIVE, and a run paused. R486. Reset 0. -/
  active : Bool := false
  paused : Bool := false
  /-- BIST_STAT[21:16]. R486. Reset 0. -/
  evt    : BitVec 6 := 0
  /-- Region whose turn comes next in the rotation. R474. Reset 0 (Q0). -/
  rot    : Nat := 0
  /-- Region of the present or last run, per cent complete. R486. Reset: DESIGN CHOICE 0. -/
  region : BitVec 2 := 0
  pct    : BitVec 7 := 0
  /-- Rows that the present or last run has not tested. R475. Reset 0. -/
  skipped : Nat := 0
  /-- Summaries 0 to 5. R478. Reset 0. -/
  sums   : Tab BistSum := []
  /-- Failure entries, newest first, at most 128: site, code, repaired, fused, detail. R478. Reset: none. -/
  fails  : List (Half × Byte × Bool × Bool × Word) := []
  /-- BIST_SCAN: BOOT_HOLD asked for and in force, CLEARED, scan active. R486. Reset 0. -/
  hold   : Bool := false
  inHold : Bool := false
  cleared : Bool := false
  scan   : Bool := false
  /-- TAP instruction: 0 BYPASS, 1 SAMPLE/PRELOAD, 2 EXTEST, 3 CLAMP, 4 BOOT_HOLD, 5 SCAN. R525. Reset BYPASS. -/
  tap    : BitVec 3 := 0
  /-- Regions with MEM_UNREPAIRED since their last reset. R479. Reset: none. -/
  unrep  : BitVec 4 := 0
  /-- A discarded run begins again once the conditions have held for 10 ms; TB of the last lapse. R473. Reset: no, 0. -/
  again  : Bool := false
  lapseAt : Nat := 0
  /-- TB at which the last in-service run began, or service did. R474, R477. Reset 0. -/
  runAt  : Nat := 0
  /-- What a run that has ended in the present tick reports. R473, R485. Reset: none. -/
  ended  : Option (List BistItem) := none
deriving DecidableEq, Repr, Inhabited

/-- What a CVU held before the items of the present tick (R501). -/
structure CvuWas where
  at_  : Nat
  reg  : Word
  cnt  : Word
  run  : Bool
  done : Bool
  evt  : BitVec 3
deriving DecidableEq, Repr, Inhabited

/-- A check-value unit (R498). -/
structure Cvu where
  ctl  : BitVec 19 := 0
  poly : Word := 0
  init : Word := 0
  xor  : Word := 0
  len  : Word := 0
  reg  : Word := 0
  cnt  : Word := 0
  run  : Bool := false
  done : Bool := false
  evt  : BitVec 3 := 0
  /-- What it held before the first item of the last tick that brought one, and the items of that tick. R501. Reset: none. -/
  was  : Option CvuWas := none
  items : List (Word × List Byte) := []
deriving DecidableEq, Repr, Inhabited

/-- The registers of FLD, CELLDIR, PAIR and their W1C views (R144, R186, R239, R308, R502). -/
structure Regs where
  /-- IN_NEWDIAG_b, 128 bits. R144. Reset 0. -/
  inNew   : BitVec 128 := 0
  /-- OUT_NEWDIAG_b outputs (64 bits) and sources (32 bits). R186. Reset 0. -/
  outNew  : BitVec 64 := 0
  tpNew   : BitVec 32 := 0
  /-- FLD_SEL. R502. Reset 0. -/
  fldSel  : Byte := 0
  /-- PAIR_NEW and PAIR_EVT. R239. Reset 0. -/
  pairNew : Word := 0
  pairEvt : BitVec 8 := 0
  /-- CELL_NEW (1,024 bits), CELL_EVT, CELL_SEL. R308. Reset 0; CELL_SEL DESIGN CHOICE 0. -/
  cellNew : BitVec 1024 := 0
  cellEvt : BitVec 8 := 0
  cellSel : BitVec 10 := 0
  /-- TCMP_FIRED, 32 bits. R94 block. Reset: DESIGN CHOICE 0. -/
  fired   : Word := 0
  /-- Inputs whose latched code has cleared in the present tick. R135. Reset: none. -/
  clrNow  : List Nat := []
deriving DecidableEq, Repr, Inhabited

/-! ### The whole module -/

/-- An SK6410. -/
structure State where
  /-- Model: commands that wait, first in first out. Reset: none. -/
  pending : List Instr
  /-- Model: counter that a free value is applied to; each step that takes one advances it. Reset 0 (DESIGN CHOICE). -/
  fresh   : Nat
  /-- Model: what has left the module, the newest first. Reset: nothing. -/
  port    : List Emit
  /-- Model: the value the last read returned. Reset 0. -/
  rd      : ReadPort
  pwr     : Power
  sys     : Sys
  clk     : Clk
  tb      : Timebase
  /-- Compare channels 0 to 255. R94. -/
  chans   : Tab Chan
  /-- Units out of service, last code and count, by site with M = 0. R12, R404. Reset: all in service. -/
  units   : Tab UnitSvc
  /-- Loaded configuration, and whether one is loaded (SYS_MOD[4]). R494. Reset: none. -/
  cfg     : Image
  loaded  : Bool
  /-- SEQ of the loaded bank. R494 SYS_SEQ. Reset 0. -/
  cfgSeq  : Word
  ins     : Tab Input
  pairs   : Tab InPair
  encs    : Tab Encoder
  wets    : Tab Wetting
  outs    : Tab Output
  tps     : Tab Source
  halves  : Tab FieldHalf
  banks   : Tab FBank
  ladle   : Ladle
  lid     : LidS
  perm    : Permits
  engs    : Tab Engine
  mems    : Tab Cluster
  epairs  : Tab EPair
  /-- Regions powered and in service, and isolated. R19, R20. Reset: not powered. -/
  regions : BitVec 4
  cells   : Tab CellS
  ho      : Handover
  groups  : Tab Group
  axes    : Tab Axis
  /-- Availability sum of the module in ns. R69. Reset 0. -/
  avail   : Dword
  net     : Net
  flk     : Flk
  hif     : Hif
  store   : Store
  /-- Fault records, the newest first, at most 4,096, and the next sequence number. R406. Reset: none; number 0
  (DESIGN CHOICE). -/
  recs    : List FRec
  recSeq  : Word
  bist    : Bist
  cvus    : Tab Cvu
  regs    : Regs
  /-- W1C bits that have been set in the present tick, each as 32 × its register's BAR0 offset + its number. R9. Reset: none. -/
  setNow  : List Nat
deriving DecidableEq, Repr

/-- The state right after reset: every register at the reset value the spec states, every other at the value the
assumption log names. A start-up has begun (R464) and no configuration is loaded (R40). -/
def State.reset : State :=
  { pending := [], fresh := 0, port := [], rd := {}, pwr := {}, sys := {}, clk := {}, tb := {}, chans := [], units := [],
    cfg := Image.none, loaded := false, cfgSeq := 0, ins := [], pairs := [], encs := [], wets := [], outs := [], tps := [],
    halves := [], banks := [], ladle := {}, lid := {}, perm := {}, engs := [], mems := [], epairs := [], regions := 0,
    cells := [], ho := {}, groups := [], axes := [], avail := 0, net := {}, flk := {}, hif := {},
    store := { maint := { cred := ⟨0, 4096, 0, true⟩ }, safety := { cred := ⟨0, 4096, 0, true⟩ } },
    recs := [], recSeq := 0, bist := {}, cvus := [], regs := {}, setNow := [] }

end Sys2Proof.Machine
end

