-- ==== Sys2Proof/Config.lean ====
section
/-! DEFINITION. What the spec leaves open or to one implementation. Each constant is opaque: nothing in Lean can
evaluate it, so a statement about it holds whatever the hardware does. -/

namespace Sys2Proof.Config

open Sys2Proof.Machine

/-- A value the spec does not state, fresh at every use: applied to the state's counter. -/
opaque freeWord : Nat → Word
/-- A truth the spec does not state, fresh at every use. -/
opaque freeBool : Nat → Bool
/-- A number the spec does not state, fresh at every use. -/
opaque freeNat : Nat → Nat

/-- The increment the discipline chooses while slewing: its control law is not in the spec (R88 only bounds it). -/
opaque slewInc : Nat → Dword

/-- The fraction of TB after a step (R87 replaces it; the spec gives no value). -/
opaque stepFrac : Nat → Word

/-- Whether a byte range of the store spells an image, and which: the byte layout is Phigifel's (R413). -/
opaque parseImage : List Byte → Image

/-- PBKDF2-HMAC-SHA-256 of a password with a salt and an iteration count (R425). -/
opaque pbkdf2 : List Byte → BitVec 128 → Word → BitVec 256

/-- The factory credential record of a role: its contents are printed with the module, not in the spec (R425). -/
opaque factoryCred : Role → Cred

/-- The module's serial number, 64 bits, and what else SYS_ID leaves to the part (R494). -/
opaque serial : Dword

/-- Whether an RSTN low pulse of at least 100 ns and less than 1 µs acts: the spec binds neither (R471). -/
opaque shortResetActs : Nat → Bool

/-- Whether the check code of a word reports an error where more bits differ than it is bound to find (R210). -/
opaque multiBitDetected : Nat → Bool

/-- VSYS as the power die measures it at a time TB, in 100 mV: the board decides it (R461). -/
opaque vsysMeas : Nat → BitVec 10

/-- How far a BIST run is at a time TB, in per cent: its pace is not in the spec (R486). -/
opaque bistPct : Nat → Nat

/-- Words of the runtime ROM of a cluster: its contents are not in the spec (R206, R246). -/
opaque romWord : Nat → Word

/-- References of the runtime's own checkpoints on a single engine, by identifier: part of that ROM (R276). -/
opaque romRef : Nat → Word

end Sys2Proof.Config
end

