-- ==== Sys2Proof/Machine/Ops.lean ====
section
/-! DEFINITION. The shared operations of the block: reading and changing one unit of a table, free values, time,
calendar words, fault records, log entries, interrupts, units in and out of service, and the pins. -/

namespace Sys2Proof.Machine

/-! ### One unit of a table -/

/-- A change made where a condition holds. -/
def State.when (s : State) (c : Bool) (f : State → State) : State := if c then f s else s

/-- The numbers below a bound, folded over. -/
def State.each (s : State) (n : Nat) (f : State → Nat → State) : State := (List.range n).foldl f s

/-- Safe input n (0 to 127). -/
def State.inp (s : State) (n : Nat) : Input := Tab.get {} s.ins n
/-- A change of safe input n. -/
def State.updInp (s : State) (n : Nat) (f : Input → Input) : State := { s with ins := Tab.upd {} s.ins n f }
/-- Input pair p. -/
def State.pair (s : State) (p : Nat) : InPair := Tab.get {} s.pairs p
/-- A change of input pair p. -/
def State.updPair (s : State) (p : Nat) (f : InPair → InPair) : State := { s with pairs := Tab.upd {} s.pairs p f }
/-- Encoder interface e. -/
def State.enc (s : State) (e : Nat) : Encoder := Tab.get {} s.encs e
/-- A change of encoder interface e. -/
def State.updEnc (s : State) (e : Nat) (f : Encoder → Encoder) : State := { s with encs := Tab.upd {} s.encs e f }
/-- Output o. -/
def State.out (s : State) (o : Nat) : Output := Tab.get {} s.outs o
/-- A change of output o. -/
def State.updOut (s : State) (o : Nat) (f : Output → Output) : State := { s with outs := Tab.upd {} s.outs o f }
/-- Element x of an output. -/
def Output.el (o : Output) (x : AB) : Element := match x with | .a => o.a | .b => o.b
/-- A change of element x of an output. -/
def Output.updEl (o : Output) (x : AB) (f : Element → Element) : Output :=
  match x with | .a => { o with a := f o.a } | .b => { o with b := f o.b }
/-- A change of element x of output o. -/
def State.updEl (s : State) (o : Nat) (x : AB) (f : Element → Element) : State := s.updOut o (fun r => r.updEl x f)
/-- Test-pulse source t. -/
def State.tp (s : State) (t : Nat) : Source := Tab.get {} s.tps t
/-- A change of test-pulse source t. -/
def State.updTp (s : State) (t : Nat) (f : Source → Source) : State := { s with tps := Tab.upd {} s.tps t f }
/-- Half h of bank b, numbered 2b + h. -/
def State.half (s : State) (b : Nat) (h : AB) : FieldHalf := Tab.get {} s.halves (2 * b + h.n)
/-- A change of half h of bank b. -/
def State.updHalf (s : State) (b : Nat) (h : AB) (f : FieldHalf → FieldHalf) : State :=
  { s with halves := Tab.upd {} s.halves (2 * b + h.n) f }
/-- Field bank b. -/
def State.bank (s : State) (b : Nat) : FBank := Tab.get {} s.banks b
/-- A change of field bank b. -/
def State.updBank (s : State) (b : Nat) (f : FBank → FBank) : State := { s with banks := Tab.upd {} s.banks b f }
/-- Engine SE(e). -/
def State.eng (s : State) (e : Nat) : Engine := Tab.get {} s.engs e
/-- A change of engine SE(e). -/
def State.updEng (s : State) (e : Nat) (f : Engine → Engine) : State := { s with engs := Tab.upd {} s.engs e f }
/-- Cluster memory c. -/
def State.clu (s : State) (c : Nat) : Cluster := Tab.get {} s.mems c
/-- A change of cluster memory c. -/
def State.updClu (s : State) (c : Nat) (f : Cluster → Cluster) : State := { s with mems := Tab.upd {} s.mems c f }
/-- Engine pair k (R16). -/
def State.epair (s : State) (k : Nat) : EPair := Tab.get {} s.epairs k
/-- A change of engine pair k. -/
def State.updEPair (s : State) (k : Nat) (f : EPair → EPair) : State := { s with epairs := Tab.upd {} s.epairs k f }
/-- Cell c. -/
def State.cell (s : State) (c : Nat) : CellS := Tab.get {} s.cells c
/-- A change of cell c. -/
def State.updCell (s : State) (c : Nat) (f : CellS → CellS) : State := { s with cells := Tab.upd {} s.cells c f }
/-- Axis group g. -/
def State.grp (s : State) (g : Nat) : Group := Tab.get {} s.groups g
/-- A change of axis group g. -/
def State.updGrp (s : State) (g : Nat) (f : Group → Group) : State := { s with groups := Tab.upd {} s.groups g f }
/-- Axis a. -/
def State.axis (s : State) (a : Nat) : Axis := Tab.get {} s.axes a
/-- A change of axis a. -/
def State.updAxis (s : State) (a : Nat) (f : Axis → Axis) : State := { s with axes := Tab.upd {} s.axes a f }
/-- Wilis connection n. -/
def State.conn (s : State) (n : Nat) : Conn := Tab.get {} s.net.conns n
/-- A change of Wilis connection n. -/
def State.updConn (s : State) (n : Nat) (f : Conn → Conn) : State :=
  { s with net := { s.net with conns := Tab.upd {} s.net.conns n f } }
/-- MAC m. -/
def State.mac (s : State) (m : Nat) : Mac := Tab.get {} s.net.macs m
/-- A change of MAC m. -/
def State.updMac (s : State) (m : Nat) (f : Mac → Mac) : State :=
  { s with net := { s.net with macs := Tab.upd {} s.net.macs m f } }
/-- What the module keeps of module m. -/
def State.peer (s : State) (m : Nat) : Peer := Tab.get {} s.flk.peers m
/-- A change of what the module keeps of module m. -/
def State.updPeer (s : State) (m : Nat) (f : Peer → Peer) : State :=
  { s with flk := { s.flk with peers := Tab.upd {} s.flk.peers m f } }
/-- Queue pair q. -/
def State.qp (s : State) (q : Nat) : Qp := Tab.get {} s.hif.qps q
/-- A change of queue pair q. -/
def State.updQp (s : State) (q : Nat) (f : Qp → Qp) : State :=
  { s with hif := { s.hif with qps := Tab.upd {} s.hif.qps q f } }
/-- Compare channel n. -/
def State.chan (s : State) (n : Nat) : Chan := Tab.get {} s.chans n
/-- A change of compare channel n. -/
def State.updChan (s : State) (n : Nat) (f : Chan → Chan) : State := { s with chans := Tab.upd {} s.chans n f }
/-- Check-value unit n. -/
def State.cvu (s : State) (n : Nat) : Cvu := Tab.get {} s.cvus n
/-- A change of check-value unit n. -/
def State.updCvu (s : State) (n : Nat) (f : Cvu → Cvu) : State := { s with cvus := Tab.upd {} s.cvus n f }
/-- The owner slots of the output permit logic of channel x (R46). -/
def Permits.of (p : Permits) (x : AB) : Tab Slot := match x with | .a => p.slots | .b => p.slotsB
/-- A change of the owner slots, in both output permit logics alike (R291). -/
def Permits.updSlots (p : Permits) (f : Tab Slot → Tab Slot) : Permits := { p with slots := f p.slots, slotsB := f p.slotsB }
/-- A change of the owner slots of both output permit logics. -/
def State.mapSlots (s : State) (f : Tab Slot → Tab Slot) : State := { s with perm := s.perm.updSlots f }
/-- Owner slot i of output o (R291), as output permit logic A holds it. -/
def State.slot (s : State) (o i : Nat) : Slot := Tab.get {} s.perm.slots (4 * o + i)
/-- A change of owner slot i of output o, in both output permit logics. -/
def State.updSlot (s : State) (o i : Nat) (f : Slot → Slot) : State := s.mapSlots (fun t => Tab.upd {} t (4 * o + i) f)
/-- Cell trip term k (R293). -/
def State.ct (s : State) (k : Nat) : Ct := Tab.get {} s.perm.ct k
/-- A change of cell trip term k. -/
def State.updCt (s : State) (k : Nat) (f : Ct → Ct) : State :=
  { s with perm := { s.perm with ct := Tab.upd {} s.perm.ct k f } }

/-! ### Free values and the port -/

/-- A free word: what the spec does not state. -/
def State.takeWord (s : State) : Word × State := (Config.freeWord s.fresh, { s with fresh := s.fresh + 1 })
/-- A free truth. -/
def State.takeBool (s : State) : Bool × State := (Config.freeBool s.fresh, { s with fresh := s.fresh + 1 })

/-- Something leaves the module. -/
def State.emit (s : State) (e : Emit) : State := { s with port := e :: s.port }

/-- A read returns a value. -/
def State.ret (s : State) (lo : Word) (hi : Word := 0) : State := { s with rd := { lo := lo, hi := hi } }

/-! ### Sites (R32 to R40) -/

/-- Site of engine SE(e), with M = 0 (R34). -/
def siteEngine (e : Nat) : Nat := 32 * (e / 4) + e % 4
/-- Site of a service unit of cluster c: 4 memory, 5 comparator set, 6 timer block (R34). -/
def siteCluster (c u : Nat) : Nat := 32 * c + u
/-- Site of region q's fabric and power switch (R34). -/
def siteRegion (q : Nat) : Nat := 128 * q + 7
/-- Site of a spine unit (R35). -/
def siteSpine (q c u : Nat) : Nat := 512 + 128 * q + 32 * c + u
/-- Site of a power-die unit (R36). -/
def sitePower (u : Nat) : Nat := 1024 + u
/-- Site of a store-die unit (R33). -/
def siteStore (u : Nat) : Nat := 1536 + u
/-- Site of a unit of bank b (R37). -/
def siteBank (b q c u : Nat) : Nat := 2048 + 512 * b + 128 * q + 32 * c + u
/-- Site of input n (R37). -/
def siteInput (n : Nat) : Nat := siteBank (n / 32) (n % 2) 0 (n % 32)
/-- Site of element x of output o (R37). -/
def siteElement (o : Nat) (x : AB) : Nat := siteBank (o / 16) x.n 1 (o % 16)
/-- Site of test-pulse source t (R37). -/
def siteSource (t : Nat) : Nat := siteBank (t / 8) (t % 2) 2 (t % 8)
/-- Site of the lane of input n on the coupler die (R37). -/
def siteInputLane (n : Nat) : Nat := siteBank (n / 32) 2 0 (n % 32)
/-- Site of the lane of element x of output o (R37). -/
def siteElementLane (o : Nat) (x : AB) : Nat := siteBank (o / 16) 2 1 (2 * (o % 16) + x.n)

/-- The fields a level gives meaning (R39): the others are written 0. -/
def levelMask (level : Nat) (site : Nat) : Nat :=
  match level with
  | 0 => site
  | 1 => site / 32 * 32
  | 2 => site / 128 * 128
  | 3 => site / 512 * 512
  | 4 => site / 4096 * 4096
  | _ => 0

/-- A valid site address at level 0, M aside (R34 to R38). -/
def unitValid (site : Nat) : Bool :=
  let d := site / 512 % 8
  let q := site / 128 % 4
  let c := site / 32 % 4
  let u := site % 32
  if d = 0 then decide (u ≤ 6) || (u == 7 && c == 0)
  else if d = 1 then
    if q = 0 then
      if c = 0 then decide (u ≤ 8) else if c = 1 then decide (u ≤ 3) else if c = 2 then decide (u ≤ 7) else decide (u ≤ 3)
    else q == 1 && decide (u ≤ 3)
  else if d = 2 then q == 0 && c == 0 && decide (u ≤ 5)
  else if d = 3 then q == 0 && c == 0 && decide (u ≤ 1)
  else if q ≤ 1 then
    if c = 0 then u % 2 == q
    else if c = 1 then decide (u ≤ 15)
    else if c = 2 then decide (u ≤ 7) && u % 2 == q
    else decide (u ≤ 3)
  else if q = 2 then
    if c = 2 then decide (u ≤ 3) else c ≠ 3
  else false

/-- A valid site reference (R38, R39): the fields below the level are ignored. DESIGN CHOICE: at levels 1 and 2 a reference is
valid on every die where its fields lead to some unit: a cluster or a class of units, a region, a half of a bank. -/
def siteValid (site level : Nat) : Bool :=
  match level with
  | 0 => unitValid site
  | 1 => (List.range 32).any (fun u => unitValid (site / 32 * 32 + u))
  | 2 => (List.range 128).any (fun u => unitValid (site / 128 * 128 + u))
  | 3 => true
  | 4 => true
  | 5 => true
  | _ => false

/-- The module address in force: 0 until a configuration is loaded (R40). -/
def State.modAddr (s : State) : Nat := if s.loaded then s.cfg.modAddr.toNat else 0

/-! ### Time -/

/-- TB in ns. -/
def State.now (s : State) : Nat := s.tb.tb.toNat

/-- TB has reached an instant in the sense of R94: it lies at most 2^63 - 1 ns back. -/
def reached (now v : Nat) : Bool := decide ((now + (2 ^ 64 - v % 2 ^ 64)) % 2 ^ 64 < 2 ^ 63)

/-- A time of d ns since t has passed. -/
def State.past (s : State) (t d : Nat) : Bool := reached s.now (t + d)

/-- The time since t in ns. -/
def State.since (s : State) (t : Nat) : Nat := (s.now + (2 ^ 64 - t % 2 ^ 64)) % 2 ^ 64

/-- The timebase advances by one increment of its 96-bit accumulator (R82). -/
def Timebase.tick (t : Timebase) : Timebase :=
  let a := t.tb.toNat * 2 ^ 32 + t.frac.toNat + t.inc.toNat
  { t with tb := BitVec.ofNat 64 (a / 2 ^ 32), frac := BitVec.ofNat 32 a, chanOff := [], hostOff := [] }

/-- One tick of the 32.768 kHz clock: 30,517.578125 ns (R92). -/
def Timebase.lfTick (t : Timebase) : Timebase :=
  let a := t.tb.toNat * 2 ^ 32 + t.frac.toNat + 1000000000 * 2 ^ 17
  { t with tb := BitVec.ofNat 64 (a / 2 ^ 32), frac := BitVec.ofNat 32 a, chanOff := [], hostOff := [] }

/-! ### Calendar (R107 to R109) -/

/-- A leap year (R107). -/
def leapYear (y : Nat) : Bool := (y % 4 == 0 && y % 100 != 0) || y % 400 == 0

/-- The days of a month (R107). -/
def monthDays (y m : Nat) : Nat :=
  match m with
  | 2 => if leapYear y then 29 else 28
  | 4 | 6 | 9 | 11 => 30
  | _ => 31

/-- The days of the years from 1970 up to a year. -/
def daysBefore (y : Nat) : Nat :=
  let p := y - 1
  (p * 365 + p / 4 - p / 100 + p / 400) - 719162

/-- The month and day of a day of a year, both from 1, searching from month m with the given fuel. -/
def monthOf (y m : Nat) : Nat → Nat → Nat × Nat
  | 0, d => (m, d + 1)
  | fuel + 1, d => if d < monthDays y m then (m, d + 1) else monthOf y (m + 1) fuel (d - monthDays y m)

/-- Year, month and day of a day number since 1970-01-01. -/
def civil (day : Nat) : Nat × Nat × Nat :=
  let y0 := 1970 + day / 366
  let pick := (List.range 4).foldl (fun y _ => if daysBefore (y + 1) ≤ day then y + 1 else y) y0
  let (m, d) := monthOf pick 1 11 (day - daysBefore pick)
  (pick, m, d)

/-- UTC in microseconds since 1970 of a TB value and an offset in seconds (R107). -/
def utcMicros (tb : Nat) (ofs : Int) : Int := (tb : Int) / 1000 - ofs * 1000000

/-- The calendar fields of a UTC time, 0 and out of range outside 1970 to 2399 (R107, R109); `leap` shows second 60
of the day before (R108). -/
def calFields (us : Int) (leap : Bool) : Nat × Bool :=
  let shown := if leap then us - 1000000 else us
  if shown < 0 ∨ shown ≥ (daysBefore 2400 : Nat) * 86400000000 then (0, true)
  else
    let t := shown.toNat
    let day := t / 86400000000
    let (y, m, d) := civil day
    let sec := t / 1000000 % 86400
    let secs := if leap then 60 else sec % 60
    (y * 2 ^ 52 + m * 2 ^ 48 + d * 2 ^ 43 + (sec / 3600) * 2 ^ 38 + (sec / 60 % 60) * 2 ^ 32 + secs * 2 ^ 26 +
      (t % 1000000) * 2 ^ 6, false)

/-- Positive leap second in progress: the day it was announced for has ended under the old offset, by less than 1 s. -/
def Timebase.inLeap (t : Timebase) : Bool :=
  let us := utcMicros t.tb.toNat t.utc.toInt
  t.leap61 && decide (((t.leapDay + 1 : Nat) : Int) * 86400000000 ≤ us) &&
    decide (us < ((t.leapDay + 1 : Nat) : Int) * 86400000000 + 1000000)

/-- The calendar word of the present instant (R109). DESIGN CHOICE: out of range the fields of R107 read 0, and the flags
[4] to [1] stay what they are. -/
def State.calendar (s : State) : Dword :=
  let (f, oor) := calFields (utcMicros s.now s.tb.utc.toInt) s.tb.inLeap
  BitVec.ofNat 64 f ||| atBit 64 4 (!s.tb.lock) ||| atBit 64 3 s.tb.unset |||
    atBit 64 2 (decide (s.tb.utcSrc = .none)) ||| atBit 64 1 (s.tb.leap61 || s.tb.leap59) ||| atBit 64 0 oor

/-! ### W1C bits set in the present tick (R9) -/

/-- Bit i of the W1C register at a BAR0 offset sets in the present tick: a write of the same tick leaves it set (R9). -/
def State.mark (s : State) (reg i : Nat) : State := { s with setNow := (32 * reg + i) :: s.setNow }

/-- QP_STAT of queue pair q, which its register shows while QP_SEL names it: its own key for the bits set in this tick. -/
def qpStatKey (q : Nat) : Nat := 0x10000 + q

/-- A bit of MAC_STAT [19:16] of MAC m sets, as R363 numbers them. -/
def State.macEvt (s : State) (m i : Nat) : State :=
  (s.updMac m (fun k => { k with evt := setBit k.evt i true })).mark (0x1410 + 0x40 * m) (16 + i)

/-! ### Interrupts and HIF events (R407, R410) -/

/-- A message can leave: the link is up and the function is in D0. -/
def State.busUp (s : State) : Bool := s.hif.linkUp && !s.hif.d3

/-- A vector is raised: a message where it is unmasked and the bus is up, otherwise its pending bit (R407). -/
def State.raise (s : State) (v : Nat) : State :=
  if s.busUp && !bit s.hif.mask v then s.emit (.msix v)
  else { s with hif := { s.hif with pend := setBit s.hif.pend v true } }

/-- A bit of HIF_EVT sets; vector 0 is raised where the bit was 0 and is enabled (R407). -/
def State.hifEvt (s : State) (i : Nat) : State :=
  let was := bit s.hif.evt i
  let s := { s with hif := { s.hif with evt := setBit s.hif.evt i true } }.mark 0x1004 (16 + i)
  s.when (!was && bit s.hif.evtEn i) (fun s => s.raise 0)

/-! ### Fault records (R406, R529) -/

/-- The parts of a record that a rule names; the rest is the time and the sequence number. -/
structure RecArg where
  src     : Nat
  code    : Nat
  site    : Nat
  level   : Nat := 0
  cell    : Option Nat := none
  related : Nat := 0
  d6      : Word := 0
  d7      : Word := 0
  startup : Bool := false
  recov   : Bool := false
  bd      : Bool := false
deriving DecidableEq, Repr, Inhabited

/-- A fault record is written: the ring keeps 4,096, and FAULT_EVT sets (R40, R406, R410). -/
def State.record (s : State) (a : RecArg) : State :=
  let site := levelMask a.level (a.site + 4096 * s.modAddr)
  let r : FRec :=
    { seq := s.recSeq, cal := s.calendar, tb := s.tb.tb.extractLsb' 0 32, site := BitVec.ofNat 16 site,
      level := BitVec.ofNat 3 a.level, startup := a.startup || !s.loaded, recov := a.recov, acked := false, bd := a.bd,
      src := BitVec.ofNat 8 a.src, code := BitVec.ofNat 8 a.code, cell := a.cell,
      related := BitVec.ofNat 16 (if a.cell.isSome then 0 else a.related), d6 := a.d6, d7 := a.d7 }
  { s with recs := (r :: s.recs).take 4096, recSeq := s.recSeq + 1 }.hifEvt 0

/-- A record of source 0x06: it names the cell, at the site of the engine it runs or last ran on (R406, R529). -/
def State.cellRec (s : State) (code c : Nat) (d6 : Word := 0) (d7 : Word := 0) : State :=
  s.record { src := 6, code := code, site := siteEngine (s.cell c).eng, cell := some c, d6 := d6, d7 := d7 }

/-! ### Change-log entries (R429 to R431) -/

/-- The parts of an entry that a rule names. -/
structure LogArg where
  kind    : Nat
  role    : Nat := 0
  cell    : Option Nat := none
  handle  : Half := 0
  oldSig  : Word := 0
  newSig  : Word := 0
  bankSeq : Word := 0
  site    : Nat := 0
  level   : Nat := 0
  d12     : Word := 0
  d13     : Word := 0
deriving DecidableEq, Repr, Inhabited

/-- An entry as the log writer takes it; sequence number and lost-entry counter are put in when it is programmed. -/
def State.logEntry (s : State) (a : LogArg) : LogE :=
  { kind := BitVec.ofNat 8 a.kind, role := BitVec.ofNat 2 a.role, seq := 0, tb := s.tb.tb, cal := s.calendar,
    cell := a.cell, handle := a.handle, oldSig := a.oldSig, newSig := a.newSig, bankSeq := a.bankSeq, lost := 0,
    site := BitVec.ofNat 16 a.site, level := BitVec.ofNat 3 a.level, d12 := a.d12, d13 := a.d13, read := false }

/-- The log writer takes an entry into its buffer of 512; with the buffer full the entry is dropped, LOGBUF_EVT sets and the
lost-entry counter advances, saturating (R421, R422, R431). -/
def State.log (s : State) (a : LogArg) : State :=
  if s.store.lost then s
  else if s.store.buf.length < 512 then
    { s with store := { s.store with buf := s.store.buf ++ [s.logEntry a] } }
  else
    { s with store := { s.store with lostN := satInc s.store.lostN, evt := setBit s.store.evt 7 true } }.mark 0x1C04 23

/-! ### Units in and out of service (R12, R13, R404) -/

/-- Service state of the unit at a site (M = 0). -/
def State.unit (s : State) (site : Nat) : UnitSvc := Tab.get {} s.units site
/-- A change of the service state of a unit. -/
def State.updUnit (s : State) (site : Nat) (f : UnitSvc → UnitSvc) : State := { s with units := Tab.upd {} s.units site f }
/-- A unit out of service. -/
def State.isOut (s : State) (site : Nat) : Bool := (s.unit site).oos
/-- A unit out of service by itself, or with the half of a bank or the region in which it lies (R13, R20). -/
def State.siteOut (s : State) (site : Nat) : Bool :=
  let d := site / 512 % 8
  let q := site / 128 % 4
  s.isOut site || (d == 0 && s.isOut (siteRegion q)) || (decide (4 ≤ d) && decide (q ≤ 1) && s.isOut (siteBank (d - 4) q 3 3))
/-- A unit taken out of service under a code: its occurrence count advances, saturating. -/
def State.takeOut (s : State) (site code : Nat) : State :=
  s.updUnit site (fun u => { u with oos := true, code := BitVec.ofNat 8 code, count := satInc u.count })
/-- A unit back in service. -/
def State.putBack (s : State) (site : Nat) : State := s.updUnit site (fun u => { u with oos := false })

/-- A region powered and in service. -/
def State.regionUp (s : State) (q : Nat) : Bool := bit s.regions q

/-! ### Timebase: source, steps and lock (R86 to R91) -/

/-- A cell is loaded: some cell is in a state other than UNLOADED and LOADING (R87, R110). -/
def CState.isLoaded : CState → Bool
  | .unloaded => false
  | .loading => false
  | _ => true

/-- Some cell of the module is loaded. -/
def State.anyLoaded (s : State) : Bool := s.cells.any (fun e => e.2.st.isLoaded)

/-- A bit of TB_STAT sets: 0 LOCK_LOST, 1 SRC_CHG, 2 FAR, 3 LATE, 4 BADACT. -/
def State.tbEvt (s : State) (i : Nat) : State := { s with tb := { s.tb with evt := setBit s.tb.evt i true } }.mark 0x0C0C (2 + i)

/-- LOCK takes a value; LOCK_LOST sets when it falls (R90). -/
def State.setLock (s : State) (v : Bool) : State :=
  let was := s.tb.lock
  { s with tb := { s.tb with lock := v } }.when (was && !v) (fun s => s.tbEvt 0)

/-- Source and reference; SRC_CHG sets when either changes (R86). A reference in holdover or host-set counts as locked, and
no longer does once it follows a source; a change between two sources takes LOCK by the measurements alone (R90). DESIGN CHOICE:
the counts of good and bad measurements, and the time without one, begin anew at a change of source or reference. -/
def State.setSource (s : State) (src : BitVec 2) (ref : BitVec 4) (port : BitVec 2) : State :=
  let change := !(s.tb.src == src && s.tb.refAddr == ref)
  let free := decide (s.tb.src.toNat ≥ 2)
  let s := { s with tb := { s.tb with src := src, refAddr := ref, port := port } }
  let s := s.when change (fun s => { s.tbEvt 1 with tb := { (s.tbEvt 1).tb with good := 0, far := 0, measAt := some s.now } })
  if src = 2 ∨ src = 3 then s.setLock true else s.when free (fun s => s.setLock false)

/-- TB steps to a value (R87): the fraction is replaced by a value the spec does not state; UNSET clears (R85). The step adds no
time to the availability count: the instants from which it runs step with TB (R69). -/
def State.stepTb (s : State) (v : Dword) : State :=
  let move := fun (t : Nat) => (t + v.toNat + (2 ^ 64 - s.now)) % 2 ^ 64
  { s with tb := { s.tb with tb := v, frac := Config.stepFrac s.fresh, unset := false }, fresh := s.fresh + 1,
           cells := Tab.mapVal {} (fun x => { x with since := x.since.map move }) s.cells }

/-- INC while slewing: any value within 4.0 ns and the limit of R88, 250 ppm on the reference, 400 ppm elsewhere. -/
def boundInc (ref : Bool) (x : Dword) : Dword :=
  let nominal := 4 * 2 ^ 32
  let d := nominal * (if ref then 250 else 400) / 1000000
  BitVec.ofNat 64 (max (nominal - d) (min (nominal + d) x.toNat))

/-- An offset in ns brought into ±(2^31 - 1) (R91's register TB_OFFSET). -/
def satOffset (x : Int) : Int := max (-(2 ^ 31 - 1)) (min (2 ^ 31 - 1) x)

/-- Lock bookkeeping of one measurement (R90). -/
def State.lockCount (s : State) (off : Int) : State :=
  let good := if off.natAbs ≤ 40 then min 8 (s.tb.good + 1) else 0
  let far := if off.natAbs > 60 then min 2 (s.tb.far + 1) else 0
  let s := { s with tb := { s.tb with good := good, far := far } }
  if far ≥ 2 then s.setLock false else if good ≥ 8 then s.setLock true else s

/-- An offset measurement, own TB minus the source's (R87 to R91): with no cell loaded and more than 1 µs of offset TB
steps, otherwise it slews; above 1 ms with cells loaded FAR sets, and a record is written at the first measurement that finds it
so. -/
def State.measure (s : State) (off : Int) (ref : Bool) : State :=
  let wasFar := s.tb.farNow
  let s := { s with tb := { s.tb with offset := satOffset off, measAt := some s.now,
                                      farNow := s.anyLoaded && decide (off.natAbs > 1000000) } }
  let s := s.lockCount off
  if !s.anyLoaded && decide (off.natAbs > 1000) then s.stepTb (BitVec.ofInt 64 ((s.now : Int) - off))
  else
    let s := { s with tb := { s.tb with inc := boundInc ref (Config.slewInc s.fresh) }, fresh := s.fresh + 1 }
    if s.anyLoaded && decide (off.natAbs > 1000000) then
      (s.tbEvt 2).when (!wasFar) (fun s =>
        s.record { src := 9, code := 2, site := siteSpine 0 0 0, d6 := BitVec.ofInt 32 (satOffset off) })
    else s

/-! ### Outcome -/

/-- A command completes. -/
def done (s : State) : Host.Outcome State Fault Refusal := .next s

end Sys2Proof.Machine
end

