-- ==== Sys2Proof/Machine/Setup.lean ====
section
/-! DEFINITION. The fields of the configuration records: inputs (R120), outputs (R153), test-pulse sources (R154) and
banks (R155), with the checks that a commit makes on them. -/

namespace Sys2Proof.Machine

/-- A time in µs, ms, as ns. -/
def us (n : Nat) : Nat := 1000 * n
/-- A time in ms as ns. -/
def ms (n : Nat) : Nat := 1000000 * n
/-- A time in s as ns. -/
def secs (n : Nat) : Nat := 1000000000 * n

/-! ### Input records (R118 to R120) -/

/-- KIND. -/
def InRec.kind (r : InRec) : Nat := fld r.w0 2 0
/-- SINK: 1 fixed. -/
def InRec.sink (r : InRec) : Bool := bit r.w0 3
/-- SRC. -/
def InRec.src (r : InRec) : Nat := fld r.w0 7 4
/-- WB. -/
def InRec.wb (r : InRec) : Bool := bit r.w0 8
/-- PAIR. -/
def InRec.pair (r : InRec) : Bool := bit r.w0 9
/-- ANTI. -/
def InRec.anti (r : InRec) : Bool := bit r.w0 10
/-- LDLY in ns. -/
def InRec.ldly (r : InRec) : Nat := us (fld r.w0 17 12)
/-- DISC in ns. -/
def InRec.disc (r : InRec) : Nat := ms (fld r.w0 31 18)
/-- FSAFE in ns. -/
def InRec.fsafe (r : InRec) : Nat := 125000 * fld r.w1 7 0
/-- FACT in ns. -/
def InRec.fact (r : InRec) : Nat := 125000 * fld r.w1 15 8
/-- SIG. -/
def InRec.sig (r : InRec) : Nat := fld r.w1 17 16
/-- OW in ns. -/
def InRec.ow (r : InRec) : Nat := us (fld r.w1 28 18)
/-- PMIN in ns. -/
def InRec.pmin (r : InRec) : Nat := ms (fld r.w2 9 0)
/-- PMAX in ns, 0 for not checked. -/
def InRec.pmax (r : InRec) : Nat := ms (fld r.w2 25 10)
/-- MON. -/
def InRec.mon (r : InRec) : Nat := fld r.w2 30 26
/-- MONEN. -/
def InRec.monen (r : InRec) : Bool := bit r.w2 31

/-- The record that input n is read with: an odd input of an evaluated pair takes word 0 [17:9] and word 1 [31:16] from
the even input (R120). -/
def Image.inRec (i : Image) (n : Nat) : InRec :=
  let own := Tab.get {} i.ins n
  let even := Tab.get {} i.ins (n - 1)
  if n % 2 = 1 && even.pair then
    { own with w0 := (own.w0 &&& ~~~(0x3FE00#32)) ||| (even.w0 &&& 0x3FE00#32),
               w1 := (own.w1 &&& 0xFFFF#32) ||| (even.w1 &&& 0xFFFF0000#32) }
  else own

/-- The kind's validity on an input number (R118, R138): OSSD only in a pair, encoder only on IN28 to IN31. That both inputs of
an encoder interface are of kind 5 is a check of the image (`Image.encsOk`). -/
def InRec.kindOk (r : InRec) (n : Nat) (paired : Bool) : Bool :=
  decide (r.kind ≤ 6) && (r.kind != 4 || paired) && (r.kind != 5 || decide (28 ≤ n % 32))

/-- The fields of one input record hold valid values (R120); `e` is the record as read with the even input's fields. -/
def InRec.valid (own e : InRec) (n : Nat) : Bool :=
  let odd := n % 2 == 1
  let k := e.kind
  let filt := k == 1 || k == 6 || (k == 4 && e.sig == 2)
  let ossd := k == 4 && e.sig ≤ 1
  e.kindOk n e.pair &&
  (if k = 2 then decide (e.src ≤ 7) else if k = 3 then true else e.src == 0) &&
  (!e.wb || k == 1 || k == 2) &&
  (if odd && e.pair then fld own.w0 17 9 == 0 && fld own.w1 31 16 == 0 else true) &&
  (!odd || !own.pair) &&
  (!e.anti || e.pair) &&
  !bit e.w0 11 &&
  (decide (fld e.w0 17 12 ≤ 50) && (k == 2 || k == 3 || fld e.w0 17 12 == 0)) &&
  (if e.pair then decide (1 ≤ fld own.w0 31 18) && decide (fld own.w0 31 18 ≤ 5000) else fld own.w0 31 18 == 0) &&
  (if filt then decide (fld e.w1 7 0 ≤ 128) && decide (fld e.w1 15 8 ≤ 128) else fld e.w1 15 0 == 0) &&
  (if k = 4 then decide (e.sig ≤ 2) else e.sig == 0) &&
  (if ossd then decide (20 ≤ fld e.w1 28 18) && decide (fld e.w1 28 18 ≤ 2000) else fld e.w1 28 18 == 0) &&
  fld e.w1 31 29 == 0 &&
  (if ossd then decide (1 ≤ fld e.w2 9 0) && decide (fld e.w2 9 0 ≤ 1000) && decide (fld e.w2 25 10 ≤ 60000)
   else fld e.w2 25 0 == 0) &&
  (k == 5 || (e.mon == 0 && !e.monen))

/-- Encoder kinds come in the combinations of R138: both inputs of an interface, or neither (R118). -/
def Image.encsOk (i : Image) : Bool :=
  (List.range 8).all (fun e =>
    let a := 32 * (e / 2) + 28 + 2 * (e % 2)
    ((i.inRec a).kind == 5) == ((i.inRec (a + 1)).kind == 5))

/-! ### Output and source records (R153 to R155) -/

/-- MODE: 0 unused, 1 safety, 2 standard. -/
def Rec2.mode (r : Rec2) : Nat := fld r.w0 1 0
/-- SAFE of a standard output: 0 off, 1 on, 2 hold. -/
def Rec2.safe (r : Rec2) : Nat := fld r.w0 3 2
/-- DARK. -/
def Rec2.dark (r : Rec2) : Bool := bit r.w0 4
/-- OPW in ns. -/
def Rec2.opw (r : Rec2) : Nat := us (fld r.w0 14 6)
/-- OPP in ns. -/
def Rec2.opp (r : Rec2) : Nat := ms (fld r.w0 24 15)
/-- LIMT in ns. -/
def Rec2.limt (r : Rec2) : Nat := ms (fld r.w0 29 25)
/-- OPOFS or TPOFS in ns. -/
def Rec2.ofs (r : Rec2) : Nat := us (fld r.w1 19 0)
/-- TPW in ns. -/
def Rec2.tpw (r : Rec2) : Nat := us (fld r.w0 10 2)
/-- TPP in ns. -/
def Rec2.tpp (r : Rec2) : Nat := ms (fld r.w0 20 11)

/-- The fields of an output record hold valid values (R153). -/
def Rec2.outValid (r : Rec2) : Bool :=
  let opw := fld r.w0 14 6
  let opp := fld r.w0 24 15
  let limt := fld r.w0 29 25
  !bit r.w0 5 && fld r.w0 31 30 == 0 && fld r.w1 31 20 == 0 &&
  (match r.mode with
   | 0 => fld r.w0 31 2 == 0 && fld r.w1 19 0 == 0
   | 1 => r.safe == 0 && decide (50 ≤ opw) && decide (opw ≤ 500) && decide (1 ≤ opp) && decide (opp ≤ 1000) &&
          opp % 2 == 0 && decide (1 ≤ limt) && decide (limt ≤ 20) && decide (fld r.w1 19 0 < opp * 1000)
   | 2 => decide (r.safe ≤ 2) && !r.dark && opw == 0 && opp == 0 && decide (1 ≤ limt) && decide (limt ≤ 20) &&
          fld r.w1 19 0 == 0
   | _ => false)

/-- The fields of a test-pulse source record hold valid values (R154). -/
def Rec2.tpValid (r : Rec2) : Bool :=
  let w := fld r.w0 10 2
  let p := fld r.w0 20 11
  fld r.w0 31 21 == 0 && fld r.w1 31 20 == 0 &&
  (match r.mode with
   | 1 => decide (50 ≤ w) && decide (w ≤ 500) && decide (1 ≤ p) && decide (p ≤ 1000) && decide (fld r.w1 19 0 < p * 1000)
   | 3 => false
   | _ => w == 0 && p == 0 && fld r.w1 19 0 == 0)

/-- A bank record holds a valid T_SIL (R155). -/
def bankValid (w : Word) : Bool := decide (5 ≤ fld w 9 0) && decide (fld w 9 0 ≤ 1000) && fld w 31 10 == 0

/-- The record of output o. -/
def State.outRec (s : State) (o : Nat) : Rec2 := Tab.get {} s.cfg.outs o
/-- The record of source t. -/
def State.tpRec (s : State) (t : Nat) : Rec2 := Tab.get {} s.cfg.tps t
/-- The record of input n as it is read. -/
def State.inRec (s : State) (n : Nat) : InRec := s.cfg.inRec n
/-- T_SIL of bank b in ns; Phigifel's default of 200 µs where no record is loaded (R155). -/
def State.tSil (s : State) (b : Nat) : Nat :=
  let v := fld (Tab.get 0 s.cfg.banks b) 9 0
  10000 * (if v = 0 then 20 else v)

/-! ### Off-pulse and test-pulse schedules (R122, R157, R160) -/

/-- The place of an instant in a schedule of start S, offset and period: ns since the last nominal start, none before the
first (R157). -/
def State.phaseOf (s : State) (S : Option Nat) (ofs per : Nat) : Option Nat :=
  match S with
  | none => none
  | some a => if per ≠ 0 ∧ reached s.now (a + ofs) = true then some (s.since (a + ofs) % per) else none

/-- An edge due at `after` ns past a nominal start takes effect between 100 ns and 160 ns after its nominal instant (R157). -/
def edgeDue (phase : Option Nat) (after : Nat) : Bool :=
  match phase with
  | none => false
  | some p => decide (after + 100 ≤ p) && decide (p ≤ after + 160)

/-- The window of an off-pulse of width w with line delay d in which an instant lies: its end (R122, R157). -/
def State.inWindow (s : State) (phase : Option Nat) (w d : Nat) : Option Nat :=
  match phase with
  | none => none
  | some p => if 100 ≤ p ∧ p < w + 160 + d then some (s.now - p + w + 160 + d) else none

/-- Unit addresses of bank parts out of service (R13). -/
def State.halfOut (s : State) (b : Nat) (h : AB) : Bool := s.isOut (siteBank b h.n 3 3)
/-- Element x of output o is out of service. -/
def State.elOut (s : State) (o : Nat) (x : AB) : Bool := s.isOut (siteElement o x)

end Sys2Proof.Machine
end

