-- ==== Sys2Proof/Machine/Check.lean ====
section
/-! DEFINITION. Check values: the CRC step of R500, CRC-32C (R194, R217, R414), CRC-16 and CRC-8 users of it, and the
check-value units CVU0 to CVU7 (R498 to R501). -/

namespace Sys2Proof.Machine

/-- One bit of a check value of width w (R500). -/
def crcBit (w poly reg : Nat) (b : Bool) : Nat :=
  let fb := reg.testBit (w - 1) != b
  let sh := reg * 2 % 2 ^ w
  if fb then sh ^^^ (poly % 2 ^ w) else sh

/-- The bits of a byte in folding order: least significant first where reflected (R500). -/
def byteBits (refin : Bool) (b : Byte) : List Bool :=
  let l := (List.range 8).map (fun i => bit b i)
  if refin then l else l.reverse

/-- Bytes folded into a check value (R500). -/
def crcBytes (w poly : Nat) (refin : Bool) (reg : Nat) (bytes : List Byte) : Nat :=
  bytes.foldl (fun r b => (byteBits refin b).foldl (fun r x => crcBit w poly r x) r) reg

/-- A w-bit number with its bits in the other order. -/
def reflect (w x : Nat) : Nat := (List.range w).foldl (fun acc i => if x.testBit i then acc + 2 ^ (w - 1 - i) else acc) 0

/-- The check value that a register shows (R500). -/
def crcValue (w : Nat) (refout : Bool) (reg xor : Nat) : Nat := ((if refout then reflect w reg else reg) ^^^ xor) % 2 ^ w

/-- The register of CRC-32C folded on from a register in normal form. -/
def crc32cFold (reg : Nat) (bytes : List Byte) : Nat := crcBytes 32 0x1EDC6F41 true reg bytes

/-- CRC-32C of bytes in its standard form (R194, R500). -/
def crc32c (bytes : List Byte) : Word := BitVec.ofNat 32 (crcValue 32 true (crc32cFold 0xFFFFFFFF bytes) 0xFFFFFFFF)

/-- CRC-32C of bytes with another initial value, as CVU_INIT would hold it (R341, R429, R500). -/
def crc32cInit (init : Word) (bytes : List Byte) : Word :=
  BitVec.ofNat 32 (crcValue 32 true (crc32cFold init.toNat bytes) 0xFFFFFFFF)

/-! ### Check-value units (R498 to R501) -/

/-- Width of a CVU. -/
def Cvu.w (c : Cvu) : Nat := fld c.ctl 10 6 + 1
/-- SRC. -/
def Cvu.src (c : Cvu) : Nat := fld c.ctl 3 1
/-- BANK. -/
def Cvu.bank (c : Cvu) : Nat := fld c.ctl 5 4
/-- CVU_VAL_n. -/
def Cvu.val (c : Cvu) : Word := BitVec.ofNat 32 (crcValue c.w (bit c.ctl 12) c.reg.toNat c.xor.toNat)

/-- One item folded: the key's four bytes, then the item's bytes; reaching LEN ends the run (R500). -/
def Cvu.item (c : Cvu) (key : Word) (bytes : List Byte) : Cvu :=
  let reg := crcBytes c.w c.poly.toNat (bit c.ctl 11) c.reg.toNat (bytes4 key ++ bytes)
  let cnt := satInc c.cnt
  let fin := c.len != 0 && cnt == c.len
  { c with reg := BitVec.ofNat 32 reg, cnt := cnt, run := !fin, done := c.done || fin,
           evt := if fin then setBit c.evt 0 true else c.evt }

/-- An item of the tick of TB `now`: what the unit held before the first item of the tick is kept, for a read and for a write
of the same tick (R501). -/
def Cvu.take (c : Cvu) (now : Nat) (key : Word) (bytes : List Byte) : Cvu :=
  let c : Cvu := if c.was.any (fun w => w.at_ == now) then c
    else { c with was := some { at_ := now, reg := c.reg, cnt := c.cnt, run := c.run, done := c.done, evt := c.evt }, items := [] }
  { (c.item key bytes) with items := c.items ++ [(key, bytes)] }

/-- The unit without the items of the tick of TB `now`: a write that falls in that tick takes effect before them (R501). -/
def Cvu.before (c : Cvu) (now : Nat) : Cvu :=
  match c.was with
  | some w => if w.at_ = now then { c with reg := w.reg, cnt := w.cnt, run := w.run, done := w.done, evt := w.evt } else c
  | none => c

/-- The items of the tick of TB `now` fold into a run that a write of that tick has started; into no other (R501). -/
def Cvu.after (c : Cvu) (now : Nat) (start : Bool) : Cvu :=
  if start && c.was.any (fun w => w.at_ == now) then
    let l := c.items
    l.foldl (fun c i => if c.run then c.take now i.1 i.2 else c) { c with was := none, items := [] }
  else { c with was := none, items := [] }

/-- A write of CVU_CTL_n: ignored with BADCFG where the value is refused, else it starts a run or stops it (R498). -/
def Cvu.writeCtl (c : Cvu) (v : Word) : Cvu :=
  let wm1 := fld v 10 6
  let src := fld v 3 1
  let lane := fld v 17 13
  if wm1 < 7 || src == 7 || (src == 2 && !bit v 18 && lane != 1 && lane != 3) then { c with evt := setBit c.evt 1 true }
  else
    let c := { c with ctl := v.extractLsb' 0 19 }
    if bit v 0 then { c with reg := BitVec.ofNat 32 (c.init.toNat % 2 ^ (wm1 + 1)), cnt := 0, done := false, run := true }
    else { c with run := false }

/-- A write of one of the eight registers of a CVU by number: 0 CTL, 1 POLY, 2 INIT, 3 XOR, 4 LEN, 5 VAL, 6 CNT, 7 STAT.
Any write to a running CVU stops it (R498); STAT is W1C. -/
def Cvu.writeReg (c : Cvu) (reg : Nat) (v : Word) : Cvu :=
  match reg with
  | 0 => c.writeCtl v
  | 1 => { c with poly := v, run := false }
  | 2 => { c with init := v, run := false }
  | 3 => { c with xor := v, run := false }
  | 4 => { c with len := v, run := false }
  | 7 => { c with evt := c.evt &&& ~~~(v.extractLsb' 16 3), run := false }
  | _ => { c with run := false }

/-- A write of a register of a CVU by number in the tick of TB `now` (R498, R501). -/
def Cvu.write (c : Cvu) (now reg : Nat) (v : Word) : Cvu :=
  let c := (c.before now).writeReg reg v
  c.after now (reg == 0 && c.run)

/-- A check-value unit changes; the W1C bits of its status that it sets are noted (R9). -/
def State.cvuDo (s : State) (n : Nat) (f : Cvu → Cvu) : State :=
  let was := (s.cvu n).evt
  let s := s.updCvu n f
  let now := (s.cvu n).evt
  s.each 3 (fun s i => s.when (bit now i && !bit was i) (fun s => s.mark (0x2C1C + 0x20 * n) (16 + i)))

/-- The bank's lanes deliver items: neither half nor the lane group is out of service (R499). -/
def State.bankStreams (s : State) (b : Nat) : Bool :=
  !s.isOut (siteSpine 1 b 3) && !(s.halfOut b .a && s.halfOut b .b)

/-- An item of a stream goes to every CVU that folds it (R498 to R500). `area` says where a store page lies. -/
def State.cvuItem (s : State) (src bank lane area : Nat) (key : Word) (bytes : List Byte) : State :=
  if s.cvus = [] then s
  else s.each 8 (fun s n =>
    let c := s.cvu n
    let mine := c.run && c.src == src && !s.isOut (siteSpine 0 2 n) &&
      (if src ≤ 2 then c.bank == bank && (bit c.ctl 18 || fld c.ctl 17 13 == lane) && s.bankStreams bank
       else if src = 6 then c.bank == 0 || c.bank == area
       else true)
    s.when mine (fun s => s.cvuDo n (fun c => c.take s.now key bytes)))

/-- The source unit of a stream goes out of service: a run on it stops with SRC_EVT (R499). -/
def State.cvuSourceLost (s : State) (ofSrc : Nat → Nat → Bool) : State :=
  if s.cvus = [] then s
  else s.each 8 (fun s n =>
    let c := s.cvu n
    s.when (c.run && ofSrc c.src c.bank) (fun s => s.cvuDo n (fun c => { c with run := false, evt := setBit c.evt 2 true })))

end Sys2Proof.Machine
end

