-- ==== Sys2Proof/Machine/Ladle.lean ====
section
/-! DEFINITION. The Ladle: the buckets of the five domains, requests, grants, returns, refill and reservations
(R453 to R460). -/

namespace Sys2Proof.Machine

/-- The bucket of domain d: 0 VSYS, 1 to 4 VF0 to VF3. -/
def State.bucket (s : State) (d : Nat) : Bucket := if d = 0 then s.ladle.vsys else Tab.get {} s.ladle.vf (d - 1)

/-- The bucket of a domain replaced. -/
def State.setBucket (s : State) (d : Nat) (b : Bucket) : State :=
  if d = 0 then { s with ladle := { s.ladle with vsys := b } }
  else { s with ladle := { s.ladle with vf := Tab.put {} s.ladle.vf (d - 1) b } }

/-- A bit of LADLE_STAT [19:16] sets: 0 OVER, 1 AUDIT, 2 BADCFG, 3 YIELD. -/
def State.ladleEvt (s : State) (i : Nat) : State :=
  { s with ladle := { s.ladle with evt := setBit s.ladle.evt i true } }.mark 0x2450 (16 + i)

/-- Tokens move from L to H with a grant (R455). -/
def Bucket.grant (b : Bucket) (t : Tok) : Bucket :=
  { b with level := b.level - t.cost, held := b.held + t.cost, grants := b.grants ++ [t] }

/-- Tokens of one grant move from H to S (R456). -/
def Bucket.giveBack (b : Bucket) (site : Nat) : Bucket :=
  match b.grants.find? (fun t => t.site == site) with
  | none => b
  | some t =>
    if t.cost ≤ b.held then { b with held := b.held - t.cost, spent := b.spent + t.cost, grants := b.grants.erase t }
    else b

/-- One whole token moves from S to L; with S at 0 the accumulator is cleared (R456). -/
def Bucket.refill (b : Bucket) : Bucket :=
  if b.spent = 0 ∨ b.acc < 64000 then b
  else
    let sp := b.spent - 1
    { b with spent := sp, level := b.level + 1, acc := if sp = 0 then 0 else b.acc - 64000 }

/-- The refill accumulator in one fabric tick (R456). -/
def Bucket.tick (b : Bucket) : Bucket := if b.spent = 0 then b else { b with acc := b.acc + b.rate }

/-- A request in its place: request order, those of one tick in ascending site address (R455). -/
def Bucket.enqueue (b : Bucket) (t : Tok) : Bucket :=
  { b with queue := b.queue.filter (fun x => decide (x.at_ < t.at_) || (decide (x.at_ = t.at_) && decide (x.site ≤ t.site))) ++
      t :: b.queue.filter (fun x => !(decide (x.at_ < t.at_) || (decide (x.at_ = t.at_) && decide (x.site ≤ t.site)))) }

/-- A request of a site in a domain: granted at once where nothing waits before it and L suffices, or where it costs
nothing (R454, R455). Answers whether it was granted. -/
def State.request (s : State) (d site cost : Nat) : Bool × State :=
  let b := s.bucket d
  let t : Tok := { site := site, cost := cost, at_ := s.now }
  if cost = 0 ∨ (b.queue = [] ∧ (cost : Int) ≤ b.level) then (true, s.setBucket d (b.grant t))
  else (false, s.setBucket d (b.enqueue t))

/-- The request of a region wake: 20 tokens for the site of a region (R34, R454). -/
def Tok.isWake (t : Tok) : Bool := t.site / 512 == 0 && t.site % 32 == 7 && t.cost == 20

/-- A region wake's request waits ahead of every BIST request, behind the wakes before it (R455). -/
def State.requestFirst (s : State) (d site cost : Nat) : Bool × State :=
  let b := s.bucket d
  let t : Tok := { site := site, cost := cost, at_ := s.now }
  let wakes := b.queue.takeWhile Tok.isWake
  if wakes = [] ∧ (cost : Int) ≤ b.level then (true, s.setBucket d (b.grant t))
  else (false, s.setBucket d { b with queue := wakes ++ t :: b.queue.dropWhile Tok.isWake })

/-- The books after the time that a request of this cost waits for: as many tokens as it lacks have moved from S to L (R456). -/
def Bucket.waitFor (b : Bucket) (cost : Nat) : Bucket :=
  let n := min b.spent ((cost : Int) - b.level).toNat
  { b with spent := b.spent - n, level := b.level + n, acc := if n = b.spent ∧ n ≠ 0 then 0 else b.acc }

/-- A domain's books after that time. -/
def State.waitFor (s : State) (d cost : Nat) : State := s.setBucket d ((s.bucket d).waitFor cost)

/-- Tokens of a site's event return (R456). -/
def State.giveBack (s : State) (d site : Nat) : State := s.setBucket d ((s.bucket d).giveBack site)

/-- A waiting request is withdrawn and nothing is booked (R460). -/
def State.withdraw (s : State) (d site : Nat) : State :=
  let b := s.bucket d
  s.setBucket d { b with queue := b.queue.filter (fun t => t.site != site) }

/-- Whether a site holds tokens of a domain. -/
def State.holds (s : State) (d site : Nat) : Bool := (s.bucket d).grants.any (fun t => t.site == site)

/-- The BIST run in progress ends without a result, and its tokens return (R454, R473, R476). -/
def State.endRun (s : State) : State :=
  ({ s with bist := { s.bist with active := false, paused := false, ended := none } }.withdraw 0 (siteSpine 0 0 4)).giveBack 0 (siteSpine 0 0 4)

/-- Foreground work that needs region q abandons a run on it; the run is not counted (R476, R485). -/
def State.abandonRun (s : State) (q : Nat) : State :=
  s.when (s.bist.active && s.bist.region.toNat == q) State.endRun

/-- A bank's standing reservation changes: the old one moves to S, the new one is taken in full even where L becomes
negative (R454, R457). -/
def Bucket.reserve (b : Bucket) (cost : Nat) : Bucket :=
  let old := min b.resv b.held
  { b with held := b.held - old + cost, spent := b.spent + old, level := b.level - cost, resv := cost }

/-- Every holding of one half of a bank moves to S, and its requests are withdrawn (R460). -/
def State.releaseHalf (s : State) (b : Nat) (h : AB) : State :=
  let mine := fun (t : Tok) => t.site / 512 == 4 + b && t.site / 128 % 4 == h.n
  let k := s.bucket (b + 1)
  let s := s.setBucket (b + 1) { k with queue := k.queue.filter (fun t => !mine t) }
  (k.grants.filter mine).foldl (fun s t => s.giveBack (b + 1) t.site) s

/-- The size and rate of a domain change: L changes by the change in B (R460, R462). -/
def Bucket.configure (b : Bucket) (size rate : Nat) : Bucket :=
  { b with size := size, rate := rate, level := b.level + ((size : Int) - b.size) }

/-- The books balance: L + H + S = B (R453). -/
def Bucket.balanced (b : Bucket) : Bool := decide (b.level + b.held + b.spent = b.size)

/-- Cost of an output's load edge in tokens (R462). -/
def State.outCost (s : State) (o : Nat) : Nat := 4 * (Tab.get 60 s.ladle.oc o).toNat
/-- Cost of a test-pulse source edge in tokens (R462). -/
def State.tpCost (s : State) : Nat := 4 * s.ladle.tpc.toNat

/-- Cost of a turn-on of element x of output o (R454). -/
def State.turnOnCost (s : State) (o : Nat) (x : AB) : Nat :=
  match (s.outRec o).mode, x with
  | 2, .b => 1
  | 2, .a => s.outCost o
  | _, .a => 1
  | _, .b => s.outCost o

/-- Largest cost among the scheduled edges of a bank: every edge of a pulsed source and every return of an element of a
safety output after its off-pulse (R454). -/
def State.resvCost (s : State) (b : Nat) : Nat :=
  let tp := (List.range 8).any (fun j => (s.tpRec (8 * b + j)).mode == 1)
  let outs := (List.range 16).filter (fun i => (s.outRec (16 * b + i)).mode == 1)
  outs.foldl (fun m i => max m (max (s.turnOnCost (16 * b + i) .a) (s.turnOnCost (16 * b + i) .b)))
    (if tp then s.tpCost else 0)

end Sys2Proof.Machine
end

