-- ==== Sys2Proof/Machine/Lid.lean ====
section
/-! DEFINITION. Qualified states (R121, R136), the term vector (R189), permits (R291), the trip latches of both Lids
(R195 to R202), the element commands, and `settle`: what the Lids, the permit logics and the pins make of the state
after every command. -/

namespace Sys2Proof.Machine

/-! ### Qualified channels -/

/-- Safe level of a channel: OFF, but ON for channel B of an antivalent pair (R119). -/
def State.safeLevel (s : State) (n : Nat) : Bool :=
  let r := s.inRec n
  n % 2 == 1 && r.pair && r.anti

/-- A latching code that forces its own channel (R143). -/
def ownForcing (code : Byte) : Bool := decide (3 ≤ code.toNat) && decide (code.toNat ≤ 11) && code != 6 && code != 7
/-- A code of the pair, held in the even input (R143). -/
def pairCode (code : Byte) : Bool := code == 1 || code == 2 || code == 6 || code == 7

/-- A latched code forces the channel to its safe direction (R121 step 4, R143), to the end of the tick in which it clears
(R135). -/
def State.forced (s : State) (n : Nat) : Bool :=
  let r := s.inRec n
  ownForcing (s.inp n).code || pairCode (s.inp n).code || (r.pair && pairCode (s.inp (n / 2 * 2)).code) ||
    s.regs.clrNow.contains n

/-- The input is out of service: the Colander receives OFF (R13). -/
def State.inputOut (s : State) (n : Nat) : Bool :=
  s.isOut (siteInput n) || s.halfOut (n / 32) (if n % 2 = 0 then .a else .b) || s.isOut (siteSpine 1 (n / 32) 0) ||
    s.isOut (siteSpine 1 (n / 32) 3)

/-- The qualified state of a channel as presented to the Lids and the process image (R121 step 6, R136). -/
def State.qual (s : State) (n : Nat) : Bool :=
  let r := s.inRec n
  if !s.loaded then s.safeLevel n
  else if r.kind = 0 ∨ r.kind = 5 then false
  else if (s.inp n).hold0 || s.forced n then s.safeLevel n
  else if s.inputOut n then false
  else (s.inp n).q

/-- The channel is active: not in its safe direction (R119). -/
def State.active (s : State) (n : Nat) : Bool := s.qual n != s.safeLevel n

/-- The channel is safe at step 3 of R121, before forcing (R133). -/
def State.safe3 (s : State) (n : Nat) : Bool := (if s.inputOut n then false else (s.inp n).q) == s.safeLevel n

/-- The pair term is ON (R133). -/
def State.pairOn (s : State) (p : Nat) : Bool := decide ((s.pair p).st = .on) && (s.inRec (2 * p)).pair

/-! ### Terms (R189) -/

/-- Term i of the vector is active. -/
def State.term (s : State) (i : Nat) : Bool :=
  if i < 128 then
    let k := (s.inRec i).kind
    k == 0 || k == 5 || !s.active i
  else if i < 192 then !s.pairOn (i - 128)
  else if i < 320 then
    let c := s.ct (i - 192)
    c.b0 || c.b1
  else bit s.lid.im (i - 320)

/-- The lowest active term of a mask. -/
def State.lowestHit (s : State) (m : BitVec 512) : Option Nat :=
  if m = 0 then none else (List.range 512).find? (fun i => bit m i && s.term i)

/-- The outputs with an active masked term. -/
def State.hits (s : State) (masks : Tab (BitVec 512)) : BitVec 64 :=
  masks.foldl (fun acc e => if (s.lowestHit e.2).isSome then setBit acc e.1 true else acc) 0

/-! ### Permits (R291) -/

/-- An owner slot permits: each instance bit in use is 1. -/
def Slot.permits (x : Slot) : Bool := (!x.use0 || x.p0) && (!x.use1 || x.p1) && (x.use0 || x.use1)

/-- The combined permit of output o in the output permit logic of channel x, off while that logic is out of service (R13,
R46, R291). -/
def State.permitOn (s : State) (o : Nat) (x : AB) : Bool :=
  let l := (List.range 4).filterMap (fun i => let y := Tab.get {} (s.perm.of x) (4 * o + i); y.cell.map (fun _ => y.permits))
  l != [] && l.all id && !s.isOut (siteSpine 0 3 (2 + x.n))

/-- The combined permit of output o is on in both output permit logics (R291, R323). -/
def State.combined (s : State) (o : Nat) : Bool := s.permitOn o .a && s.permitOn o .b

/-- The combined permits of all outputs in the output permit logic of channel x. -/
def State.permitVec (s : State) (x : AB) : BitVec 64 :=
  if s.perm.of x = [] then 0
  else (List.range 64).foldl (fun acc o => if s.permitOn o x then setBit acc o true else acc) 0

/-! ### Trip latches (R195 to R201) -/

/-- ARMED latches after a tick: an ARMED latch stays without an active term, a RELEASABLE one arms with the permit on. -/
def nextArmed (arm rel permit hit : BitVec 64) : BitVec 64 := (arm ||| (rel &&& permit)) &&& ~~~hit
/-- RELEASABLE latches after a tick: every latch outside ARMED that sees no active term and the permit off. -/
def nextReleasable (arm permit hit : BitVec 64) : BitVec 64 := ~~~arm &&& ~~~permit &&& ~~~hit

/-- A bit of TRIP_STAT [5:2] sets: 0 DIS, 1 CHK, 2 TRIP, 3 IMP (R204). -/
def State.lidEvt (s : State) (i : Nat) : State := { s with lid := { s.lid with evt := setBit s.lid.evt i true } }.mark 0x2868 (2 + i)

/-- A latch of output o left ARMED: cause, stamp and count (R204). Both latches leaving in one tick count once, and Lid-A's
mask then gives the term. -/
def State.noteTrip (s : State) (o : Nat) (byA : Bool) (dis : Bool) : State :=
  let m := Tab.get 0 (if byA then s.lid.maskA else s.lid.maskB) o
  let c := Tab.get {} s.lid.cause o
  let again := bit s.lid.tripNow o
  let t : BitVec 9 := if dis then 0 else if again && !byA && bit s.lid.tripNowA o then c.term
    else BitVec.ofNat 9 ((s.lowestHit m).getD 0)
  let c' : Cause := { term := t, valid := true, dis := dis, count := if again then c.count else satInc c.count,
                      stamp := s.tb.tb.extractLsb' 0 32 }
  let s := { s with lid := { s.lid with
    cause := Tab.put {} s.lid.cause o c', new := setBit s.lid.new o true, tripNow := setBit s.lid.tripNow o true,
    tripNowA := setBit s.lid.tripNowA o (byA || bit s.lid.tripNowA o) } }
  (s.mark (0x2860 + 4 * (o / 32)) (o % 32)).lidEvt 2

/-- The latches of one Lid that are ARMED. -/
def LidS.armVec (l : LidS) (x : AB) : BitVec 64 := match x with | .a => l.armA | .b => l.armB

/-- A Lid is faulty: its latches are TRIPPED, those that were ARMED noted, and its unit is out of service (R202, R204). -/
def State.lidFaulty (s : State) (x : AB) : State :=
  let left := s.lid.armVec x
  let s := if left = 0 then s else s.each 64 (fun s o => s.when (bit left o) (fun s => s.noteTrip o (decide (x = .a)) false))
  let lid := match x with
    | .a => { s.lid with faultA := true, armA := 0, relA := 0 }
    | .b => { s.lid with faultB := true, armB := 0, relB := 0 }
  let s := { s with lid := lid }.takeOut (siteSpine 0 3 x.n) 3
  s.record { src := 7, code := 3, site := siteSpine 0 3 x.n }

/-- The Lids disagree on output o: both its latches go to TRIPPED; the third time within 1 s, with neither Lid faulty, both are
(R201). -/
def State.disagree (s : State) (o : Nat) : State :=
  let wasArmed := bit s.lid.armA o || bit s.lid.armB o
  let count := !s.lid.faultA && !s.lid.faultB
  let recent := if count then (s.now :: s.lid.disAt).filter (fun t => decide (s.since t < 1000000000)) else s.lid.disAt
  let lid := { s.lid with armA := setBit s.lid.armA o false, relA := setBit s.lid.relA o false,
                          armB := setBit s.lid.armB o false, relB := setBit s.lid.relB o false, disAt := recent }
  let s := { s with lid := lid }.lidEvt 0
  let s := s.when wasArmed (fun s => s.noteTrip o true true)
  let s := s.record { src := 7, code := 1, site := siteSpine 0 3 0, d6 := BitVec.ofNat 32 o }
  s.when (count && decide (recent.length ≥ 3)) (fun s => (s.lidFaulty .a).lidFaulty .b)

/-- One tick of both Lids (R195, R196, R198, R201, R202). A latch that became RELEASABLE in this tick does not arm in it. The
latches of a faulty Lid stay TRIPPED; the comparison then sends the other Lid's latch of every output to TRIPPED as well, with a
record where that latch was ARMED. -/
def State.lidTick (s : State) : State :=
  let permA := s.permitVec .a
  let permB := s.permitVec .b
  let hitA := s.hits s.lid.maskA
  let hitB := s.hits s.lid.maskB
  let l := s.lid
  let one := l.faultA || l.faultB
  let armA := if l.faultA then 0 else nextArmed l.armA (l.relA &&& ~~~l.relNowA) permA hitA
  let relA := if one then 0 else nextReleasable l.armA permA hitA
  let armB := if l.faultB then 0 else nextArmed l.armB (l.relB &&& ~~~l.relNowB) permB hitB
  let relB := if one then 0 else nextReleasable l.armB permB hitB
  let leftA := l.armA &&& ~~~armA
  let leftB := l.armB &&& ~~~armB
  let s := { s with lid := { l with
    armA := armA, relA := relA, armB := armB, relB := relB, relNowA := (l.relNowA ||| (relA &&& ~~~l.relA)) &&& relA,
    relNowB := (l.relNowB ||| (relB &&& ~~~l.relB)) &&& relB } }
  let s := if leftA ||| leftB = 0 then s else
    s.each 64 (fun s o => s.when (bit (leftA ||| leftB) o) (fun s => s.noteTrip o (bit leftA o) false))
  let dis := (armA ^^^ armB) ||| (relA ^^^ relB)
  if dis = 0 then s else s.each 64 (fun s o => s.when (bit dis o) (fun s => s.disagree o))

/-! ### Element commands (R149, R171, R172, R177, R180, R195) -/

/-- A latching output code (R169). -/
def outLatching (code : Byte) : Bool := decide (1 ≤ code.toNat) && decide (code.toNat ≤ 15)

/-- The path of an element's command reaches it: its own lane and the bank's lane group are in service (R41). -/
def State.laneUp (s : State) (o : Nat) (x : AB) : Bool :=
  !s.isOut (siteElementLane o x) && !s.isOut (siteSpine 1 (o / 16) 3)

/-- The half that drives an element lets it conduct: in service, not quiesced, VF within range, the element and its lane in
service and the element not held off by a verdict, a shutdown or a lane fault. -/
def State.drives (s : State) (o : Nat) (x : AB) : Bool :=
  let h := s.half (o / 16) x
  let e := (s.out o).el x
  (s.bank (o / 16)).vf && !s.halfOut (o / 16) x && !h.quiet && !h.vfLow && !h.vfHigh && !s.elOut o x && s.laneUp o x &&
    !e.barred && !e.hot && !e.laneOff

/-- The latch of output o in the Lid of channel x is ARMED. -/
def LidS.armed (l : LidS) (o : Nat) (x : AB) : Bool := match x with | .a => bit l.armA o | .b => bit l.armB o

/-- The command of an element of a safety output: the owners' combined permit in its own permit logic and its Lid's latch, with
no latched code and no re-arm outstanding; off while its half is silent (R41, R171, R177, R195). -/
def State.safetyCmd (s : State) (o : Nat) (x : AB) : Bool :=
  s.permitOn o x && s.lid.armed o x && !outLatching (s.out o).code && !(s.out o).rearm && !(s.half (o / 16) x).silent

/-- A code that switches an element of a standard output off: EXT_HIGH and CROSS_SHORT both, OVERLOAD and THERMAL element A
(R174). THERMAL holds the element whose junction is hot by itself. -/
def stdCodeOff (code : Byte) (x : AB) : Bool :=
  code == 5 || code == 6 || (decide (x = .a) && (code == 7 || code == 8))

/-- The code that an output holds, or one that SIL_EXPIRED replaced, keeps an element of a standard output off (R174, R177). -/
def Output.stdOff (r : Output) (x : AB) : Bool := stdCodeOff r.code x || (r.el x).heldOff

/-- The command of an element of a standard output (R172, R174, R177, R178). -/
def State.standardCmd (s : State) (o : Nat) (x : AB) : Bool :=
  let r := s.out o
  !r.stdOff x && (match (r.el x).keep with
    | some v => v
    | none => match x with
      | .b => true
      | .a => r.level && !r.stdWait)

/-- The command of element x of output o as the core side gives it. Until start-up has completed, every output is off (R465). -/
def State.elCmd (s : State) (o : Nat) (x : AB) : Bool :=
  (decide (s.pwr.phase = .service) || decide (s.pwr.phase = .debugHalt) || s.sys.coreLost) && s.drives o x &&
  (match (s.outRec o).mode with
   | 1 => s.safetyCmd o x
   | 2 => s.standardCmd o x
   | _ => false)

/-- What the half of an element allows on its own: its supervisors, its codes and its silence state (R25, R177, R180). -/
def State.localOn (s : State) (o : Nat) (x : AB) : Bool :=
  s.drives o x &&
  (match (s.outRec o).mode with
   | 1 => !outLatching (s.out o).code && !(s.half (o / 16) x).silent
   | 2 => !(s.out o).stdOff x && ((s.out o).el x).keep != some false
   | _ => false)

/-- The core side of the module drives the lanes: neither its spine nor its clock is lost (R24, R93). -/
def State.coreUp (s : State) : Bool := !s.sys.coreLost && decide (s.pwr.phase ≠ .debugHalt)

/-- The element may go on conducting: its command, or where no core side gives one the state that its half holds, as far as the
half's own supervisors allow (R24, R25, R176). -/
def State.stays (s : State) (o : Nat) (x : AB) : Bool := if s.coreUp then s.elCmd o x else s.localOn o x

/-- An element whose command is off does not conduct, and waits for nothing; an off-pulse is cut, with its verdict still to be
made in this tick (R149, R168). -/
def Element.obey (e : Element) (cmd : Bool) (now : Nat) : Element :=
  if cmd then e
  else { e with on := false, waiting := false, late := false, test := if e.test = .pulse then .none else e.test,
                cutAt := if e.test = .pulse then some now else e.cutAt }

/-- Output o with its elements following their commands; the re-arm of R171 ends once the permit has been seen off. -/
def State.obeyOut (s : State) (o : Nat) (r : Output) : Output :=
  let a := r.a.obey (s.stays o .a) s.now
  let b := r.b.obey (s.stays o .b) s.now
  let went := (r.a.on && !a.on) || (r.b.on && !b.on)
  { r with a := a, b := b, rearm := r.rearm && s.combined o, offAt := if went then s.now else r.offAt }

/-- Tokens of element x of output o go back, and its request is withdrawn, where it has just gone off (R168, R454). -/
def State.ladleOff (s : State) (o : Nat) (x : AB) (was : Element) : State :=
  let site := siteElement o x
  let d := o / 16 + 1
  let s := s.when was.waiting (fun s => s.withdraw d site)
  s.when (was.on && s.holds d site) (fun s => s.giveBack d site)

/-- Every element follows its command (R49, R149, R195): a turn-off is immediate; a turn-on is the command's of its own. -/
def State.obeyAll (s : State) : State :=
  let s' := { s with outs := Tab.mapKV {} (fun o r => s.obeyOut o r) s.outs }
  s.outs.foldl (fun t e =>
    let t := t.when (!(s.stays e.1 .a) && (e.2.a.on || e.2.a.waiting)) (fun t => t.ladleOff e.1 .a e.2.a)
    t.when (!(s.stays e.1 .b) && (e.2.b.on || e.2.b.waiting)) (fun t => t.ladleOff e.1 .b e.2.b)) s'

/-! ### The pins (R27, R72, R73, R465) -/

/-- A unit of the configuration is out of service: an input, output or source that the configuration leaves unused does
not count (R27). -/
def State.configuredOut (s : State) : Bool :=
  s.units.any (fun e => e.2.oos &&
    (let d := e.1 / 512 % 8
     let q := e.1 / 128 % 4
     let c := e.1 / 32 % 4
     let u := e.1 % 32
     if d ≥ 4 && q ≤ 1 && c == 0 then (s.inRec (32 * (d - 4) + u)).kind != 0
     else if d ≥ 4 && q ≤ 1 && c == 1 then (s.outRec (16 * (d - 4) + u)).mode != 0
     else if d ≥ 4 && q ≤ 1 && c == 2 then (s.tpRec (8 * (d - 4) + u)).mode != 0
     else true))

/-- Some cell is in degraded mode (R65). -/
def CellS.degraded (c : CellS) : Bool := c.dEng || c.dRing || c.dNet

/-- A cell of the configuration is not loaded, an engine is halted by debug, a region is under test or an exchange is under way
(R74). -/
def State.reduced (s : State) : Bool :=
  (s.loaded && s.cfg.cells.any (fun e => (s.cell e.1).st == .unloaded)) || s.engs.any (fun e => e.2.dbg) || s.bist.active ||
    (s.ho.step != .idle && s.ho.kind == .exchange)

/-- FAULTN is asserted: before start-up has completed, while a configured unit is out of service, while a cell is in
degraded mode, while the host is silent, while a memory is left unrepaired, and in the cases of R74 (R27, R65, R408, R465,
R479). -/
def State.faultnNow (s : State) : Bool :=
  s.pwr.phase != .service || s.sys.coreLost || s.configuredOut || s.cells.any (fun e => e.2.degraded) || s.hif.silent ||
    s.bist.unrep != 0 || s.reduced

/-- A unit that the spine's supervisors watch reports a fault: the timebase, the clock generator, an output permit logic (R72). -/
def State.spineFault (s : State) : Bool :=
  s.isOut (siteSpine 0 0 0) || s.isOut (siteSpine 0 0 2) || s.isOut (siteSpine 0 3 2) || s.isOut (siteSpine 0 3 3)

/-- The conditions under which SAFE_OK is released: the refresh of both permit logics, and what they send it on (R72, R73). -/
def State.safeOkNow (s : State) : Bool :=
  s.pwr.phase == .service && s.sys.refreshA && s.sys.refreshB && !s.sys.coreLost && !s.lid.faultA && !s.lid.faultB &&
    !s.spineFault && s.regions != 0 && s.pwr.rstn && !s.pwr.dip && !s.pwr.fail

/-- A bit of SYS_STAT [19:16] sets: 0 SAFEOK, 1 FAULT, 2 RUN, 3 LOCKWR (R495). -/
def State.sysEvt (s : State) (i : Nat) : State := { s with sys := { s.sys with evt := setBit s.sys.evt i true } }.mark 0x000C (16 + i)

/-- The pins follow their conditions; SAFEOK_EVT sets at a fall of SAFE_OK, FAULT_EVT when FAULTN becomes asserted after
start-up (R495). -/
def State.pins (s : State) : State :=
  let ok := s.safeOkNow
  let f := s.faultnNow
  let t := { s with sys := { s.sys with safeOk := ok, faultn := f } }
  let t := t.when (s.sys.safeOk && !ok) (fun t => t.sysEvt 0)
  t.when (!s.sys.faultn && f && s.pwr.phase == .service) (fun t => t.sysEvt 1)

/-- What the fabric makes of the state a command leaves: both Lids, then every element's command, then the pins. Without the
core side the field halves act on their own supervisors alone (R25). -/
def State.settle (s : State) : State :=
  if s.coreUp && decide (s.pwr.phase = .service) then s.lidTick.obeyAll.pins else s.obeyAll.pins

/-- A command that acts on terms, permits, outputs or supplies completes. -/
def doneSettled (s : State) : Host.Outcome State Fault Refusal := .next s.settle

end Sys2Proof.Machine
end

