-- ==== Sys2Proof/Machine/Colander.lean ====
section
/-! DEFINITION. The Colander's operations: diagnostic codes and their clearing (R143), the pair machine (R133), the
filters (R130), the OSSD signatures (R128, R129), wetting (R115), capture queues (R142) and encoder faults (R141). -/

namespace Sys2Proof.Machine

/-! ### Codes (R143) -/

/-- The Colander receives OFF for an input (R13): no hold, filter or window check of it goes on. -/
def State.cutInput (s : State) (n : Nat) : State :=
  s.updInp n (fun i => { i with raw := false, q := false, held := false, filter := none, ossd := none, onSince := none })

/-- An input takes a new code: the bit of IN_NEWDIAG, the occurrence count and a record, which `quiet` leaves to a larger scope
(R143, R183, R406). The code it already holds is not new, and an unused input raises none (R118). SINK_FAULT is a fault of the
input unit, which goes out of service (R12, R13). -/
def State.raiseIn (s : State) (n : Nat) (code : Nat) (related : Nat := 0) (d6 : Word := 0) (quiet : Bool := false) : State :=
  if (s.inp n).code.toNat = code || (s.inRec n).kind == 0 then s
  else
    let s := s.updInp n (fun i => { i with code := BitVec.ofNat 8 code, count := satInc i.count, armClr := false })
    let s := { s with regs := { s.regs with inNew := setBit s.regs.inNew n true } }.mark (0x3030 + 4 * (n / 32)) (n % 32)
    let s := s.when (code == 9) (fun s => (s.takeOut (siteInput n) 9).cutInput n)
    s.when (!quiet) (fun s => s.record { src := 1, code := code, site := siteInput n, related := related, d6 := d6 })

/-- An input's code clears; the channel stays in its safe direction to the end of the tick (R135). -/
def State.clearIn (s : State) (n : Nat) : State :=
  let s := s.updInp n (fun i => { i with code := 0, armClr := false })
  { s with regs := { s.regs with clrNow := n :: s.regs.clrNow } }

/-- The first part of a clearing event and, where the channel is safe, its second part, for the codes that clear on
"then channel safe" (R143): LANE_CHECK after 8 good words, HALF_DOWN after the half is back, VF_LOW after VF is. For
TP_MISSING and CROSS_SHORT a safe channel is the first part; the correct own pulse follows. -/
def State.clearScan (s : State) (n : Nat) : State :=
  let i := s.inp n
  let b := n / 32
  let h : AB := if n % 2 = 0 then .a else .b
  let safe := s.safe3 n
  if i.code = 8 then s.when (safe && decide (i.laneGood ≥ 8) && !s.inputOut n) (fun s => s.clearIn n)
  else if i.code = 10 then s.when (safe && !s.halfOut b h) (fun s => s.clearIn n)
  else if i.code = 11 then
    let low := fun (x : AB) => (s.half b x).vfLow || (s.half b x).vfHigh
    s.when (safe && !low .a && !low .b && (s.bank b).vf) (fun s => s.clearIn n)
  else if i.code = 3 then
    s.when (safe && (s.tp (8 * b + (s.inRec n).src)).code == 0) (fun s => s.updInp n (fun i => { i with armClr := true }))
  else if i.code = 4 then s.when safe (fun s => s.updInp n (fun i => { i with armClr := true }))
  else s

/-- Both channels safe together, before forcing: the pair's codes clear; DISC_ON and DISC_OFF of a pair in FAULT clear with its
exit (R133, R143). -/
def State.clearPairCode (s : State) (p : Nat) : State :=
  let c := (s.inp (2 * p)).code
  s.when (pairCode c && ((s.pair p).st != .fault || c == 6 || c == 7) && s.safe3 (2 * p) && s.safe3 (2 * p + 1))
    (fun s => s.clearIn (2 * p))

/-! ### The pair machine (R133) -/

/-- The discrepancy timer of a pair has expired: DISC since its start instant. -/
def State.discDue (s : State) (p : Nat) : Bool :=
  match (s.pair p).start with
  | none => false
  | some t => s.past t (s.inRec (2 * p)).disc

/-- The pair goes to FAULT with its code (R133). -/
def State.pairFault (s : State) (p : Nat) (code : Nat) : State :=
  (s.updPair p (fun r => { r with st := .fault, start := none })).raiseIn (2 * p) code

/-- One evaluation of a pair with PAIR = 1 on the channels' present states (R121 step 5, R133, R135: an expiry in the
same tick wins). -/
def State.evalPair (s : State) (p : Nat) : State :=
  if !(s.inRec (2 * p)).pair then s
  else
    let a := s.active (2 * p)
    let b := s.active (2 * p + 1)
    let r := s.pair p
    let go := fun (st : PairSt) (start : Option Nat) (first : AB) =>
      s.updPair p (fun r => { r with st := st, start := start, first := first })
    match r.st with
    | .off =>
      if a && b then go .on none r.first
      else if a then go .waitOn (some s.now) .a
      else if b then go .waitOn (some s.now) .b
      else s
    | .waitOn =>
      if s.discDue p then s.pairFault p 1
      else
        let mine := match r.first with | .a => a | .b => b
        let other := match r.first with | .a => b | .b => a
        if mine && other then go .on none r.first
        else if mine then s
        else if other then go .waitOn (some s.now) r.first.other
        else go .off none r.first
    | .on =>
      if a && b then s
      else if a || b then go .waitOff (some s.now) r.first
      else go .off none r.first
    | .waitOff =>
      if s.discDue p then s.pairFault p 2
      else if !a && !b then go .off none r.first
      else s
    | .fault =>
      if s.safe3 (2 * p) && s.safe3 (2 * p + 1) && !ownForcing (s.inp (2 * p)).code && !ownForcing (s.inp (2 * p + 1)).code
      then
        let s := s.updPair p (fun r => { r with st := .off, start := none })
        s.when (pairCode (s.inp (2 * p)).code) (fun s => s.clearIn (2 * p))
      else s

/-- Codes that this tick clears, then the pair's evaluation; the cleared code is seen first (R135). -/
def State.requalify (s : State) (p : Nat) : State :=
  let s := (s.clearScan (2 * p)).clearScan (2 * p + 1)
  let s := s.when (s.inRec (2 * p)).pair (fun s => s.clearPairCode p)
  s.evalPair p

/-! ### Encoder interfaces (R138 to R142) -/

/-- Input A of interface e. -/
def encInputA (e : Nat) : Nat := 32 * (e / 2) + 28 + 2 * (e % 2)

/-- The interface is active: both its inputs are of kind 5 (R138). -/
def State.encActive (s : State) (e : Nat) : Bool :=
  (s.inRec (encInputA e)).kind == 5 && (s.inRec (encInputA e + 1)).kind == 5

/-- An encoder fault: its flag sets, VALID drops, and the input takes the code (R141, R143). Bits: 0 PLAUS, 1 RATE,
2 SUPPLY. The flag that the axis sees is not the W1C bit (R10). -/
def State.encFault (s : State) (e bitNo : Nat) (n : Nat) : State :=
  let s := s.updEnc e (fun r => { r with valid := false, evt := setBit r.evt bitNo true, flt := setBit r.flt bitNo true,
                                         rearm := false, seen := 0 })
  (s.mark (0x30C8 + 16 * e) (2 + bitNo)).raiseIn n (12 + bitNo)

/-- An event for capture queue e: stamped and queued, or discarded with CAP_OVF when 4 entries wait (R142). -/
def State.capture (s : State) (e kind : Nat) : State :=
  let r := s.enc e
  if r.queue.length < 4 then
    s.updEnc e (fun r => { r with queue := r.queue ++ [{ stamp := s.tb.tb, count := r.count, kind := BitVec.ofNat 3 kind }] })
  else ((s.updEnc e (fun r => { r with evt := setBit r.evt 3 true })).mark (0x30C8 + 16 * e) 5).raiseIn (encInputA e) 15

/-- The supply monitors that name an input: their interfaces raise ENC_SUPPLY while it is qualified OFF (R118, R141). MON and
MONEN stand in both records of kind 5 of an interface; DESIGN CHOICE: those of input A count, and input A takes ENC_SUPPLY and
CAP_OVF. -/
def State.supplyCheck (s : State) (n : Nat) : State :=
  if (s.inRec n).kind ≠ 6 || s.qual n then s
  else s.each 8 (fun s e =>
    let r := s.inRec (encInputA e)
    s.when (s.encActive e && decide (e / 2 = n / 32) && r.monen && r.mon == n % 32 && !bit (s.enc e).flt 2)
      (fun s => s.encFault e 2 (encInputA e)))

/-- Interface e is taken out of use and re-armed by its owner: its faults and the codes of R143 that they left on its inputs are
gone, and a supply monitor that is still OFF raises ENC_SUPPLY anew (R141, R143). -/
def State.rearmEnc (s : State) (e : Nat) : State :=
  let a := encInputA e
  let off := fun (s : State) (n : Nat) =>
    s.when (decide (12 ≤ (s.inp n).code.toNat) && decide ((s.inp n).code.toNat ≤ 14)) (fun s => s.clearIn n)
  let s := s.updEnc e (fun r => { r with rearm := true, seen := 0, flt := 0 })
  (off (off s a) (a + 1)).supplyCheck (32 * (e / 2) + (s.inRec a).mon)

/-- The capture of a latch input's raw edge (R142). -/
def State.latchCapture (s : State) (n : Nat) (level : Bool) : State :=
  if (s.inRec n).kind ≠ 1 then s
  else s.each 8 (fun s e =>
    let c := Tab.get {} s.cfg.caps e
    s.when (s.encActive e && decide (e / 2 = n / 32) && bit c.events 4 && c.latch == some n && c.rising == level)
      (fun s => s.capture e 4))

/-- After a change of channel n's qualified state: clearing, pair, supply monitor. -/
def State.afterQual (s : State) (n : Nat) : State := (s.requalify (n / 2)).supplyCheck n

/-! ### Wetting (R113, R115, R116) -/

/-- The wetting queue of a half, numbered 2b + half. -/
def State.wetQ (s : State) (h : Nat) : Wetting := Tab.get {} s.wets h
/-- Change of a wetting queue. -/
def State.updWetQ (s : State) (h : Nat) (f : Wetting → Wetting) : State := { s with wets := Tab.upd {} s.wets h f }
/-- The half's wetting queue of input n. -/
def wetOf (n : Nat) : Nat := 2 * (n / 32) + n % 2

/-- A list of inputs with one put in in ascending order (R115). -/
def insertAsc (n : Nat) : List Nat → List Nat
  | [] => [n]
  | x :: xs => if n < x then n :: x :: xs else if n = x then x :: xs else x :: insertAsc n xs

/-- A change of raw level of an input that wets: the change drops a waiting request of the input wherever it falls, and makes a
request for the wetting current where no own window masks it, served one input at a time in each half (R115). Encoders and
supply monitors keep the hold current (R116), a fixed sink wets at all times (R113). DESIGN CHOICE: the change that drops a
request makes none, a change of the input being wetted makes none, and an unused input never wets. -/
def State.wettingEdge (s : State) (n : Nat) : State :=
  let r := s.inRec n
  if r.kind == 0 || r.kind == 5 || r.kind == 6 || r.sink then s
  else
    let h := wetOf n
    let q := s.wetQ h
    if q.waiting.contains n then s.updWetQ h (fun q => { q with waiting := q.waiting.filter (· != n) })
    else if (s.inp n).inWin ∨ q.now = some n then s
    else if q.now = none then (s.updWetQ h (fun q => { q with now := some n, at_ := s.now })).updInp n (fun i => { i with wet := true })
    else s.updWetQ h (fun q => { q with waiting := insertAsc n q.waiting })

/-! ### Qualification by kind (R121 step 3) -/

/-- Filtered kinds: 1, 6, and 4 with SIG 2 (R130). -/
def InRec.filtered (r : InRec) : Bool := r.kind == 1 || r.kind == 6 || (r.kind == 4 && r.sig == 2)
/-- Windowed kinds: 2 and 3 (R124). -/
def InRec.windowed (r : InRec) : Bool := r.kind == 2 || r.kind == 3
/-- Kind 4 with SIG 0 or 1 (R128). -/
def InRec.ossd (r : InRec) : Bool := r.kind == 4 && decide (r.sig ≤ 1)

/-- The filter a channel's level must outlast: FSAFE towards its safe direction, FACT otherwise; FACT while it is held
after loading (R130, R136). -/
def State.filterTime (s : State) (n : Nat) (level : Bool) : Nat :=
  let r := s.inRec n
  if (s.inp n).hold0 then r.fact else if level = s.safeLevel n then r.fsafe else r.fact

/-- A kind-3 channel is released from its hold after one complete off-pulse period of the output that feeds it (R136). -/
def State.fedRelease (s : State) (n : Nat) : State :=
  let r := s.inRec n
  let i := s.inp n
  match i.filter with
  | none => s
  | some t =>
    if r.kind = 3 && i.hold0 && s.past t (s.outRec (16 * (n / 32) + r.src)).opp then
      s.updInp n (fun i => { i with hold0 := false, filter := none, q := if i.inWin then i.held else i.raw })
    else s

/-- A filter has run its time: the level is accepted, and a hold after loading ends (R130, R136). -/
def State.acceptFilter (s : State) (n : Nat) : State :=
  s.updInp n (fun i => { i with q := i.raw, filter := none, hold0 := false })

/-- A level change of a filtered channel (R130). -/
def State.filterEdge (s : State) (n : Nat) (level : Bool) : State :=
  let i := s.inp n
  if level = i.q ∧ !i.hold0 then s.updInp n (fun i => { i with filter := none })
  else if s.filterTime n level = 0 then s.acceptFilter n
  else s.updInp n (fun i => { i with filter := some s.now })

/-- The own window of channel n that is open at this instant by the schedule: its end (R122, R157). For kind 3 the off-pulses of
both elements of the feeding output count. -/
def State.winOpen (s : State) (n : Nat) : Option Nat :=
  let r := s.inRec n
  let S := (s.bank (n / 32)).sched
  if r.kind = 2 then
    let t := s.tpRec (8 * (n / 32) + r.src)
    if t.mode = 1 then s.inWindow (s.phaseOf S t.ofs t.tpp) t.tpw r.ldly else none
  else if r.kind = 3 then
    let o := s.outRec (16 * (n / 32) + r.src)
    if o.mode = 1 then
      match s.inWindow (s.phaseOf S o.ofs o.opp) o.opw r.ldly with
      | some e => some e
      | none => s.inWindow (s.phaseOf S (o.ofs + o.opp / 2) o.opp) o.opw r.ldly
    else none
  else none

/-- A window that the schedule opens begins: the level qualified in the previous tick is held (R122, R124, R135). -/
def State.startWindow (s : State) (n : Nat) : State :=
  match s.winOpen n with
  | none => s
  | some e =>
    if (s.inp n).inWin then s
    else s.updInp n (fun i => { i with inWin := true, winEnd := e, held := i.q, dropSeen := !i.raw })

/-- An own window that has reached its end is over (R124): a kind-2 channel held ON without a drop is TP_MISSING; the channel
follows the raw level; a correct own pulse ends the hold after loading (R136) and the second part of the clearing events of
TP_MISSING and CROSS_SHORT (R143). -/
def State.endWindow (s : State) (n : Nat) : State :=
  let i := s.inp n
  let r := s.inRec n
  if !i.inWin || !s.past i.winEnd 0 then s
  else
    let missing := r.kind == 2 && i.held && !i.dropSeen
    let correct := r.kind == 2 && i.held && i.dropSeen && i.raw
    let s := s.when missing (fun s => s.raiseIn n 3)
    let s := s.updInp n (fun i => { i with inWin := false, q := i.raw, hold0 := i.hold0 && !correct })
    let c := s.inp n
    let s := s.when (correct && c.armClr && (c.code == 3 || (c.code == 4 && !c.crossed))) (fun s => s.clearIn n)
    (s.updInp n (fun i => { i with crossed := false })).fedRelease n

/-- A level change of a windowed channel: inside its own window the level is held (R124). -/
def State.windowEdge (s : State) (n : Nat) (level : Bool) : State :=
  s.updInp n (fun i =>
    if i.inWin then { i with dropSeen := i.dropSeen || !level }
    else { i with q := level, dropAt := if level then i.dropAt else some s.now })

/-- An OSSD channel really drops: OFF, with no hold left. -/
def State.ossdOff (s : State) (n : Nat) : State :=
  s.updInp n (fun i => { i with q := false, ossd := none, onSince := none })

/-- The start of a drop lies less than PMIN after the channel's last counted test; not checked while the pair is OFF
(R129). -/
def State.ossdTooSoon (s : State) (n : Nat) : Bool :=
  (s.pair (n / 2)).st != .off &&
  match (s.inp n).lastTest with
  | none => false
  | some t => decide (s.since t < (s.inRec n).pmin)

/-- A drop of one OSSD channel that its signature holds; one that comes too soon is real at once (R128, R129). -/
def State.ossdHold (s : State) (n : Nat) : State :=
  if s.ossdTooSoon n then s.ossdOff n else s.updInp n (fun i => { i with ossd := some s.now })

/-- A held drop has reached OW (R128). -/
def State.ossdDue (s : State) (n : Nat) : Bool :=
  match (s.inp n).ossd with
  | none => false
  | some t => s.past t (s.inRec n).ow

/-- An OSSD channel comes ON: a held drop within OW counts as a test, one that has reached OW is real (R128, R135). Under
the synchronous signature it counts for both channels, once both are ON again. -/
def State.ossdOn (s : State) (n : Nat) : State :=
  let m := n / 2 * 2 + (1 - n % 2)
  match (s.inp n).ossd with
  | some t =>
    if s.ossdDue n then
      let s := (s.ossdOff n).afterQual n
      s.updInp n (fun i => { i with q := true, onSince := some s.now })
    else if (s.inRec n).sig = 0 then s.updInp n (fun i => { i with ossd := none, lastTest := some t })
    else if (s.inp m).ossd.isSome || !(s.inp m).q then s.updInp n (fun i => { i with ossd := none })
    else
      (s.updInp n (fun i => { i with ossd := none, lastTest := some t })).updInp m (fun i => { i with lastTest := some t })
  | none => s.updInp n (fun i => { i with q := true, onSince := some s.now })

/-- A drop of channel n of an OSSD pair whose other channel is m, by the signature; `both` where both drop in this tick (R128).
Any drop that starts less than PMIN after the channel's last counted test is OSSD_RATE (R129). -/
def State.ossdDrop (s : State) (n m : Nat) (both : Bool) : State :=
  if !(s.inp n).q then s
  else
    let soon := s.ossdTooSoon n
    let s :=
      if (s.inRec n).sig = 0 then
        if both || !(s.inp m).q || (s.inp m).ossd.isSome then
          (s.ossdOff n).when (s.inp m).ossd.isSome (fun s => s.ossdOff m)
        else s.ossdHold n
      else if both then s.ossdHold n
      else s.ossdOff n
    s.when soon (fun s => s.raiseIn (n / 2 * 2) 7 (d6 := BitVec.ofNat 32 (n % 2)))

/-- One level change of channel n at step 1 of R121; `both` where the other channel of its pair drops with it. The Colander
receives OFF for an input that is out of service (R13). An edge in the start or the end tick of an own window finds the window
begun or over (R135). -/
def State.rawEdge (s : State) (n : Nat) (level both : Bool) : State :=
  let s := s.updInp n (fun i => { i with line := level })
  if (s.inp n).raw = level ∨ s.inputOut n then s
  else
    let r := s.inRec n
    let s := if r.windowed then (s.endWindow n).startWindow n else s
    let s := s.updInp n (fun i => { i with raw := level, edgeAt := s.now })
    let s := (s.wettingEdge n).latchCapture n level
    let m := n / 2 * 2 + (1 - n % 2)
    if r.filtered then s.filterEdge n level
    else if r.windowed then s.windowEdge n level
    else if r.ossd then (if level then s.ossdOn n else s.ossdDrop n m both)
    else s

/-- An input is back in service: the Colander receives its lane's level again (R13). -/
def State.resumeInput (s : State) (n : Nat) : State := (s.rawEdge n (s.inp n).line false).afterQual n

/-! ### The state of an input after loading (R136) -/

/-- Input n as loading leaves it: held in its safe direction, its filter running where its kind has one, a fixed sink at the
wetting current (R113). An input out of service shows the code of its unit, HALF_DOWN where its half is out (R13); DESIGN CHOICE:
LANE_CHECK where its Colander slice or lane group is out. -/
def State.loadInput (s : State) (n : Nat) : State :=
  let r := s.inRec n
  let level := !s.inputOut n && (s.inp n).line
  let fixed := r.sink && r.kind != 0 && r.kind != 5 && r.kind != 6
  let s := s.updInp n (fun i =>
    { i with raw := level, hold0 := !(r.filtered && r.fact == 0),
             q := if r.windowed || r.ossd || (r.filtered && r.fact == 0) then level else s.safeLevel n,
             filter := if r.filtered || r.kind == 3 then some s.now else none, ossd := none, lastTest := none,
             onSince := if r.ossd && level then some s.now else none, inWin := false, held := false, dropSeen := false,
             dropAt := none, crossed := false, armClr := false, wet := fixed })
  if s.isOut (siteInput n) then s.raiseIn n (s.unit (siteInput n)).code.toNat (quiet := true)
  else if s.halfOut (n / 32) (if n % 2 = 0 then .a else .b) then s.raiseIn n 10 (quiet := true)
  else if s.inputOut n then s.raiseIn n 8 (quiet := true)
  else s

/-- Pair p as loading leaves it: OFF (R136). -/
def State.loadPair (s : State) (p : Nat) : State :=
  s.updPair p (fun _ => {})

/-- The input records of a pair are replaced (R137): levels, pair state and codes stay; an input that had no kind begins as loading
leaves it (R118). -/
def State.putInputs (s : State) (p : Nat) (e o : InRec) : State :=
  let fresh := [2 * p, 2 * p + 1].filter (fun n => (s.inRec n).kind == 0)
  let s := { s with cfg := { s.cfg with ins := Tab.put {} (Tab.put {} s.cfg.ins (2 * p) e) (2 * p + 1) o } }
  (fresh.foldl (fun s n => if (s.inRec n).kind = 0 then s else s.loadInput n) s).afterQual (2 * p)

end Sys2Proof.Machine
end

