-- ==== Sys2Proof/Machine/FieldOps.lean ====
section
/-! DEFINITION. Operations of the field dies: output codes and verdicts (R162 to R174), test-pulse sources (R156 to
R159), silence (R175 to R179) and supply loss (R180 to R182). -/

namespace Sys2Proof.Machine

/-! ### Output codes (R169) -/

/-- A code that an output does not take over the one it holds: the same code, EXT_HIGH over CROSS_SHORT, STD_MISMATCH over
a latching code (R169). -/
def codeRefused (old new : Nat) : Bool :=
  old == new || (new == 5 && old == 6) || (new == 16 && decide (1 ≤ old) && decide (old ≤ 15))

/-- The elements a code takes out of service (R169): `x` is the tested element of a TEST_FAIL. -/
def codeElements (code : Nat) (x : AB) : List AB :=
  match code with
  | 1 => [.a] | 2 => [.b] | 3 => [.a] | 4 => [.b] | 9 => [x] | 10 => [.a, .b] | _ => []

/-- An output takes a code: OUT_NEWDIAG, the occurrence count, a record flagged by phase, which `quiet` leaves to a larger
scope, and the elements it names out of service (R169, R183). The second for which EXT_HIGH and CROSS_SHORT watch the ball
begins anew. -/
def State.raiseOut (s : State) (o code : Nat) (x : AB := .a) (related : Nat := 0) (startup : Bool := false) (quiet : Bool := false) :
    State :=
  let r := s.out o
  if codeRefused r.code.toNat code then s
  else
    let inRecovery := r.recov && (match r.recovAt with | none => true | some t => !(s.past t (s.outRec o).opp))
    let s := s.updOut o (fun r => { r with
      code := BitVec.ofNat 8 code, count := satInc r.count, verA := none, verB := none,
      lowAt := if code = 5 ∨ code = 6 then none else r.lowAt })
    let s := { s with regs := { s.regs with outNew := setBit s.regs.outNew o true } }.mark (0x31F0 + 4 * (o / 16)) (o % 16)
    let site := siteElement o (if code = 2 ∨ code = 4 then .b else if code = 9 ∨ code = 8 ∨ code = 11 then x else .a)
    let s := s.when (!quiet) (fun s =>
      s.record { src := 2, code := code, site := site, related := related, startup := startup, recov := inRecovery })
    (codeElements code x).foldl (fun s y => s.takeOut (siteElement o y) code) s

/-- An output's code clears: a safety output has its permit to be seen off first (R171); element A of a standard output waits for
a write that names it (R174). SIL_EXPIRED leaves an element that its half did not put into its silence state under its command,
but for one that an earlier code held off (R177, R178). -/
def State.clearOut (s : State) (o : Nat) : State :=
  let std := (s.outRec o).mode == 2
  s.updOut o (fun r =>
    { r with code := 0, partner := none, rearm := if std then r.rearm else true,
             stdWait := if std then r.stdWait || r.code != 12 || r.a.heldOff else r.stdWait,
             a := { r.a with barred := false, heldOff := false }, b := { r.b with barred := false, heldOff := false } })

/-- An output is in its recovery phase from here (R183). -/
def State.recover (s : State) (o : Nat) : State := s.updOut o (fun r => { r with recov := true, recovAt := none })

/-- The outputs of a bank. -/
def bankOutputs (b : Nat) : List Nat := (List.range 16).map (fun i => 16 * b + i)
/-- The inputs of a bank. -/
def bankInputs (b : Nat) : List Nat := (List.range 32).map (fun i => 32 * b + i)
/-- The sources of a bank. -/
def bankSources (b : Nat) : List Nat := (List.range 8).map (fun i => 8 * b + i)

/-- The output conducts: both elements on. -/
def Output.conducts (r : Output) : Bool := r.a.on && r.b.on
/-- Both elements are off. -/
def Output.dark (r : Output) : Bool := !r.a.on && !r.b.on

/-- What a half reads of an output is kept; the ball has been low since an instant while both elements are off and both halves
read it low: an undefined level is not low (R146, R169). -/
def State.noteReading (s : State) (o : Nat) (h : AB) (r : Reading) : State :=
  s.updOut o (fun u =>
    let u := match h with
      | .a => { u with rbA := r.ball, nA := r.n }
      | .b => { u with rbB := r.ball, nB := r.n }
    let low := u.dark && u.rbA == Lvl.low && u.rbB == Lvl.low
    { u with lowAt := if low then some (u.lowAt.getD s.now) else none })

/-- Both halves' readings are kept. -/
def State.noteReadings (s : State) (o : Nat) (ra rb : Reading) : State := (s.noteReading o .a ra).noteReading o .b rb

/-! ### Test-pulse sources (R156 to R159) -/

/-- The half of a source. -/
def sourceHalf (t : Nat) : AB := if t % 2 = 0 then .a else .b

/-- A source is commanded on: steady, or pulsed with a running schedule of its half and outside its off-pulse, from the period
at which it resumes; never while a code holds it low, but for the on-reading that follows a unit reset (R154, R157, R159, R179,
R180, R182). -/
def State.tpOn (s : State) (t : Nat) : Bool :=
  let r := s.tpRec t
  let u := s.tp t
  let h := s.half (t / 8) (sourceHalf t)
  s.loaded && (r.mode == 2 || (r.mode == 1 && h.sched.isSome && !u.pulse)) && (u.code == 0 || (u.code == 2 && u.armClr)) &&
    (match u.resume with | none => true | some a => s.past a 0) &&
    !s.isOut (siteSource t) && !s.halfOut (t / 8) (sourceHalf t) && !h.quiet && !h.vfLow && !h.vfHigh && (s.bank (t / 8)).vf

/-- A source latches a code: it is held low, and TP_MISSING is raised on every kind-2 channel it feeds (R126, R159). The record is
flagged by phase (R183), and `quiet` leaves it to a larger scope. TP_STUCK_LOW, which only a unit reset clears, is a fault of
the unit: it goes out of service (R12). -/
def State.raiseTp (s : State) (t code : Nat) (related : Nat := 0) (startup : Bool := false) (quiet : Bool := false) : State :=
  let r := s.tp t
  if r.code.toNat = code then s
  else
    let inRecovery := match r.recovTo with | none => false | some a => !s.past a 0
    let s := s.updTp t (fun r => { r with
      code := BitVec.ofNat 8 code, count := satInc r.count, lowAt := none, armClr := false, limAt := none,
      retryAt := if code = 3 then s.now else r.retryAt })
    let s := { s with regs := { s.regs with tpNew := setBit s.regs.tpNew t true } }.mark (0x31F0 + 4 * (t / 8)) (16 + t % 8)
    let s := s.when (!quiet) (fun s =>
      s.record { src := 3, code := code, site := siteSource t, related := related, startup := startup, recov := inRecovery })
    let s := s.when (code == 2) (fun s => s.takeOut (siteSource t) 2)
    (bankInputs (t / 8)).foldl (fun s n =>
      let r := s.inRec n
      s.when (r.kind == 2 && r.src == t % 8)
        (fun s => (s.raiseIn n 3 (related := siteSource t + 4096 * s.modAddr) (quiet := quiet)).afterQual n)) s

/-- A source's code clears and it is back on its schedule (R159). -/
def State.clearTp (s : State) (t : Nat) : State := s.updTp t (fun r => { r with code := 0, partner := none, armClr := false })

/-- The next start of a period of length per of a schedule (R178, R182). -/
def State.nextPeriod (s : State) (S : Option Nat) (per : Nat) : Option Nat :=
  match S with
  | none => none
  | some a => if per = 0 then none else if reached s.now a then some (s.now + (per - s.since a % per)) else some a

/-- A source resumes at the next start of its period, in its recovery phase for one period (R182, R183). DESIGN CHOICE: a steady
source, which has no period, resumes at once. -/
def State.resumeTp (s : State) (t : Nat) : State :=
  let c := s.tpRec t
  let at_ := s.nextPeriod (s.bank (t / 8)).sched c.tpp
  (s.clearTp t).updTp t (fun r => { r with resume := at_, recovTo := some (at_.getD s.now + c.tpp) })

/-! ### Verdicts (R162 to R167) -/

/-- The level that at least three readings of a node agree on; undefined where they do not (R146, R162). -/
def foldLvl (l : List Lvl) : Lvl :=
  if l.length < 3 then .undef else if l.all (· == .low) then .low else if l.all (· == .high) then .high else .undef

/-- What a half takes N and the ball as from its readings in the last 5 µs of a pulse (R162). -/
def foldReadings (l : List Reading) : Reading := { n := foldLvl (l.map (·.n)), ball := foldLvl (l.map (·.ball)) }

/-- The reading of a pulse passes: element A off shows N and the ball low, element B off shows N high and the ball low
(R163). -/
def pulsePass (x : AB) (r : Reading) : Bool :=
  match x with
  | .a => r.n == Lvl.low && r.ball == Lvl.low
  | .b => r.n == Lvl.high && r.ball == Lvl.low

/-- The code of an off-check (R163): `f` is what the failed pulse showed. -/
def offCode (x : AB) (f r : Reading) : Nat :=
  match r.ball, r.n with
  | .high, _ => 5
  | .low, .high => 1
  | .low, .low => match x with
    | .b => if f.ball = .high then 2 else if f.n ≠ .high then 3 else 9
    | .a => 9
  | _, _ => 9

/-- The code of a dark-test probe, 0 where it passes (R165). -/
def probeCode (x : AB) (r : Reading) : Nat :=
  match x with
  | .a => if r.ball != Lvl.low then 2 else if r.n != Lvl.high then 3 else 0
  | .b => if r.n != Lvl.low then 1 else if r.ball != Lvl.low then 5 else 0

/-- Two halves' verdicts on one check: equal they count, different they are RB_DISAGREE (R167). -/
def State.verdict (s : State) (o : Nat) (ca cb : Nat) (x : AB) : State :=
  if ca = cb then s.when (ca != 0) (fun s => s.raiseOut o ca x) else s.raiseOut o 10

/-- While an output holds EXT_HIGH and its ball falls at the sample of another pulse of the bank, it is a cross-short with the
pulse's party: an output, or 64 + a source (R164). `fallen` names the balls of the bank that read low at the sample; a ball that
has read low before it has not fallen with it. -/
def State.crossRefine (s : State) (b party : Nat) (fallen : BitVec 16) : State :=
  (bankOutputs b).foldl (fun s i =>
    let r := s.out i
    if i ≠ party && r.code == 5 && bit fallen (i % 16) && r.lowAt.isNone then
      if party < 64 then
        let s := (s.raiseOut i 6 (related := siteElement party .a + 4096 * s.modAddr)).updOut i (fun r => { r with partner := some party })
        (s.raiseOut party 6 (related := siteElement i .a + 4096 * s.modAddr)).updOut party (fun r => { r with partner := some i })
      else
        let t := party - 64
        let s := (s.raiseOut i 6 (related := siteSource t + 4096 * s.modAddr)).updOut i (fun r => { r with partner := some party })
        (s.raiseTp t 5 (related := siteElement i .a + 4096 * s.modAddr)).updTp t (fun r => { r with partner := some i })
    else s) s

/-- The continuous check of a half's reading that has stood for 20 µs, 0 where it agrees (R166). -/
def State.continuousCode (s : State) (o : Nat) (r : Reading) (limiting : Bool) : Nat :=
  let u := s.out o
  let c := s.outRec o
  let opw := if c.mode = 2 then us 50 else c.opw
  let quietTest := u.a.test == .none && u.b.test == .none
  if c.mode = 0 ∨ c.mode = 3 then 0
  else if !u.a.on && quietTest && r.n != Lvl.low then 1
  else if u.dark && quietTest && s.past u.offAt opw && r.ball != Lvl.low then 5
  else if u.conducts && quietTest && s.past u.onAt c.limt && s.past u.pulseAt (us 50) && r.ball != Lvl.high then
    (if limiting then 7 else if r.n = .high then 4 else 3)
  else 0

/-! ### The start-up element test (R184) -/

/-- The codes that the element test of an output latches, in order, with the element each names; none where it passes. The test
ends at the first step that fails (DESIGN CHOICE), and a level between the two thresholds fails whatever was expected (R146). -/
def elTestCodes (t : ElTest) : List (Nat × AB) :=
  let off := (if t.off.ball ≠ .low then [(5, AB.a)] else []) ++ (if t.off.n ≠ .low then [(1, AB.a)] else [])
  if off ≠ [] then off
  else if t.aOn.ball ≠ .low then [(2, .b)]
  else if t.aOn.n ≠ .high then [(3, .a)]
  else if t.aOff.n ≠ .low then [(1, .a)]
  else (if t.drvA then [] else [(9, AB.a)]) ++ (if t.drvB then [] else [(9, AB.b)])

/-- An output's element test: each code is latched, and a failed driver check takes its own element out of service (R184). -/
def State.elementTest (s : State) (t : ElTest) (startup : Bool) : State :=
  (elTestCodes t).foldl (fun s c =>
    let s := s.raiseOut t.o c.1 c.2 (startup := startup)
    s.when (c.1 == 9) (fun s => s.takeOut (siteElement t.o c.2) 9)) s

/-- The code that a source's test off-pulse shows, 0 where it passes (R159, R184). -/
def tpTestCode (t : TpTest) : Nat :=
  if t.pulse ≠ .low then 1 else if t.on ≠ .high && !t.limiting then 2 else 0

/-- A source's test off-pulse (R184). -/
def State.sourceTest (s : State) (t : TpTest) (startup : Bool) : State :=
  s.when (tpTestCode t != 0) (fun s => s.raiseTp t.t (tpTestCode t) (startup := startup))

/-- The element tests and source tests of bank b, as its bank start-up test makes them (R184, R438). -/
def State.bankTests (s : State) (b : Nat) (els : List ElTest) (tps : List TpTest) : State :=
  let s := (els.filter (fun t => t.o.val / 16 == b)).foldl (fun s t => s.elementTest t true) s
  (tps.filter (fun t => t.t.val / 8 == b)).foldl (fun s t => s.sourceTest t true) s

/-! ### Turn-on (R149, R150) -/

/-- An element starts to conduct. -/
def State.startOn (s : State) (o : Nat) (x : AB) : State :=
  let s := s.updEl o x (fun e => { e with on := true, waiting := false, late := false, test := .none, startAt := s.now })
  s.updOut o (fun r => if r.conducts then
    { r with onAt := s.now, lowAt := none, limAt := none, recovAt := if r.recov then some (r.recovAt.getD s.now) else none } else r)

/-- An element whose command is on asks the Ladle for its tokens, and starts at once where they are granted (R150). During a
dark-test probe of the element the turn-on waits for the probe's end (R168). -/
def State.turnOnEl (s : State) (o : Nat) (x : AB) : State :=
  let e := (s.out o).el x
  if s.coreUp && s.elCmd o x && e.test == .probe then s.updEl o x (fun e => { e with late := true })
  else if s.coreUp && s.elCmd o x && !e.on && !e.waiting && e.test != .pulse then
    let (ok, s) := s.request (o / 16 + 1) (siteElement o x) (s.turnOnCost o x)
    if ok then s.startOn o x else s.updEl o x (fun e => { e with waiting := true })
  else s

/-! ### Whole banks and halves -/

/-- A code on every output of a bank. -/
def State.raiseBankOut (s : State) (b code : Nat) (quiet : Bool := false) : State :=
  (bankOutputs b).foldl (fun s o => s.raiseOut o code (quiet := quiet)) s
/-- A code clears on every output of a bank that holds it; the outputs are then in recovery (R182, R183). -/
def State.clearBankOut (s : State) (b code : Nat) : State :=
  (bankOutputs b).foldl (fun s o => s.when ((s.out o).code.toNat == code)
    (fun s => (s.clearOut o).recover o)) s
/-- A code on every configured input of a bank that `pick` names. -/
def State.raiseBankIn (s : State) (b code : Nat) (pick : Nat → Bool) (quiet : Bool := false) : State :=
  (bankInputs b).foldl (fun s n => s.when (pick n) (fun s => (s.raiseIn n code (quiet := quiet)).afterQual n)) s
/-- A code on every source of a bank that `pick` names. -/
def State.raiseBankTp (s : State) (b code : Nat) (pick : Nat → Bool) (quiet : Bool := false) : State :=
  (bankSources b).foldl (fun s t => s.when (pick t) (fun s => s.raiseTp t code (quiet := quiet))) s
/-- A code clears on every source of a bank that `pick` names and that holds it: it resumes at its next period (R182). -/
def State.clearBankTp (s : State) (b code : Nat) (pick : Nat → Bool) : State :=
  (bankSources b).foldl (fun s t => s.when ((s.tp t).code.toNat == code && pick t) (fun s => s.resumeTp t)) s
/-- Every input of a bank is evaluated again. -/
def State.requalifyBank (s : State) (b : Nat) : State := (bankInputs b).foldl (fun s n => s.afterQual n) s

/-- A bit of BANK_STAT [20:16] sets: 0 VF, 1 DIP, 2 SIL, 3 OVL, 4 RESYNC. -/
def State.bankEvt (s : State) (b i : Nat) : State :=
  (s.updBank b (fun r => { r with evt := setBit r.evt i true })).mark (0x3270 + 4 * b) (16 + i)

/-- The tests that run on the elements of half h of bank b stop without a verdict (R177, R180). -/
def State.stopTests (s : State) (b : Nat) (h : AB) : State :=
  (bankOutputs b).foldl (fun s o => s.updEl o h (fun e => { e with test := .none, cutAt := none })) s

/-- A half goes out of service (R13, R24): its outputs, sources and inputs take HALF_DOWN with one record at the level of the half
(R29, R183), its tokens return (R460), and runs on the bank's streams stop where both halves are out (R499). `quiet` leaves the
record to a reset of larger scope. -/
def State.halfDown (s : State) (b : Nat) (h : AB) (quiet : Bool := false) : State :=
  let s := s.takeOut (siteBank b h.n 3 3) 15
  let s := s.updHalf b h (fun r => { r with ref := none, run := 0, buffered := [], lastHb := none, sched := none })
  let s := (s.stopTests b h).releaseHalf b h
  let s := s.raiseBankOut b 15 (quiet := true)
  let s := s.raiseBankTp b 7 (fun t => decide (sourceHalf t = h)) (quiet := true)
  let s := s.raiseBankIn b 10 (fun n => n % 2 == h.n) (quiet := true)
  let s := (bankInputs b).foldl (fun s n => s.when (n % 2 == h.n) (fun s => (s.cutInput n).afterQual n)) s
  let s := s.when (!quiet) (fun s => s.record { src := 2, code := 15, site := siteBank b h.n 3 3, level := 2 })
  s.when (!s.bankStreams b) (fun s => s.cvuSourceLost (fun src bk => decide (src ≤ 2) && bk == b))

/-- A half is back in service with the bank's schedule: HALF_DOWN clears, with the inputs still to be seen safe (R143, R159,
R169, R183). -/
def State.halfBack (s : State) (b : Nat) (h : AB) : State :=
  let s := (s.putBack (siteBank b h.n 3 3)).updHalf b h (fun f => { f with sched := (s.bank b).sched })
  let s := s.when (!s.halfOut b h.other) (fun s => s.clearBankOut b 15)
  let s := s.clearBankTp b 7 (fun t => decide (sourceHalf t = h))
  let s := (bankInputs b).foldl (fun s n => s.when (n % 2 == h.n && !s.inputOut n) (fun s => s.resumeInput n)) s
  s.requalifyBank b

/-- A sample or a continuous check of half h of bank b is discarded: VF has dipped in the last 50 µs, or is low (R168, R181). -/
def State.dipped (s : State) (b : Nat) (h : AB) : Bool :=
  let f := s.half b h
  f.vfLow || (match f.dipAt with | none => false | some t => decide (s.since t ≤ us 50))

/-- The state an element of a standard output keeps at a silence expiry of its half, by SAFE: `held` where a latched code holds it
off, `on` what it was at the last valid heartbeat (R177). -/
def silenceKeep (safe : Nat) (held on : Bool) : Bool :=
  match safe with
  | 1 => !held
  | 2 => on && !held
  | _ => false

/-- A half is quiesced: outputs off, sources low, silence timer stopped, tokens returned; the bank's standing reservation ends with its
second half (R179, R454, R460). -/
def State.quiesce (s : State) (b : Nat) (h : AB) : State :=
  let s := (s.updHalf b h (fun r => { r with quiet := true, silent := false })).releaseHalf b h
  s.when (s.half b h.other).quiet (fun s => s.setBucket (b + 1) ((s.bucket (b + 1)).reserve 0))

/-- Every half is quiesced (R179). -/
def State.quiesceAll (s : State) : State := s.each 4 (fun s b => (s.quiesce b .a).quiesce b .b)

/-- The field dies and the Colander's channels as a reset of the field dies leaves them: every element off, no code, no
silence, no schedule (R26, R179). -/
def State.resetField (s : State) : State :=
  { s with outs := [], tps := [], halves := [],
           banks := s.banks.map (fun e => (e.1, { vf := e.2.vf, meas := e.2.meas })) }

end Sys2Proof.Machine
end

