-- ==== Sys2Proof/Machine/Frames.lean ====
section
/-! DEFINITION. Wilis connections: their records (R337), frames (R339 to R343), what is sent (R345, R349, R350), and the
opening, closing and failing of a connection (R349, R351, R357). -/

namespace Sys2Proof.Machine

/-! ### Connection records (R337) -/

/-- Word i of the record of connection n. -/
def State.connW (s : State) (n i : Nat) : Word := (Tab.get [] s.cfg.conns n).getD i 0
/-- T_WD in ns. -/
def State.connWd (s : State) (n : Nat) : Nat := ms (fld (s.connW n 1) 9 0)
/-- RXLEN. -/
def State.connRx (s : State) (n : Nat) : Nat := fld (s.connW n 1) 23 19
/-- TXLEN. -/
def State.connTx (s : State) (n : Nat) : Nat := fld (s.connW n 1) 18 14
/-- DUAL. -/
def State.connDual (s : State) (n : Nat) : Bool := bit (s.connW n 1) 25
/-- OWNER. -/
def State.connOwner (s : State) (n : Nat) : Nat := fld (s.connW n 10) 9 0

/-- State code of a connection (R349). -/
def ConnSt.n : ConnSt → Nat
  | .closed => 0
  | .connecting => 1
  | .open => 2
  | .failed => 3

/-- TB in µs modulo 2^32: the Wilis time stamp (R343). -/
def State.micros (s : State) : Word := BitVec.ofNat 32 (s.now / 1000)

/-- Age of a stamp in µs: one up to 100 µs ahead counts as 0 (R317, R347, R356). -/
def State.ageOf (s : State) (stamp : Word) : Nat :=
  let d := (s.micros - stamp).toNat
  if d ≥ 2 ^ 32 - 100 then 0 else d

/-- CID. -/
def State.connCid (s : State) (n : Nat) : Word := s.connW n 0 &&& 0x7FFFFFFF#32
/-- ROLE: the module is the responder. -/
def State.connResp (s : State) (n : Nat) : Bool := bit (s.connW n 0) 31
/-- XPORT: Ethernet with the Wilis EtherType. -/
def State.connEther (s : State) (n : Nat) : Bool := bit (s.connW n 1) 24
/-- MAC of a path. -/
def State.connMac (s : State) (n path : Nat) : Nat := fld (s.connW n (2 + path)) 1 0
/-- TXP in ns (R345). -/
def State.connTxp (s : State) (n : Nat) : Nat := 125000 * 2 ^ fld (s.connW n 1) 13 10
/-- A scheduled frame of connection n is due: an instant k × TXP + TXOFS has come, at most 16 µs ago, and its frame has not been sent
(R345, R346, R349). -/
def State.txDue (s : State) (n : Nat) : Bool :=
  let p := s.connTxp n
  let late := (s.now + (p - Tab.get 0 s.cfg.txOfs n % p)) % p
  decide (late ≤ 16000) && (s.conn n).txAt.all (fun t => decide (late < s.since t))
/-- The configured paths of a connection. -/
def State.connPaths (s : State) (n : Nat) : List Nat := if s.connDual n then [0, 1] else [0]
/-- The configured connections. -/
def State.connList (s : State) : List Nat := s.cfg.conns.map (·.1)
/-- The connection of a CID. -/
def State.connOfCid (s : State) (cid : Word) : Option Nat := s.connList.find? (fun n => s.connCid n == cid && cid != 0)

/-! ### Counters and transport -/

/-- A statistics counter of a MAC advances (R363). -/
def State.macStat (s : State) (m i : Nat) : State :=
  s.updMac m (fun x => { x with stat := Tab.upd 0 x.stat i (fun v => v + 1) })
/-- A bit of WL_STAT sets: 0 OPEN, 1 FAIL, 2 PATH, 3 BADCFG, 4 HOSTDROP. -/
def State.wlEvt (s : State) (i : Nat) : State :=
  { s with net := { s.net with evt := setBit s.net.evt i true } }.mark 0x150C i
/-- A MAC carries Wilis: enabled for it, with its link up (R342, R363). -/
def State.macWilis (s : State) (m : Nat) : Bool := (s.mac m).en && (s.mac m).wlEn && (s.mac m).link
/-- The transport of a kind is not disabled (R342). -/
def State.transport (s : State) (ether : Bool) : Bool := if ether then s.net.etype != 0 else s.net.udp != 0

/-! ### Building frames (R339 to R343) -/

/-- Frame types (R340). -/
def ftData : Nat := 1
/-- CONNECT. -/
def ftConnect : Nat := 2
/-- ACCEPT. -/
def ftAccept : Nat := 3
/-- REJECT. -/
def ftReject : Nat := 4
/-- CLOSE. -/
def ftClose : Nat := 5

/-- A half word, most significant byte first. -/
def bytes2be (h : Half) : List Byte := [h.extractLsb' 8 8, h.extractLsb' 0 8]

/-- A frame: header, data words and CHK, whose initial value is the identity (R339, R341). -/
def wilisFrame (type : Nat) (safe : Bool) (path : Nat) (id : Word) (seq : Half) (stamp : Word) (data : List Word) : List Byte :=
  let body := [BitVec.ofNat 8 (0x10 + type), atBit 8 0 safe ||| atLsb 8 1 path, BitVec.ofNat 8 data.length, 0] ++
    bytes4be id ++ bytes2be seq ++ [0, 0] ++ bytes4be stamp ++ data.flatMap bytes4be
  body ++ bytes4be (crc32cInit id body)

/-- The identity of the frames that this module sends on connection n (R338). -/
def State.connId (s : State) (n : Nat) : Word := s.connCid n ||| atBit 32 31 (s.connResp n)

/-- The parameter check: CID, the originator's TXLEN, the responder's (R350). DEDUCED: each word most significant byte
first, as a frame sends it, with the final XOR of CRC-32C. -/
def State.connParam (s : State) (n : Nat) : Word :=
  let o := if s.connResp n then s.connRx n else s.connTx n
  let r := if s.connResp n then s.connTx n else s.connRx n
  crc32c (bytes4be (s.connCid n) ++ bytes4be (BitVec.ofNat 32 o) ++ bytes4be (BitVec.ofNat 32 r))

/-- One frame of connection n on one path: sent where the MAC and transport carry it, and counted (R345, R363). -/
def State.sendPath (s : State) (n type : Nat) (safe : Bool) (seq : Half) (data : List Word) (path : Nat) : State :=
  let m := s.connMac n path
  if s.macWilis m && s.transport (s.connEther n) then
    ((s.emit (.wilis n path (wilisFrame type safe path (s.connId n) seq s.micros data))).macStat m 11).macStat m 12
  else s

/-- A frame on every path of connection n (R345). -/
def State.sendFrame (s : State) (n type : Nat) (safe : Bool) (seq : Half) (data : List Word) : State :=
  (s.connPaths n).foldl (fun s p => s.sendPath n type safe seq data p) s

/-- The starting sequence of an end: TB[25:10] (R350). -/
def State.startSeq (s : State) : Half := s.tb.tb.extractLsb' 10 16

/-! ### States (R349) -/

/-- A connection takes a state without valid data. -/
def Conn.enter (c : Conn) (st : ConnSt) (now : Nat) : Conn :=
  { c with st := st, valid := false, passv := false, data := [], up0 := false, up1 := false, since := now, was := [] }

/-- Entry into OPEN: the sequences are new, both paths start DOWN, FIRST is due (R349, R353, R356). -/
def State.openConn (s : State) (n : Nat) (tx rx : Half) (stamp : Word) : State :=
  (s.updConn n (fun c => { c.enter .open s.now with tx := tx, rx := rx, stamp := stamp, rxAt := s.now, lostO := 0, first := true })).wlEvt 0

/-- Entry into FAILED with a code (R349, R357). -/
def State.failConn (s : State) (n : Nat) (code : Nat) : State :=
  (s.updConn n (fun c => { c.enter .failed s.now with code := BitVec.ofNat 8 code })).wlEvt 1

/-- The connections of a version begin to connect when their cell is loaded (R349). -/
def State.connectConns (s : State) (conns : List Nat) : State :=
  conns.foldl (fun s n => s.when ((s.conn n).st == .closed) (fun s => s.updConn n (fun c => c.enter .connecting s.now))) s

/-- CLOSE sent once on each path, then CLOSED (R349). -/
def State.closeConn (s : State) (n : Nat) : State :=
  if (s.conn n).st = .closed then s
  else
    let s := s.sendFrame n ftClose false ((s.conn n).tx + 1) []
    s.updConn n (fun c => { c.enter .closed s.now with tx := c.tx + 1 })

end Sys2Proof.Machine
end

