-- ==== Sys2Proof/Machine/Queue.lean ====
section
/-! DEFINITION. Submission entries (R397), completions (R398, R393, R409) and completion interrupts (R407). -/

namespace Sys2Proof.Machine

/-! ### Fields of a submission entry (R397) -/

/-- Word i of the entry. -/
def Desc.word (d : Desc) (i : Nat) : Word := d.w.getD i 0
/-- OPC. -/
def Desc.opc (d : Desc) : Nat := fld (d.word 0) 7 0
/-- FENCE. -/
def Desc.fence (d : Desc) : Bool := bit (d.word 0) 8
/-- NOIRQ. -/
def Desc.noirq (d : Desc) : Bool := bit (d.word 0) 9
/-- TAG. -/
def Desc.tag (d : Desc) : Half := (d.word 0).extractLsb' 16 16
/-- SESS. -/
def Desc.sess (d : Desc) : Half := (d.word 1).extractLsb' 0 16
/-- LEN. -/
def Desc.len (d : Desc) : Nat := (d.word 4).toNat
/-- ADDR. -/
def Desc.addr (d : Desc) : Nat := (d.word 3).toNat * 2 ^ 32 + (d.word 2).toNat
/-- Parameter i. -/
def Desc.p (d : Desc) (i : Nat) : Word := d.word (5 + i)

/-! ### Set-up of a queue pair (R410) -/

/-- s, the SQ size exponent. -/
def Qp.sqExp (x : Qp) : Nat := x.sqCfg.toNat
/-- c, the CQ size exponent. -/
def Qp.cqExp (x : Qp) : Nat := fld x.cqCfg 3 0
/-- Interrupt enable. -/
def Qp.irqOn (x : Qp) : Bool := bit x.cqCfg 4
/-- CQ_THR. -/
def Qp.thr (x : Qp) : Nat := fld x.cqCfg 12 5

/-! ### The host's writes and its silence (R408) -/

/-- The host interface works: its clocks run and the start-up has passed S3. -/
def Phase.hostUp : Phase → Bool
  | .waitLock => true | .service => true | .faultStop => true | .bootHold => true
  | _ => false

/-- A queue pair is ACTIVE. -/
def State.anyActive (s : State) : Bool := s.hif.qps.any (fun e => e.2.st == .active)

/-- A cause of silence holds (R408). -/
def State.silenceNow (s : State) : Bool := !s.hif.linkUp || s.hif.d3 || (s.hif.silTo && s.anyActive)

/-- Host silence begins with a record, SIL_EVT and FAULTN, or ends with a record of its duration; vector 0 is then raised
once a queue pair is active (R408). -/
def State.checkSilence (s : State) : State :=
  if !s.pwr.phase.hostUp then s
  else
    let s := s.when (!s.anyActive) (fun s => { s with hif := { s.hif with silTo := false } })
    let s :=
      if s.silenceNow && !s.hif.silent then
        ({ s with hif := { s.hif with silent := true, silAt := some s.now, wakeV := false } }.hifEvt 2).record
          { src := 14, code := 1, site := siteSpine 0 0 6 }
      else if !s.silenceNow && s.hif.silent then
        let t := s.since (s.hif.silAt.getD s.now) / 1000000
        { s with hif := { s.hif with silent := false, silAt := none, wakeV := true } }.record
          { src := 14, code := 2, site := siteSpine 0 0 6, d6 := BitVec.ofNat 32 t }
      else s
    s.when (s.hif.wakeV && s.anyActive && !s.hif.silent) (fun s =>
      { s with hif := { s.hif with wakeV := false } }.raise 0)

/-- A write of the host reaches BAR0 or BAR2: it is activity (R408). -/
def State.hostWrite (s : State) : State :=
  { s with hif := { s.hif with lastW := s.now, silTo := false } }.checkSilence

/-! ### Completions -/

/-- What completes a command: STATUS, RES0, RES1, XLEN and the bytes for its buffer. -/
structure Result where
  status : Nat := 0
  res0   : Word := 0
  res1   : Word := 0
  xlen   : Nat := 0
  data   : List Byte := []
deriving DecidableEq, Repr, Inhabited

/-- The interrupt of a CQ: a completion without NOIRQ counts, and CQ_THR of them raise the vector (R407). -/
def State.countIrq (s : State) (q : Nat) (noirq : Bool) : State :=
  if noirq then s
  else
    let n := (s.qp q).irq + 1
    let fire := (s.qp q).irqOn && decide (n ≥ (s.qp q).thr)
    let s := s.updQp q (fun x => { x with irq := if fire then 0 else n, irqAt := if n = 1 then s.now else x.irqAt })
    s.when fire (fun s => s.raise (q + 1))

/-- A draining queue pair, or one in ERROR with EN 0, is DISABLED once OUT is 0 (R396). -/
def Qp.drained (x : Qp) : Qp :=
  if x.out = 0 ∧ (x.st = .draining ∨ (x.st = .error ∧ x.en = false)) then { x with st := .disabled, en := false } else x

/-- Frees what a completion discarded leaves: OUT falls (R393, R396). -/
def Qp.discard (x : Qp) : Qp := Qp.drained { x with out := x.out - 1 }

/-- A completion written to host memory: its data first, then the entry at CQP with its phase (R398, R399). -/
def State.writeCqe (s : State) (q : Nat) (h : HeldC) (noirq : Bool) : State :=
  let x := s.qp q
  let s := s.when (h.data != []) (fun s => s.emit (.buffer q h.data))
  let s := s.emit (.cqe { qp := q, idx := x.cqp, tag := h.tag, sqidx := h.sqidx, status := h.status, res0 := h.res0,
                          res1 := h.res1, tb := s.tb.tb, xlen := h.xlen,
                          phase := x.cqp.toNat / 2 ^ x.cqExp % 2 == 0 })
  let s := s.updQp q (fun x => { x with cqp := x.cqp + 1, out := x.out - 1 })
  (s.countIrq q noirq).updQp q Qp.drained

/-- A command of QP q completes (R393, R396, R409): the entry leaves the list of fetched commands; in ERROR its completion
is discarded, in D3hot it is held. A command fetched before a reset of its queue pair completes unseen (R390, R409). -/
def State.complete (s : State) (q : Nat) (d : Desc) (r : Result) : State :=
  let s := s.updQp q (fun x => { x with cmds := x.cmds.erase d })
  let h : HeldC := { tag := d.tag, sqidx := d.sqidx, status := BitVec.ofNat 16 r.status, res0 := r.res0, res1 := r.res1,
                     xlen := BitVec.ofNat 32 r.xlen, data := r.data, noirq := d.noirq }
  if d.lost then s
  else match (s.qp q).st with
  | .error => s.updQp q Qp.discard
  | .disabled => s
  | _ =>
    if s.hif.d3 then s.updQp q (fun x => { x with heldC := x.heldC ++ [h] })
    else if !s.hif.linkUp then s.updQp q Qp.discard
    else s.writeCqe q h d.noirq

/-- Completions held in D3hot are written in completion order when the function is in D0 again; those of a queue pair in ERROR are
discarded (R396, R409). -/
def State.flushHeld (s : State) (q : Nat) : State :=
  let l := (s.qp q).heldC
  l.foldl (fun s h => if (s.qp q).st = .error then s.updQp q Qp.discard else s.writeCqe q h h.noirq)
    (s.updQp q (fun x => { x with heldC := [] }))

/-! ### The command of a hand-over (R405) -/

/-- Cell-control commands: CELL_EXCHANGE, CELL_MOVE, PAIR_SPLIT, PAIR_MERGE. -/
def Desc.handover (d : Desc) : Bool := decide (0x20 ≤ d.opc) && decide (d.opc ≤ 0x23)

/-- The command that runs a hand-over completes with a code; a CELL_EXCHANGE reports the cells exchanged and the failing
one (R400, R405). -/
def State.hoFinish (s : State) (code : Nat) : State :=
  match (s.qp s.ho.qp).cmds.find? (fun d => d.ran && d.handover) with
  | none => s
  | some d =>
    let bad := if code = 0 then 0xFFFF else s.ho.cell
    let count : Word := atLsb 32 0 s.ho.done ||| atLsb 32 16 bad
    s.complete s.ho.qp d { status := code, res0 := if d.opc = 0x20 then count else 0 }

end Sys2Proof.Machine
end

