-- ==== Sys2Proof/Machine/Cells.lean ====
section
/-! DEFINITION. Safety cells: the descriptor (R283) and declaration table (R284), cell states (R281), ownership and
permits (R291 to R293), loading, cell faults (R274), degraded mode (R59 to R66), and pairs of engines as far as their
cells go: roles, pair states, mismatch (R222), engine faults (R48, R273). -/

namespace Sys2Proof.Machine

/-! ### The descriptor (R283) -/

/-- Word i of a descriptor. -/
def CellImg.dw (v : CellImg) (i : Nat) : Word := v.desc.getD i 0
/-- PAIR_OK. -/
def CellImg.pairOk (v : CellImg) : Bool := bit (v.dw 0) 10
/-- SINGLE_OK. -/
def CellImg.singleOk (v : CellImg) : Bool := bit (v.dw 0) 11
/-- CEXP. -/
def CellImg.cexp (v : CellImg) : Nat := fld (v.dw 0) 15 12
/-- The cycle in ns. -/
def CellImg.cycle (v : CellImg) : Nat := 125000 * 2 ^ v.cexp
/-- PHASE. -/
def CellImg.phase (v : CellImg) : Nat := fld (v.dw 0) 24 16
/-- ROFS in ns. -/
def CellImg.rofs (v : CellImg) : Nat := us (fld (v.dw 1) 6 0)
/-- ENG. -/
def CellImg.eng (v : CellImg) : Nat := fld (v.dw 1) 13 8
/-- ONPAIR. -/
def CellImg.onPair (v : CellImg) : Bool := bit (v.dw 1) 14
/-- SLOT. -/
def CellImg.slot (v : CellImg) : Nat := fld (v.dw 1) 23 16
/-- BUDGET in ns. -/
def CellImg.budget (v : CellImg) : Nat := (v.dw 2).toNat
/-- DLIM in ns. -/
def CellImg.dlim (v : CellImg) : Nat := secs (fld (v.dw 3) 17 0)
/-- DEGR. -/
def CellImg.degr (v : CellImg) : Bool := bit (v.dw 3) 18
/-- STOP: 1 SS1. -/
def CellImg.stopSs1 (v : CellImg) : Bool := bit (v.dw 3) 19
/-- DZE. -/
def CellImg.dze (v : CellImg) : Bool := bit (v.dw 3) 20
/-- CODE_BLK, CODE_N, STATE_BLK, STATE_N. -/
def CellImg.codeBlk (v : CellImg) : Nat := fld (v.dw 4) 7 0
/-- CODE_N. -/
def CellImg.codeN (v : CellImg) : Nat := fld (v.dw 4) 15 8
/-- STATE_BLK. -/
def CellImg.stateBlk (v : CellImg) : Nat := fld (v.dw 4) 23 16
/-- STATE_N. -/
def CellImg.stateN (v : CellImg) : Nat := fld (v.dw 4) 31 24
/-- ENTRY. -/
def CellImg.entry (v : CellImg) : Nat := fld (v.dw 5) 15 0
/-- DECL. -/
def CellImg.decl (v : CellImg) : Nat := fld (v.dw 5) 31 16
/-- OWN_OUT bit o. -/
def CellImg.ownOut (v : CellImg) (o : Nat) : Bool := bit (v.dw (6 + o / 32)) (o % 32)
/-- OWN_CT bit k. -/
def CellImg.ownCt (v : CellImg) (k : Nat) : Bool := bit (v.dw (8 + k / 32)) (k % 32)
/-- OWN_IN bit n. -/
def CellImg.ownIn (v : CellImg) (n : Nat) : Bool := bit (v.dw (12 + n / 32)) (n % 32)
/-- PI_RD bit a; area 0 is always readable (R289). -/
def CellImg.piRd (v : CellImg) (a : Nat) : Bool := a == 0 || bit (v.dw (16 + a / 32)) (a % 32)
/-- Compare slot i, 16 bits. -/
def CellImg.slotW (v : CellImg) (i : Nat) : Nat := fld (v.dw (20 + i / 2)) (16 * (i % 2) + 15) (16 * (i % 2))
/-- Compare slot i is used: its channel, action code and whether it is a system instant. -/
def CellImg.cmpSlot (v : CellImg) (i : Nat) : Option (Nat × Nat × Bool) :=
  let w := v.slotW i
  if i ≥ 32 ∨ w = 0xFFFF then none else some (w % 256, w / 256 % 16, w / 4096 % 2 == 1)
/-- Connection i of the cell. -/
def CellImg.conn (v : CellImg) (i : Nat) : Option Nat :=
  let w := fld (v.dw (36 + i / 2)) (16 * (i % 2) + 15) (16 * (i % 2))
  if i < 16 ∧ w / 1024 % 2 = 1 then some (w % 1024) else none
/-- Every connection of the cell. -/
def CellImg.conns (v : CellImg) : List Nat := (List.range 16).filterMap v.conn
/-- SIG. -/
def CellImg.sig (v : CellImg) : Word := v.dw 62
/-- The outputs of the cell. -/
def CellImg.outs (v : CellImg) : List Nat := (List.range 64).filter v.ownOut

/-- One item of the declaration table (R284). -/
structure Decl where
  name : Word
  kind : Nat
  safeout : Bool
  ofs  : Nat
  len  : Nat
deriving DecidableEq, Repr, Inhabited

/-- The declaration table read from the code area, up to the NAME that ends it. -/
def CellImg.declsFrom (code : List Word) (at_ : Nat) : Nat → List Decl
  | 0 => []
  | fuel + 1 =>
    let w := fun i => code.getD (at_ + i) 0
    if w 0 = 0 then []
    else { name := w 0, kind := fld (w 1) 3 0, safeout := bit (w 1) 4, ofs := fld (w 2) 15 0, len := fld (w 2) 31 16 } ::
      CellImg.declsFrom code (at_ + 4) fuel

/-- The declaration table of a version. -/
def CellImg.decls (v : CellImg) : List Decl := if v.decl = 0 then [] else CellImg.declsFrom v.code v.decl 16384

/-- Changes of a state area's words: each pair an offset and a word. -/
def setWords (l : List Word) (ch : List (Nat × Word)) : List Word := ch.foldl (fun l e => l.set e.1 e.2) l

/-- The state area as a load or restart builds it (R225, R299): the image's initial words, timers stopped with the output
SAFEOUT, restart interlocks latched. -/
def CellImg.freshState (v : CellImg) : List Word :=
  let base := (List.range (256 * v.stateN)).map (fun i => v.init.getD i 0)
  setWords base (v.decls.filterMap (fun d =>
    if d.kind ≤ 3 then some (d.ofs, atBit 32 1 d.safeout)
    else if d.kind = 5 then some (d.ofs, 1)
    else none))

/-! ### Cluster memory: whole areas (R209 to R212) -/

/-- A byte of cluster memory; an unlisted byte reads 0. -/
def Cluster.byte (m : Cluster) (a : Nat) : Byte := Tab.get 0 m.mem a
/-- The canonical form of a memory: addresses rise strictly and no entry holds 0, which an unlisted byte reads as. -/
def Memory.wf (m : List Host.Cell) : Bool := Tab.wf 0 m
/-- The word at a word-aligned byte address. -/
def Cluster.word (m : Cluster) (a : Nat) : Word := word4 [m.byte a, m.byte (a + 1), m.byte (a + 2), m.byte (a + 3)]
/-- Bytes written from an address on. -/
def Cluster.putBytes (m : Cluster) (a : Nat) : List Byte → Cluster
  | [] => m
  | b :: l => Cluster.putBytes { m with mem := Tab.put 0 m.mem a b } (a + 1) l
/-- The tag under which a word was last written (R210). -/
def Cluster.wroteTag (m : Cluster) (w : Nat) : Byte := Tab.get (Tab.get 0 m.wrote (w / 256)) m.tags w
/-- The word address under which a word was last written (R210). -/
def Cluster.wroteAt (m : Cluster) (w : Nat) : Half := Tab.get (BitVec.ofNat 16 w) m.addrs w
/-- A whole word written: fresh check bits for its address under a tag; `none` for its block's own (R210). -/
def Cluster.putWord (m : Cluster) (a : Nat) (w : Word) (tag : Option Byte) : Cluster :=
  let m := m.putBytes a (bytes4 w)
  let t := tag.getD (Tab.get {} m.own (a / 1024)).tag
  { m with err := Tab.drop m.err (a / 4), addrs := Tab.drop m.addrs (a / 4),
           tags := if t = Tab.get 0 m.wrote (a / 1024) then Tab.drop m.tags (a / 4) else Tab.ins (Tab.drop m.tags (a / 4)) (a / 4) t }
/-- Words written from an address on, under their blocks' own tags. -/
def Cluster.putWords (m : Cluster) (a : Nat) : List Word → Cluster
  | [] => m
  | w :: l => Cluster.putWords (m.putWord a w none) (a + 4) l
/-- Words read from an address on. -/
def Cluster.words (m : Cluster) (a n : Nat) : List Word := (List.range n).map (fun i => m.word (a + 4 * i))

/-- The owner-table entries of a run of blocks (R212). -/
def Cluster.setOwner (m : Cluster) (blk n : Nat) (tag : Byte) (ro : Bool) : Cluster :=
  { m with own := (List.range n).foldl (fun t i => Tab.put {} t (blk + i) { tag := tag, ro := ro, badPar := false }) m.own }
/-- Whole blocks written by the load service, padded with zeros: their check bits are made for a tag (R211, R296). DESIGN CHOICE: the
loader's tag admits the access; the code covers the tag that the blocks' owner presents, or no read could match it. -/
def Cluster.fillBlocks (m : Cluster) (blk n : Nat) (words : List Word) (tag : Byte) : Cluster :=
  let m := m.putWords (1024 * blk) (words ++ List.replicate (256 * n - words.length) 0)
  let inside := fun (w : Nat) => decide (256 * blk ≤ w) && decide (w < 256 * (blk + n))
  { m with wrote := (List.range n).foldl (fun t i => Tab.put 0 t (blk + i) tag) m.wrote,
           tags := m.tags.filter (fun e => !inside e.1) }

/-- Whether a run of blocks is unallocated. -/
def Cluster.blocksFree (m : Cluster) (blk n : Nat) : Bool :=
  decide (blk + n ≤ 256) && (List.range n).all (fun i => (Tab.get {} m.own (blk + i)).tag == 0)
/-- The lowest run of n free contiguous blocks (R296). -/
def Cluster.findRun (m : Cluster) (n : Nat) : Option Nat := (List.range 256).find? (fun b => m.blocksFree b n)

/-- Owner tag of a cell slot (R211). -/
def slotTag (slot : Nat) : Byte := BitVec.ofNat 8 (5 + slot)

/-! ### Masks (R193, R199) -/

/-- The effective masks in both Lids: per safety output the OR of the shares of its owners' versions in force, in a
hand-over cycle of both versions. -/
def State.loadMasks (s : State) : State :=
  let second := s.cells.filterMap (fun e => if e.2.st = .handover then e.2.nver else none)
  let add := fun (t : Tab (BitVec 512)) (v : CellImg) => v.masks.foldl (fun t e =>
    if v.ownOut e.1 && (s.outRec e.1).mode == 1 then Tab.upd 0 t e.1 (fun m => m ||| e.2) else t) t
  let t := (s.cfg.cells.map (·.2) ++ second).foldl add []
  { s with lid := { s.lid with maskA := t, maskB := t } }

/-! ### Which cells run where -/

/-- A cell is in some cluster memory. -/
def CellS.placed (c : CellS) : Bool := c.st.isLoaded
/-- A cell occupies a place, on an engine, or on a pair by its even engine. -/
def CellS.runsAt (c : CellS) (e : Nat) (onP : Bool) : Bool := c.placed && c.eng == e && c.onP == onP
/-- The hand-over's second instance of a cell occupies a place. -/
def CellS.runsAt2 (c : CellS) (e : Nat) (onP : Bool) : Bool := c.nver.isSome && c.st == .handover && c.neng == e && c.nonP == onP

/-- Cells scheduled on an engine, or on a pair. -/
def State.cellsAt (s : State) (e : Nat) (onP : Bool) : List Nat :=
  (s.cells.filter (fun x => x.2.runsAt e onP || x.2.runsAt2 e onP)).map (·.1)

/-- Cells of pair k: on the pair, or on either engine as a single. -/
def State.cellsOfPair (s : State) (k : Nat) : List Nat :=
  s.cellsAt (2 * k) true ++ s.cellsAt (2 * k) false ++ s.cellsAt (2 * k + 1) false

/-- Cells of an engine in its role: those of the pair, or its own. -/
def State.cellsOfEngine (s : State) (e : Nat) : List Nat :=
  match (s.eng e).role with
  | .leader => s.cellsAt e true
  | .follower => s.cellsAt (e - 1) true
  | _ => s.cellsAt e false ++ s.cellsAt (e / 2 * 2) true

/-- A cell slot of a cluster is taken, by a cell or by the second instance of one. -/
def State.slotTaken (s : State) (c slot : Nat) : Bool :=
  s.cells.any (fun x => (x.2.placed && x.2.eng / 4 == c && x.2.slot == slot) ||
    (x.2.nver.isSome && x.2.neng / 4 == c && x.2.nslot == slot))
/-- The lowest free cell slot of a cluster (R296). -/
def State.freeSlot (s : State) (c : Nat) : Option Nat := (List.range 250).find? (fun i => !s.slotTaken c i)

/-! ### The committed configuration (R282, R416) -/

/-- The bank numbered 0 or 1. -/
def State.storeBank (s : State) (b : Bool) : BankS := if b then s.store.bank1 else s.store.bank0

/-- The image of the winning bank. -/
def State.committed (s : State) : Image :=
  match s.store.win with
  | some b => (s.storeBank b).image
  | none => Image.none

/-- SEQ of the winning bank, or 0. -/
def State.winSeq (s : State) : Word :=
  match s.store.win with
  | some b => (s.storeBank b).hdr.seq
  | none => 0

/-- The version of cell c in an image. -/
def Image.cell (i : Image) (c : Nat) : Option CellImg := (i.cells.find? (fun e => e.1 == c)).map (·.2)

/-! ### States of a cell (R281), availability (R69), events (R308) -/

/-- A bit of CELL_EVT sets: 0 LOAD, 1 SAFE, 2 DEGR, 3 XCHG, 4 MOVE, 5 ABORT, 6 HELD, 7 RENEW; HIF_STAT.CELL_EVT with it. -/
def State.cellEvt (s : State) (i : Nat) : State :=
  ({ s with regs := { s.regs with cellEvt := setBit s.regs.cellEvt i true } }.mark 0x3A00 i).hifEvt 6

/-- States whose time the availability accumulators count (R69). -/
def CState.lost : CState → Bool
  | .running => false
  | .handover => false
  | _ => true

/-- The accumulators of a cell and the module take the time counted so far (R69). -/
def State.availFlush (s : State) (c : Nat) : State :=
  match (s.cell c).since with
  | none => s
  | some t =>
    let d := s.since t
    { s.updCell c (fun x => { x with avail := x.avail + BitVec.ofNat 64 d, since := none }) with
        avail := s.avail + BitVec.ofNat 64 d }

/-- A cell's state counts: it is out of RUNNING and HANDOVER and in the committed configuration, and does not stand in a load that
host software asked for (R69). -/
def State.counts (s : State) (c : Nat) (x : CellS) : Bool :=
  x.st.lost && s.pwr.phase == .service && !(x.st == .loading && x.excl) && (s.committed.cell c).isSome

/-- The count follows the committed configuration: an interval begins for a cell that has come into it, and ends for one that has
left it (R69). -/
def State.availSweep (s : State) : State :=
  let s : State := (s.cells.map (·.1)).foldl (fun (s : State) c => s.when (!s.counts c (s.cell c)) (fun s => s.availFlush c)) s
  (s.committed.cells.map (·.1)).foldl (fun s c =>
    s.when (s.counts c (s.cell c) && (s.cell c).since.isNone) (fun s => s.updCell c (fun x => { x with since := some s.now }))) s

/-- The module leaves service: every interval that runs is counted up to now (R69). -/
def State.availStop (s : State) : State := (s.cells.map (·.1)).foldl (fun s c => s.availFlush c) s

/-- A cell changes state: CELL_NEW, SAFE_EVT, and the availability count; a load that host software asked for is left
out while the cell is LOADING (R69, R308). -/
def State.setCell (s : State) (c : Nat) (st : CState) : State :=
  let old := s.cell c
  if old.st = st then s
  else
    let s := s.availFlush c
    let counts := s.counts c { old with st := st }
    let s := s.updCell c (fun x => { x with st := st, since := if counts then some s.now else none })
    let s := { s with regs := { s.regs with cellNew := setBit s.regs.cellNew c true } }.mark (0x3980 + 4 * (c / 32)) (c % 32)
    s.when (st == .safe || st == .held) (fun s => s.cellEvt 1)

/-- The site reference of a cell, with M of this module (R38, R39, R406). -/
def State.cellSite (s : State) (c : Nat) : Nat := siteEngine (s.cell c).eng + 4096 * s.modAddr

/-! ### Permits and terms of a cell (R191, R274, R291) -/

/-- Every owner slot that names a cell changes. -/
def State.updSlots (s : State) (c : Nat) (f : Nat → Slot → Slot) : State :=
  s.mapSlots (Tab.mapKV {} (fun i x => if x.cell = some c then f i x else x))

/-- The cell's trip terms change. -/
def State.updCts (s : State) (v : CellImg) (f : Ct → Ct) : State :=
  (List.range 128).foldl (fun s k => if v.ownCt k then s.updCt k f else s) s

/-- The groups a cell owns. -/
def State.groupsOf (s : State) (c : Nat) : List Nat :=
  (List.range 16).filter (fun g =>
    let w := (Tab.get [] s.cfg.groups g).getD 0 0
    bit w 0 && fld w 10 1 == c)
/-- The axes of a group. -/
def State.axesOf (s : State) (g : Nat) : List Nat :=
  (List.range 64).filter (fun a =>
    let w := (Tab.get [] s.cfg.axes a).getD 0 0
    bit w 0 && fld w 26 23 == g)

/-- A word of the output request window that a version may write (R290, R322). -/
def State.windowOk (s : State) (v : CellImg) (c off : Nat) : Bool :=
  if off < 0x100 then v.ownOut (off / 4)
  else if off < 0x200 then false
  else if off < 0x400 then v.ownCt ((off - 0x200) / 4)
  else if off < 0x440 then (s.groupsOf c).contains ((off - 0x400) / 4)
  else if off < 0x600 then false
  else if off < 0x700 then (s.groupsOf c).any (fun g => (s.axesOf g).contains ((off - 0x600) / 4))
  else if off < 0x800 then false
  else if off < 0xC00 then (v.conn ((off - 0x800) / 64)).isSome
  else if off < 0xC40 then (v.conn ((off - 0xC00) / 4)).isSome
  else false

/-- A request concerns a version of cell c: a word of the window that it may write, or one of its compare slots. -/
def State.concerns (s : State) (c : Nat) (v : CellImg) (r : Req) : Bool :=
  if r.slot then (v.cmpSlot ((r.off - 0x100) / 8)).isSome else s.windowOk v c r.off

/-- A commit that waits carries requests of a cell: the dispatched cell's, or the runtime's that concern it (R219). -/
def State.carriesOf (s : State) (c : Nat) (d : Due) : Bool :=
  match d.cell with
  | some n => n == c
  | none => (s.cell c).eng == d.eng &&
      (match (s.cell c).ver with | some v => d.reqs.any (fun r => s.concerns c v r) | none => false)

/-- Every permit of a cell is withdrawn, with the changes held for it and the commits that have not taken effect, and its trip terms
are raised: the sweep of R222 and R274 (R219). -/
def State.sweep (s : State) (c : Nat) : State :=
  let due := s.perm.due.filter (fun d => !s.carriesOf c d)
  let s := s.updSlots c (fun _ x => { x with p0 := false, p1 := false })
  let s := { s with perm := { s.perm with held := s.perm.held.filter (fun h => h.cell != c),
                                          due := due } }
  let raise : State → Option CellImg → State := fun s v => match v with
    | none => s
    | some v => s.updCts v (fun t => { t with b0 := true })
  raise (raise s (s.cell c).ver) (s.cell c).nver

/-- The cell's Wilis connections send passivated data (R50, R274). -/
def State.passivate (s : State) (c : Nat) : State :=
  match (s.cell c).ver with
  | none => s
  | some v => v.conns.foldl (fun s n => s.updConn n (fun x => { x with ctl := 1, ctl1 := 1 })) s

/-- A cell goes to its safe state: permits, terms, Wilis data (R50), and the cell in SAFE or HELD. A cell that is HELD
stays HELD (R274, R281). -/
def State.toSafe (s : State) (c : Nat) (st : CState) : State :=
  ((s.sweep c).passivate c).setCell c (if (s.cell c).st = .held then .held else st)

/-- The state area of a cell is rebuilt from its image; its next release sets FIRST (R225). -/
def State.rebuild (s : State) (c : Nat) : State :=
  let x := s.cell c
  match x.ver with
  | none => s
  | some v => (s.updClu (x.eng / 4) (fun m => m.putWords (1024 * x.sblk) v.freshState)).updCell c (fun x => { x with first := true })

/-! ### Loading and freeing (R212, R296, R300) -/

/-- Code and state areas of a version written at a place, with their owner-table entries. -/
def State.writeAreas (s : State) (v : CellImg) (cluster slot cblk sblk : Nat) : State :=
  s.updClu cluster (fun m =>
    let m := m.fillBlocks cblk v.codeN v.code (slotTag slot)
    let m := m.fillBlocks sblk v.stateN v.freshState (slotTag slot)
    (m.setOwner cblk v.codeN (slotTag slot) true).setOwner sblk v.stateN (slotTag slot) false)

/-- The areas of a version are freed. -/
def State.freeAreas (s : State) (v : CellImg) (cluster cblk sblk : Nat) : State :=
  s.updClu cluster (fun m => (m.setOwner cblk v.codeN 0 false).setOwner sblk v.stateN 0 false)

/-- The runtime data of an engine's slot: blocks under the slot's tag, writable, allocated by the load service from the committed
configuration and cleared (R211, R212). -/
def State.loadRuntime (s : State) (e : Nat) : State :=
  let b := Tab.get (0, 0) s.cfg.rtData e
  let tag := BitVec.ofNat 8 (e % 4 + 1)
  if b.2 = 0 then s else s.updClu (e / 4) (fun m => (m.fillBlocks b.1 b.2 [] tag).setOwner b.1 b.2 tag false)

/-- Runtime data copied from the slot of one engine to that of another of its pair (R232, R233). -/
def State.copyRuntime (s : State) (e d : Nat) : State :=
  let a := Tab.get (0, 0) s.cfg.rtData e
  let b := Tab.get (0, 0) s.cfg.rtData d
  s.updClu (e / 4) (fun m => m.putWords (1024 * b.1) (m.words (1024 * a.1) (256 * min a.2 b.2)))

/-- A place for a version in a cluster: the descriptor's own where asked for and free, else the lowest free slot and runs
(R296, R300). -/
def State.findPlace (s : State) (v : CellImg) (cluster : Nat) (own : Bool) : Option (Nat × Nat × Nat) :=
  let m := s.clu cluster
  if own && !s.slotTaken cluster v.slot && m.blocksFree v.codeBlk v.codeN && m.blocksFree v.stateBlk v.stateN then
    some (v.slot, v.codeBlk, v.stateBlk)
  else
    match s.freeSlot cluster, m.findRun v.codeN with
    | some sl, some cb =>
      match (m.setOwner cb v.codeN 1 true).findRun v.stateN with
      | some sb => some (sl, cb, sb)
      | none => none
    | _, _ => none

/-- The command bits of a group end (model: the stop they commanded has ended in STO). -/
def State.commandEnd (s : State) (g : Nat) : State :=
  (s.axesOf g).foldl (fun s a =>
    let w := (Tab.get [] s.cfg.axes a).getD 2 0
    s.when (bit w 0) (fun s => s.updConn (fld w 10 1) (fun c =>
      { c with cmdOr := Tab.upd 0 c.cmdOr (fld w 14 11) (fun v => v &&& ~~~(atBit 32 (fld w 19 15) true)) }))) s

/-- The groups of a cell enter STO with cause 9, and their axes are UNSETTLED at their next evaluation (R315, R321). -/
def State.groupsReset (s : State) (c : Nat) : State :=
  (s.groupsOf c).foldl (fun s g =>
    let s := s.updGrp g (fun x => { x with st := .sto, cause := 9, ss1 := false, sos := false, rel := false, still := none,
                                           fresh := false, bothOn := false, reqAt := s.now })
    let s := s.commandEnd g
    (s.axesOf g).foldl (fun s a => s.updAxis a (fun x => { x with unset := true, env := 0xFFFFFFFF, envV := false, sosV := false, slsV := false, disp := 0 })) s) s

/-- The words of the channels of a version's compare slots read 0 until its first commit (R96). -/
def State.clearSlots (s : State) (chans : List Nat) : State :=
  chans.foldl (fun s n => s.updChan n (fun k => { k with lo := 0, hi := 0 })) s

/-- The channels of a version's compare slots. -/
def CellImg.chans (v : CellImg) : List Nat := (List.range 32).filterMap (fun k => (v.cmpSlot k).map (·.1))

/-- A cell loaded at a place: its areas written, LOAD_EVT, and released from its next release instant with FIRST. Kinds of degraded
mode that are present stay, with their timer: a load restores no redundancy (R60, R63). -/
def State.loadCell (s : State) (c : Nat) (v : CellImg) (e : Nat) (onP : Bool) (slot cblk sblk : Nat) : State :=
  let s := s.writeAreas v (e / 4) slot cblk sblk
  let s := s.updCell c (fun x => { x with ver := some v, eng := e, onP := onP, slot := slot, cblk := cblk, sblk := sblk,
                                          first := true, fAt := [], chk := false, expd := false, nver := none,
                                          cyc := v.cycle, relAt := none, nrelAt := none })
  let s := s.clearSlots v.chans
  let s := (((s.setCell c .running).cellEvt 0).connectConns v.conns).passivate c
  let s := s.groupsReset c
  (List.range 8).foldl (fun s i =>
    s.when ((Tab.get {} s.cfg.caps i).owner == some c) (fun s => s.updEnc i (fun r => { r with valid := s.encActive i }))) s

/-! ### Roles and pair states (R207, R239) -/

/-- A bit of PAIR_EVT sets: 0 MM, 1 ST_FAIL, 2 DBG, 3 CMP, 4 CE, 5 UE, 6 OWN, 7 HO. -/
def State.pairEvt (s : State) (i : Nat) : State :=
  { s with regs := { s.regs with pairEvt := setBit s.regs.pairEvt i true } }.mark 0x3434 i

/-- A skew stands: the largest one is kept (R239). -/
def EPair.setSkew (p : EPair) (n : BitVec 4) : EPair :=
  { p with skew := n, skewMax := if p.skewMax.toNat < n.toNat then n else p.skewMax }

/-- A pair takes a state; PAIR_NEW sets where it changes. The skew is 8 where the follower has been released, and 0 while the pair is
not PAIRED (R214, R239). -/
def State.setPair (s : State) (k : Nat) (st : PState) : State :=
  if (s.epair k).st = st then s
  else
    { s.updEPair k (fun p => { p.setSkew (if st = PState.paired then 8 else 0) with st := st }) with
      regs := { s.regs with pairNew := setBit s.regs.pairNew k true } }.mark 0x3430 k

/-- The state of a pair by the roles of its engines (R239). -/
def State.pairByRoles (s : State) (k : Nat) : PState :=
  let a := (s.eng (2 * k)).role
  let b := (s.eng (2 * k + 1)).role
  let degr := fun (e : Nat) => (s.cellsAt e false).any (fun c => (s.cell c).dEng)
  if a == .out && b == .out then .out
  else if a == .out then (if degr (2 * k + 1) then .degOdd else .part)
  else if b == .out then (if degr (2 * k) then .degEven else .part)
  else if a == .leader && b == .follower then .paired
  else if a == .single || b == .single then .split
  else .idle

/-- The pair's state follows the roles of its engines while neither is halted; a debug halt's DEBUG stays until a merge completes
(R237). -/
def State.refreshPair (s : State) (k : Nat) : State :=
  if (s.epair k).st = .debug ∨ (s.eng (2 * k)).role = .halted ∨ (s.eng (2 * k + 1)).role = .halted then s
  else s.setPair k (s.pairByRoles k)

/-- An engine as a release from reset leaves it (R242), in a role; its service data and its breakpoint stay. -/
def Engine.released (x : Engine) (r : EngRole) : Engine := { role := r, tested := x.tested, bp := x.bp }

/-- A single engine whose last cell has left is not in use: it is IDLE (R14, R207). -/
def State.restIdle (s : State) (e : Nat) : State :=
  if (s.eng e).role = .single ∧ s.cellsAt e false = [] then (s.updEng e (fun x => x.released .idle)).refreshPair (e / 2) else s

/-- A cell leaves cluster memory: its areas freed, UNLOADED, its permits withdrawn and its terms raised; its engine rests
where it was the last. DESIGN CHOICE: a cell that is not loaded has no kind of degraded mode, and no DEGR_LEAVE is written for
it. -/
def State.unloadCell (s : State) (c : Nat) : State :=
  let x := s.cell c
  match x.ver with
  | none => s
  | some v =>
    let s := s.sweep c
    let s := s.when x.placed (fun s => s.freeAreas v (x.eng / 4) x.cblk x.sblk)
    let s := v.conns.foldl (fun s n => s.closeConn n) s
    ((s.setCell c .unloaded).updCell c (fun x =>
      { x with ver := none, nver := none, dEng := false, dRing := false, dNet := false, dAt := none, r50 := false, r90 := false })).restIdle x.eng

/-- An engine goes out of service: held in reset, with a record that points to the one that named the cause (R12, R13,
R529). -/
def State.engineOut (s : State) (e : Nat) (cause : Word) : State :=
  if (s.eng e).role = .out then s
  else
    let s := s.updEng e (fun x => x.released .out)
    let s := { s with perm := { s.perm with due := s.perm.due.filter (fun d => d.eng != e) } }
    let s := s.takeOut (siteEngine e) 11
    s.record { src := 4, code := 11, site := siteEngine e, d6 := cause }

/-- Sequence number of the newest fault record, or 0. -/
def State.lastSeq (s : State) : Word := match s.recs with | [] => 0 | r :: _ => r.seq

/-! ### Input records of a cell (R137) -/

/-- Input records of a pair change with a cell (R137): a change of KIND or pairing waits until the pair is OFF, and a return to the
records in force ends such a wait. DESIGN CHOICE: PAIR is the pairing, so a change of ANTI alone does not wait; what waits is both
records whole. -/
def State.changeInputs (s : State) (c p : Nat) (e o : InRec) : State :=
  let oe := Tab.get {} s.cfg.ins (2 * p)
  let oo := Tab.get {} s.cfg.ins (2 * p + 1)
  if e = oe ∧ o = oo then s.updPair p (fun r => { r with deferred := none })
  else if (e.kind ≠ oe.kind ∨ o.kind ≠ oo.kind ∨ e.pair ≠ oe.pair) ∧ (s.pair p).st ≠ .off then
    (s.updPair p (fun r => { r with deferred := some (e, o, c) })).cellRec 10 c
      (BitVec.ofNat 32 (siteInput (2 * p) + 4096 * s.modAddr))
  else
    (s.updPair p (fun r => { r with deferred := none })).putInputs p e o

/-- The input records that a predicate names take the values of an image. -/
def State.takeInputs (s : State) (c : Nat) (own : Nat → Bool) (img : Image) : State :=
  s.each 64 (fun s p =>
    let pick := fun (n : Nat) => Tab.get {} (if own n then img.ins else s.cfg.ins) n
    s.when (own (2 * p) || own (2 * p + 1)) (fun s => s.changeInputs c p (pick (2 * p)) (pick (2 * p + 1))))

/-- The input records that changed at X take back the values that the old version runs with (R137, R294, R301). -/
def State.restoreInputs (s : State) (c : Nat) : State :=
  match (s.cell c).nver with
  | none => s
  | some v =>
    s.when (s.ho.step == .running && s.ho.kind == .exchange) (fun s => s.takeInputs c v.ownIn { s.cfg with ins := s.ho.ins })

/-! ### Sessions (R403) and ends of a hand-over command -/

/-- The role whose open session on queue pair q has a handle. -/
def State.sessionRole (s : State) (q : Nat) (h : Half) : Option Role :=
  if h = 0 then none
  else if s.store.maint.sess = some (h, q) then some .maintenance
  else if s.store.safety.sess = some (h, q) then some .safetyEngineer
  else none

/-- Role number and handle of the session a command names, for its log entry (R429). -/
def State.sessionTag (s : State) (q : Nat) (h : Half) : Nat × Half :=
  match s.sessionRole q h with
  | some r => (r.n, h)
  | none => (0, 0)

/-- The step is idle and the command completes (R405). -/
def State.hoEnd (s : State) (code : Nat) : State :=
  ({ s with ho := { s.ho with step := .idle } }).hoFinish code

/-- The log entry of a hand-over, with the role and handle of the session that asked for it (R429, R430). -/
def State.hoLog (s : State) (a : LogArg) : State :=
  let h := match (s.qp s.ho.qp).cmds.find? (fun d => d.ran && d.handover) with
    | some d => d.sess
    | none => 0
  let t := s.sessionTag s.ho.qp h
  s.log { a with role := t.1, handle := t.2, bankSeq := s.winSeq }

/-! ### Hand-over abandonment (R301) -/

/-- The hand-over under way concerns a cell. -/
def State.handingOver (s : State) (c : Nat) : Bool :=
  s.ho.step != .idle && (s.ho.kind == .exchange || s.ho.kind == .move || s.ho.kind == .remove) && s.ho.cell == c

/-- The cell's hand-over cycle is under way (R297, R303). -/
def State.inHandCycle (s : State) (c : Nat) : Bool := s.handingOver c && s.ho.step == .running

/-- The exchange or move of a cell is abandoned: both versions' bits cleared and terms raised, the new areas freed, the
channel disarmed, reported and recorded, and its command completed (R301, R405). -/
def State.abandon (s : State) (c : Nat) (code : Nat) : State :=
  if !s.handingOver c then s
  else
    let x := s.cell c
    let s := (s.sweep c).restoreInputs c
    let s := match x.nver with
      | none => s
      | some v => (s.freeAreas v (x.neng / 4) x.ncblk x.nsblk).updCts v (fun t => { t with b1 := false })
    let s := s.updSlots c (fun _ y => { y with use1 := false, follow := false })
    let s := s.mapSlots (Tab.mapKV {} (fun _ y => if y.cell = some c ∧ !y.use0 then {} else y))
    let s := (s.updCell c (fun x => { x with nver := none })).loadMasks
    let s := s.updChan s.ho.chan (fun h => { h with armed := false, use := .none })
    let s := { s with ho := { s.ho with step := .idle, rest := [] } }
    let s := s.hoFinish code
    let s := s.cellRec 8 c (BitVec.ofNat 32 code)
    let s := s.log { kind := 11, cell := some c, d12 := BitVec.ofNat 32 code, site := s.cellSite c }
    s.cellEvt 5

/-! ### Cell faults (R274) -/

/-- A cell fault: permits, terms and requests of the interval go; the record names the exception; the state area is
rebuilt; the cell is released again, or HELD after its third fault within 1 s; a cell that is HELD stays so. ET_WD stops with the
dispatch, but a value written in the tick of an overrun counts on (R280). -/
def State.cellFault (s : State) (c e cause : Nat) (epc eva : Word) (bd : Bool) : State :=
  let s := s.abandon c 0x3A
  let s := s.sweep c
  let s := s.passivate c
  let drop := fun (x : Engine) =>
    if x.cell = some c then { x with reqs := [], nreq := 0, cell := none, wd := if cause = 4 then x.wd else 0 } else x
  let s := (s.updEng (e / 2 * 2) drop).updEng (e / 2 * 2 + 1) drop
  let s := s.record { src := 5, code := cause, site := siteEngine e, cell := some c, d6 := epc, d7 := eva, bd := bd }
  let recent := (s.now :: (s.cell c).fAt).filter (fun t => decide (s.since t < 1000000000))
  let s := s.updCell c (fun x => { x with fAt := recent, fcnt := satInc x.fcnt })
  let s := s.rebuild c
  if recent.length ≥ 3 then ((s.setCell c .held).cellEvt 6).cellRec 7 c
  else if (s.cell c).st = .held then s
  else s.setCell c .safe

/-! ### Mismatch and engine faults (R48, R222, R273) -/

/-- The sweep of a pair: both engines halted, their requests discarded, every cell of the pair in its safe state (R222). -/
def State.pairFail (s : State) (k : Nat) : State :=
  let cells := s.cellsAt (2 * k) true
  let s := cells.foldl (fun s c => s.abandon c 0x3A) s
  let halt := fun (x : Engine) => { x with role := .halted, reqs := [], nreq := 0, cell := none, stall := false, sealed := false,
                                           queue := [], idx := 0, qbad := false, wd := 0, wdHit := false, ds := none }
  let s := (s.updEng (2 * k) halt).updEng (2 * k + 1) halt
  let s := { s with perm := { s.perm with due := s.perm.due.filter (fun d => d.eng / 2 != k) } }
  let s := cells.foldl (fun s c => s.toSafe c .safe) s
  s.updEPair k (fun p => { p with l := none, f := none })

/-- A split or merge that has not reached its end is cancelled by a mismatch (R238). -/
def State.cancelSplit (s : State) (k : Nat) : State :=
  if s.ho.step != .idle && (s.ho.kind == .split || s.ho.kind == .merge) && s.ho.pair == k then
    ({ s.updChan s.ho.chan (fun h => { h with armed := false, use := .none }) with ho := { s.ho with step := .idle } }).hoFinish 0x3A
  else s

/-- A mismatch of pair k with a cause of R220: the comparator set halts both engines and the self-test begins (R222). -/
def State.mismatch (s : State) (k cause : Nat) : State :=
  let s := s.cancelSplit k
  let s := s.pairFail k
  let s := s.updEPair k (fun p => { p with cause := BitVec.ofNat 3 cause, mm := satInc p.mm,
                                           last := s.tb.tb.extractLsb' 0 32, cmpDis := p.cmpDis || cause == 5, disc5 := cause == 5 })
  let s := (s.setPair k .resolving).pairEvt 0
  s.record { src := 4, code := cause, site := siteEngine (2 * k), d6 := BitVec.ofNat 32 k }

/-- A failed diagnostic of a single engine: its cells go to their safe state and do not continue, the engine goes out
(R48). `seq` is the sequence number of the record that named the cause, or 0 (R529). -/
def State.singleFail (s : State) (e : Nat) (seq : Word := 0) : State :=
  let s := s.cancelSplit (e / 2)
  let cells := s.cellsAt e false
  let s := cells.foldl (fun s c => (s.abandon c 0x3A).toSafe c .held) s
  let s := s.engineOut e seq
  s.refreshPair (e / 2)

/-- An engine fault (R273): on a pair as R222 and R224 prescribe, with CAUSE and MM_COUNT unchanged; on a single a failed
diagnostic. The record names the exception. -/
def State.engineFault (s : State) (e cause : Nat) (epc eva : Word) (bd : Bool) : State :=
  let s := s.record { src := 5, code := cause, site := siteEngine e, d6 := epc, d7 := eva, bd := bd }
  match (s.eng e).role with
  | .leader => ((s.cancelSplit (e / 2)).pairFail (e / 2)).updEPair (e / 2) (fun p => { p with disc5 := false }) |>.setPair (e / 2) .resolving
  | .follower => ((s.cancelSplit (e / 2)).pairFail (e / 2)).updEPair (e / 2) (fun p => { p with disc5 := false }) |>.setPair (e / 2) .resolving
  | _ => s.singleFail e s.lastSeq

/-! ### Degraded mode (R59 to R65) -/

/-- The three kinds of degraded mode, bit 0 engine, 1 ring, 2 network (R529). -/
def CellS.kinds (x : CellS) : Word := atBit 32 0 x.dEng ||| atBit 32 1 x.dRing ||| atBit 32 2 x.dNet

/-- A loss of a kind: 0 engine, 1 ring, 2 network. A cell whose descriptor allows it continues in degraded mode; any other,
or a second loss of the kind, sends it to its safe state, and ends a hand-over of it (R59, R62, R301). -/
def State.lose (s : State) (c kind : Nat) : State :=
  let x := s.cell c
  match x.ver with
  | none => s
  | some v =>
    let present := match kind with | 0 => x.dEng | 1 => x.dRing | _ => x.dNet
    if !x.placed || x.st == .held then s
    else if !v.degr || present then (s.abandon c 0x3A).toSafe c .held
    else
      let was := x.degraded
      let s := s.updCell c (fun x =>
        { x with dEng := x.dEng || kind == 0, dRing := x.dRing || kind == 1, dNet := x.dNet || kind == 2,
                 dAt := if was then x.dAt else some s.now, r50 := was && x.r50, r90 := was && x.r90 })
      (s.when (!was) (fun s => (s.cellEvt 2).cellRec 1 c (s.cell c).kinds)).refreshPair (x.eng / 2)

/-- The limit of the degraded mode falls into the present cycle of the cell, or has passed: the expiry governs (R61). -/
def State.expiryGoverns (s : State) (c : Nat) : Bool :=
  let x := s.cell c
  match x.dAt, x.ver with
  | some t, some v =>
    let into := (s.now + (v.cycle - (125000 * v.phase + v.rofs) % v.cycle)) % v.cycle
    x.expd || decide (v.dlim < s.since t + (v.cycle - into))
  | _, _ => false

/-- A kind's redundancy is restored; with every kind restored the cell leaves degraded mode, but where the expiry of its limit
governs (R61, R63). DEGR_LEAVE names the kinds then present, which are none (R65). -/
def State.regain (s : State) (c kind : Nat) : State :=
  let x := s.cell c
  let y := { x with dEng := x.dEng && kind != 0, dRing := x.dRing && kind != 1, dNet := x.dNet && kind != 2 }
  if !x.degraded || (!y.degraded && x.st != .held && s.expiryGoverns c) then s
  else
    let s := (s.updCell c (fun _ => y)).refreshPair (y.eng / 2)
    if y.degraded then s
    else
      let s := (s.updCell c (fun x => { x with dAt := none, r50 := false, r90 := false })).cellEvt 2
      s.cellRec 4 c (s.cell c).kinds

/-- The degraded-mode timer in ms: it stops at the limit (R60, R112). -/
def State.degrMs (s : State) (c : Nat) : Nat :=
  let x := s.cell c
  match x.dAt, x.ver with
  | some t, some v => min (s.since t) v.dlim / 1000000
  | _, _ => 0

end Sys2Proof.Machine
end

