-- ==== Sys2Proof/Machine/Operands.lean ====
section
/-! DEFINITION. Damuno's operand forms (R241, R248): general and boolean registers, immediates, branch targets, and the
shapes of arithmetic results. -/

namespace Sys2Proof.Machine

/-- A general register; g0 reads 0 (R241). -/
def Engine.gr (x : Engine) (n : Nat) : Word := if n = 0 then 0 else Tab.get 0 x.g n
/-- A general register written; a write to g0 is ignored (R241). -/
def Engine.setG (x : Engine) (n : Nat) (v : Word) : Engine := if n = 0 then x else { x with g := Tab.put 0 x.g n v }
/-- A boolean register; k0 reads 0 (R241). -/
def Engine.kr (x : Engine) (n : Nat) : Bool := n != 0 && bit x.k n
/-- A boolean register written; a write to k0 is ignored (R241). -/
def Engine.setK (x : Engine) (n : Nat) (v : Bool) : Engine := if n = 0 then x else { x with k := setBit x.k n v }

/-- Sign extension of an immediate to 32 bits (R248). -/
def sextI (imm : Half) : Word := imm.signExtend 32
/-- Zero extension of an immediate to 32 bits (R248). -/
def zextI (imm : Half) : Word := imm.zeroExtend 32
/-- A truth as a word. -/
def ofBool (b : Bool) : Word := if b then 1 else 0

/-- Target of a B form: the offset counts words from the delay slot's address (R254). -/
def targetB (pc : Word) (off : Half) : Word := pc + 4 + (off.signExtend 32) * 4
/-- Target of a B-long form (R250). -/
def targetJ (pc : Word) (off : BitVec 26) : Word := pc + 4 + (off.signExtend 32) * 4

/-- The three shifts (R250, R251). -/
def shiftBy (k : ShKind) (x : Word) (n : Nat) : Word :=
  match k with
  | .left => x <<< n
  | .logical => x >>> n
  | .arithmetic => x.sshiftRight n

/-- A signed number brought into 32 bits by saturation (R251). -/
def satS (x : Int) : Word := BitVec.ofInt 32 (max (-(2 ^ 31)) (min (2 ^ 31 - 1) x))

/-- Signed quotient rounded towards zero, by zero all ones (R251, R253). -/
def divS (x y : Word) : Word := if y = 0 then 0xFFFFFFFF#32 else BitVec.ofInt 32 (Int.tdiv x.toInt y.toInt)
/-- Signed remainder with the sign of the dividend, by zero the dividend (R251, R253). -/
def remS (x y : Word) : Word := if y = 0 then x else BitVec.ofInt 32 (Int.tmod x.toInt y.toInt)
/-- Unsigned quotient, by zero all ones (R251, R253). -/
def divU (x y : Word) : Word := if y = 0 then 0xFFFFFFFF#32 else BitVec.ofNat 32 (x.toNat / y.toNat)
/-- Unsigned remainder, by zero the dividend (R251, R253). -/
def remU (x y : Word) : Word := if y = 0 then x else BitVec.ofNat 32 (x.toNat % y.toNat)
/-- High half of a signed product (R251). -/
def mulHi (x y : Word) : Word := BitVec.ofInt 32 (x.toInt * y.toInt / 2 ^ 32)
/-- High half of an unsigned product (R251). -/
def mulHiU (x y : Word) : Word := BitVec.ofNat 32 (x.toNat * y.toNat / 2 ^ 32)

end Sys2Proof.Machine
end

