-- ==== Sys2Proof/Machine/Flags.lean ====
section
/-! DEFINITION. The status words of an engine: ENS (R244), ES (R245), EVA (R243), and the handler registers as RDH and
WRH see them (R243). Damuno has no arithmetic flags. -/

namespace Sys2Proof.Machine

/-- ENS.LA as a number. -/
def Engine.la (x : Engine) : Nat := x.la0.toNat + 2 * x.la1.toNat

/-- ENS (R244). -/
def Engine.ens (x : Engine) : Word :=
  atBit 32 0 x.cellM ||| atBit 32 1 x.hnd ||| atBit 32 2 x.eve ||| atBit 32 3 x.dze ||| atLsb 32 4 x.la |||
    atLsb 32 6 x.mp.toNat ||| atBit 32 8 x.pm

/-- ES as an entry writes it (R245, R270). `smp` is ENS.MP as counted from the instruction at EPC. -/
def Engine.esOf (x : Engine) (cause : Nat) (bd fetch : Bool) (smp : BitVec 2) (evn : Nat) : Word :=
  atLsb 32 0 cause ||| atBit 32 4 bd ||| atBit 32 5 fetch ||| atBit 32 6 x.cellM ||| atLsb 32 7 smp.toNat |||
    atBit 32 9 x.pm ||| atLsb 32 10 x.la ||| atBit 32 12 x.eve ||| atLsb 32 16 evn

/-- The fields of ES that WRH stores; the reserved ones read 0 (R245). -/
def esMask : Word := 0x00FF1FFF#32

/-- Handler register h as RDH reads it; `eid` is EID of the engine or its leader (R243). -/
def Engine.handler (x : Engine) (eid : Word) (h : Nat) : Word :=
  match h with
  | 0 => x.ens
  | 1 => x.epc
  | 2 => x.es
  | 3 => x.eva
  | 4 => x.lp0.lc
  | 5 => x.lp0.ls
  | 6 => x.lp0.le
  | 7 => x.lp1.lc
  | 8 => x.lp1.ls
  | 9 => x.lp1.le
  | 10 => eid
  | 11 => x.ctag.zeroExtend 32
  | _ => 0

/-- A mode may read handler register h (R243). -/
def rdhAllowed (cellM : Bool) (h : Nat) : Bool :=
  if cellM then h == 4 || h == 7 || h == 10 || h == 11 else decide (h ≤ 11)

/-- Runtime mode may write handler register h; EID is read only (R243). -/
def wrhAllowed (h : Nat) : Bool := decide (h ≤ 9) || h == 11

/-- Handler register h written (R243, R244, R245). -/
def Engine.setHandler (x : Engine) (h : Nat) (v : Word) : Engine :=
  match h with
  | 0 => { x with eve := bit v 2, dze := bit v 3 }
  | 1 => { x with epc := v }
  | 2 => { x with es := v &&& esMask }
  | 3 => { x with eva := v }
  | 4 => { x with lp0 := { x.lp0 with lc := v } }
  | 5 => { x with lp0 := { x.lp0 with ls := v } }
  | 6 => { x with lp0 := { x.lp0 with le := v &&& 0xFFFFFFFC#32 } }
  | 7 => { x with lp1 := { x.lp1 with lc := v } }
  | 8 => { x with lp1 := { x.lp1 with ls := v } }
  | 9 => { x with lp1 := { x.lp1 with le := v &&& 0xFFFFFFFC#32 } }
  | 11 => { x with ctag := v.extractLsb' 0 8 }
  | _ => x

end Sys2Proof.Machine
end

