-- ==== Sys2Proof/Machine/Engine.lean ====
section
/-! DEFINITION. A safety engine issuing one instruction: the Whisk fold (R216, R217), the address map and owner table as
an engine sees them (R210 to R213, R246, R247), entries (R269, R270), retirement with delay slots, loops and the mode
shadow (R254 to R266), a pair executing one stream (R214, R215), and the consequences of an exception (R273). -/

namespace Sys2Proof.Machine

/-! ### Whisk (R216, R217) -/

/-- The seed (R217). -/
def whiskSeed : Word := 0xFFFFFFFF#32

/-- One item folded: 4 bits of kind, then 32 bits of value, least significant first. DEDUCED: the bit order of a
CRC-32C stream in its standard form. -/
def whiskFold (reg : Word) (kind : Nat) (v : Word) : Word :=
  let bits := (List.range 4).map (fun i => kind.testBit i) ++ (List.range 32).map (fun i => bit v i)
  BitVec.ofNat 32 (bits.foldl (fun r b => crcBit 32 0x1EDC6F41 r b) reg.toNat)

/-- The value a checkpoint seals: the identifier folded, the result inverted (R217). -/
def whiskSeal (reg : Word) (ident : Half) : Word :=
  BitVec.ofNat 32 (crcValue 32 true (whiskFold reg 0xA (zextI ident)).toNat 0xFFFFFFFF)

/-- Kinds that fold on a single engine too (R216). -/
def singleKind (kind : Nat) : Bool := kind == 1 || kind == 9 || kind == 10

/-- The engine belongs to a pair (R207). -/
def Engine.onPair (x : Engine) : Bool := x.role == .leader || x.role == .follower

/-- One item folded on an engine in its role (R216). -/
def Engine.fold (x : Engine) (kind : Nat) (v : Word) : Engine :=
  if x.onPair || singleKind kind then { x with whisk := whiskFold x.whisk kind v } else x

/-! ### Which cell, which tags -/

/-- The leader of the pair of a follower, otherwise the engine itself: the engine whose slot, cells and memory accesses
count (R211, R215). -/
def State.head (s : State) (e : Nat) : Nat := if (s.eng e).role = .follower then e / 2 * 2 else e

/-- EID (R243). -/
def State.eid (s : State) (e : Nat) : Word := atLsb 32 0 (s.head e) ||| atBit 32 6 (s.eng e).onPair

/-- The runtime's owner tag of an engine (R211). -/
def State.runTag (s : State) (e : Nat) : Byte := BitVec.ofNat 8 (s.head e % 4 + 1)

/-- Owner tags of the cells in the schedule of an engine or its pair (R212). -/
def State.cellTags (s : State) (e : Nat) : List (Byte × Nat) :=
  (s.cellsOfEngine (s.head e)).flatMap (fun c =>
    let x := s.cell c
    [(slotTag x.slot, c)] ++ (if x.nver.isSome then [(slotTag x.nslot, c)] else []))

/-- The cell that runs on an engine: the one dispatched, otherwise the one whose tag the engine presents. -/
def State.running (s : State) (e : Nat) : Option Nat :=
  match (s.eng (s.head e)).cell with
  | some c => some c
  | none => ((s.cellTags e).find? (fun t => t.1 == (s.eng e).ctag)).map (·.2)

/-- The version of the cell that runs on an engine: the new one where the engine runs that instance (R297). -/
def State.runVer (s : State) (e : Nat) : Option CellImg :=
  (s.running e).bind (fun c =>
    if (s.eng (s.head e)).newV && (s.cell c).nver.isSome then (s.cell c).nver else (s.cell c).ver)

/-! ### The address map (R246) -/

/-- Where an access goes. -/
inductive Place
  /-- Cluster memory, under the tag presented. -/
  | mem (tag : Byte)
  | rom
  | image
  | clock
  | window
deriving DecidableEq, Repr

/-- What an access to cluster memory is: a fetch, a load, a store of a word or of a part of one. -/
inductive Use | fetch | load | store | part
deriving DecidableEq, Repr

/-- The tag that an engine presents for a block of its cluster, where R212 does not refuse it. -/
def State.tagFits (s : State) (e : Nat) (x : Engine) (write : Bool) (o : OwnE) : Bool :=
  o.tag != 0 && o.tag != 0xFF &&
    (if x.cellM then x.ctag == o.tag && !(o.ro && write)
     else o.tag == s.runTag e || (s.cellTags e).any (fun t => t.1 == o.tag))

/-- The owner table's answer for an engine access to cluster memory: the tag presented, or the cause (R212). An entry that fails its
parity is an uncorrectable error, for a fetch before a mismatch of the tag and for a load or a part of a word after it; a word
store it refuses as the table refuses it (R262, R263). -/
def State.admitMem (s : State) (e : Nat) (x : Engine) (u : Use) (a : Nat) : Except Nat Place :=
  let o := Tab.get {} (s.clu (e / 4)).own (a / 1024)
  if o.badPar && u == .fetch then .error 1
  else if !s.tagFits e x (u == .store || u == .part) o then .error 2
  else if o.badPar then .error (if u = .store then 2 else 1)
  else .ok (.mem o.tag)

/-- A data access of the timebase and timers (R96, R102): the offset exists, in this direction and mode. -/
def State.admitClock (s : State) (e : Nat) (x : Engine) (write : Bool) (off : Nat) : Bool :=
  if off < 0xC then !write
  else if off < 0x10 then false
  else if off < 0x28 then true
  else if off = 0x30 then !x.cellM
  else if off < 0x100 then false
  else match s.runVer e with
    | some v => (v.cmpSlot ((off - 0x100) / 8)).isSome
    | none => false

/-- A data access of a width: its place, or the cause it is refused with (R246, R247, R263). -/
def State.admitData (s : State) (e : Nat) (x : Engine) (write : Bool) (a width : Nat) : Except Nat Place :=
  if a % width ≠ 0 then .error 5
  else if a < 0x40000 then s.admitMem e x (if !write then .load else if width = 4 then .store else .part) a
  else if 0x10000000 ≤ a ∧ a < 0x10010000 then
    if width ≠ 4 then .error 5
    else if !x.cellM then .ok .image
    else if write then .error 2
    else match s.runVer e with
      | some v => if v.piRd ((a - 0x10000000) / 512) then .ok .image else .error 2
      | none => .error 2
  else if 0x20000000 ≤ a ∧ a < 0x20000200 then
    if width ≠ 4 then .error 5
    else if s.admitClock e x write (a - 0x20000000) then .ok .clock else .error 2
  else if 0x30000000 ≤ a ∧ a < 0x30001000 then
    if width ≠ 4 then .error 5
    else if !write then .error 2
    else if !x.cellM then .ok .window
    else match s.running e, s.runVer e with
      | some c, some v => if s.windowOk v c (a - 0x30000000) then .ok .window else .error 2
      | _, _ => .error 2
  else if 0x40000000 ≤ a ∧ a < 0x40010000 then
    if x.cellM || write then .error 2 else .ok .rom
  else .error 2

/-- A fetch (R246): from cluster memory, or in runtime mode from the ROM. A misaligned fetch of cluster memory faults once its word has
been found correctable (R263). -/
def State.admitFetch (s : State) (e : Nat) (x : Engine) (a : Nat) : Except Nat Place :=
  if a < 0x40000 then s.admitMem e x .fetch a
  else if a % 4 ≠ 0 then .error 5
  else if 0x40000000 ≤ a ∧ a < 0x40010000 ∧ x.cellM = false then .ok .rom
  else .error 2

/-! ### Words of cluster memory under the check code (R210, R213) -/

/-- The ones of a bit vector. -/
def ones {w : Nat} (b : BitVec w) : Nat := ((List.range w).filter (fun i => bit b i)).length

/-- A corrected error is counted (R213, R239). -/
def State.countCe (s : State) (cl : Nat) : State := (s.updClu cl (fun m => { m with ce := satInc m.ce })).pairEvt 4
/-- An uncorrectable error is counted (R213, R239). -/
def State.countUe (s : State) (cl : Nat) : State := (s.updClu cl (fun m => { m with ue := satInc m.ue })).pairEvt 5

/-- An owner-table entry that fails its parity: an uncorrectable error of the block, recorded (R212, R529). -/
def State.ownerParity (s : State) (cl blk : Nat) : State :=
  (s.countUe cl).record { src := 8, code := 2, site := siteCluster cl 4, d6 := BitVec.ofNat 32 blk }

/-- What a refused access leaves beside the exception: OWN_EVT at an owner-tag mismatch, and an owner-table entry that was found with
failed parity, counted once for a pair (R212, R239). -/
def State.refused (s : State) (e cause a : Nat) (counts : Bool) : State :=
  let s := s.when (cause == 2) (fun s => s.pairEvt 6)
  s.when (counts && cause != 5 && decide (a < 0x40000) && (Tab.get {} (s.clu (e / 4)).own (a / 1024)).badPar)
    (fun s => s.ownerParity (e / 4) (a / 1024))

/-- A word read under a tag: `none` where it is uncorrectable. A corrected word is rewritten. What a read gives where
the code is not bound to detect the difference is free (R210, R213). -/
def State.readWord (s : State) (cl w : Nat) (tag : Byte) : Option Word × State :=
  let m := s.clu cl
  let d := ones (m.wroteTag w ^^^ tag) + ones (m.wroteAt w ^^^ BitVec.ofNat 16 w)
  let flips := Tab.get 0 m.err w
  if flips = 0 ∧ d = 0 then (some (m.word (4 * w)), s)
  else if flips = 1 ∧ d = 0 then
    (some (m.word (4 * w)), (s.updClu cl (fun m => { m with err := Tab.drop m.err w })).countCe cl)
  else if (flips = 2 ∧ d = 0) ∨ (flips = 0 ∧ d ≤ 2) then (none, s.countUe cl)
  else
    let seen := Config.multiBitDetected s.fresh
    let s := { s with fresh := s.fresh + 1 }
    if seen then (none, s.countUe cl) else (some s.takeWord.1, s.takeWord.2)

/-- The part of a word at a byte address, of a width, zero-extended. -/
def partOf (w : Word) (a width : Nat) : Word :=
  let sh := w >>> (8 * (a % 4))
  if width = 4 then w else if width = 2 then sh &&& 0xFFFF#32 else sh &&& 0xFF#32

/-- A word with a part of it replaced. -/
def mergePart (w : Word) (a width : Nat) (d : Word) : Word :=
  if width = 4 then d
  else
    let mask : Word := (if width = 2 then 0xFFFF#32 else 0xFF#32) <<< (8 * (a % 4))
    (w &&& ~~~mask) ||| ((d <<< (8 * (a % 4))) &&& mask)

/-! ### Timers (R101, R102) -/

/-- An event becomes pending on an engine, and ends a WAIT of it and of its follower (R250, R272). -/
def State.event (s : State) (e n : Nat) : State :=
  let h := s.head e
  let s := s.updEng h (fun x => { x with events := setBit x.events n true, stall := false })
  s.when ((s.eng h).role == .leader) (fun s => s.updEng (h + 1) (fun x => { x with stall := false }))

/-- A short timer in compare mode has reached its value (R101). -/
def etDue (tb v : Word) : Bool := decide ((tb - v).toNat < 2 ^ 31)

/-- A short timer fires: its ET_STAT bit sets, a compare timer disarms, and its event becomes pending (R101, R272). -/
def State.etSet (s : State) (e i : Nat) : State :=
  (s.updEng e (fun x => { x with
    etStat := setBit x.etStat i true,
    et := Tab.upd {} x.et i (fun t => if bit x.etMode i then { t with count := t.value } else { t with armed := false }) })).event e i

/-- A write to ET_i: the reload value in reload mode, with its two lowest bits ignored and 0 stopping the counter;
otherwise the timer is armed, and fires at once where the value is late (R101, R102). -/
def State.etValue (s : State) (e i : Nat) (v : Word) : State :=
  if bit (s.eng e).etMode i then
    let r := v &&& 0xFFFFFFFC#32
    s.updEng e (fun x => { x with et := Tab.upd {} x.et i (fun _ => { value := r, armed := r != 0, count := r }) })
  else
    let s := s.updEng e (fun x => { x with et := Tab.upd {} x.et i (fun _ => { value := v, armed := true, count := 0 }) })
    s.when (etDue (s.tb.tb.extractLsb' 0 32) v) (fun s => s.etSet e i)

/-- A write to ET_MODE: the timers whose bit changes disarm (R102). -/
def Engine.setEtMode (x : Engine) (v : Word) : Engine :=
  let m := v.extractLsb' 0 4
  { x with etMode := m,
           et := (List.range 4).foldl (fun t i =>
             if bit (m ^^^ x.etMode) i then Tab.upd {} t i (fun y => { y with armed := false, count := 0 }) else t) x.et }

/-- A write to ET_WD: the two lowest bits ignored, 0 stops the counter; an overrun pending stays (R102, R280). -/
def Engine.setWd (x : Engine) (v : Word) : Engine := { x with wd := v &&& 0xFFFFFFFC#32 }

/-! ### Reads and writes outside cluster memory -/

/-- The running cell's process image word (R289). DESIGN CHOICE: with no cell running the runtime reads and writes an image of its own
engine or pair. -/
def State.imageWord (s : State) (e off : Nat) : Word :=
  match s.running e with
  | some c => Tab.get 0 (s.cell c).pi (off / 4)
  | none => Tab.get 0 (s.eng (s.head e)).pi (off / 4)

/-- A word of the process image written (R246, R289). -/
def State.putImage (s : State) (e off : Nat) (d : Word) : State :=
  match s.running e with
  | some c => s.updCell c (fun y => { y with pi := Tab.put 0 y.pi (off / 4) d })
  | none => s.updEng (s.head e) (fun y => { y with pi := Tab.put 0 y.pi (off / 4) d })

/-- Party number of an engine's own TB latch (R83). -/
def State.latchTb (s : State) (p : Nat) : State :=
  { s with tb := { s.tb with latch := Tab.put {} s.tb.latch p { hi := s.tb.tb.extractLsb' 32 32, frac := s.tb.frac } } }

/-- Channel and half of compare-slot word `off` (from 0x100) of the version an engine runs. -/
def State.slotChan (s : State) (e off : Nat) : Option (Nat × Bool) :=
  (s.runVer e).bind (fun v => (v.cmpSlot ((off - 0x100) / 8)).map (fun t => (t.1, off / 4 % 2 == 1)))

/-- A read of the timebase and timers by engine e (R83, R96, R102). -/
def State.clockRead (s : State) (e off : Nat) : Word × State :=
  let x := s.eng e
  let l := Tab.get {} s.tb.latch e
  if off = 0 then (s.tb.tb.extractLsb' 0 32, s.latchTb e)
  else if off = 4 then (l.hi, s)
  else if off = 8 then (l.frac, s)
  else if off < 0x20 then
    let t := Tab.get {} x.et ((off - 0x10) / 4)
    (if bit x.etMode ((off - 0x10) / 4) then t.count else t.value, s)
  else if off = 0x20 then (x.etMode.zeroExtend 32, s)
  else if off = 0x24 then (x.etStat.zeroExtend 32, s)
  else if off = 0x30 then (x.wd, s)
  else match s.slotChan e off with
    | some (n, hi) => (if hi then (s.chan n).hi else (s.chan n).lo, s)
    | none => (0, s)

/-- A write of the timers by engine e; a compare slot is held in the request buffer (R96, R102). -/
def State.clockWrite (s : State) (e off : Nat) (v : Word) : State :=
  if off < 0x20 then s.etValue e ((off - 0x10) / 4) v
  else if off = 0x20 then s.updEng e (fun x => x.setEtMode v)
  else if off = 0x24 then s.updEng e (fun x => { x with etStat := x.etStat &&& ~~~(v.extractLsb' 0 4) })
  else if off = 0x30 then s.updEng e (fun x => x.setWd v)
  else s.updEng e (fun x =>
    if x.nreq < 256 then { x with reqs := x.reqs ++ [{ slot := true, off := off, data := v }], nreq := x.nreq + 1 }
    else { x with nreq := 257 })

/-- A request of the interval: beyond the 256th it is discarded (R220, R277). -/
def Engine.request (x : Engine) (off : Nat) (d : Word) : Engine :=
  if x.nreq < 256 then { x with reqs := x.reqs ++ [{ slot := false, off := off, data := d }], nreq := x.nreq + 1 }
  else { x with nreq := 257 }

/-! ### What an instruction asks for -/

/-- The effect of an instruction that raises no fault of the forms before it. `x` is the engine with the registers the
instruction writes. -/
inductive Act
  /-- It retires, and the next instruction in sequence follows. -/
  | step (x : Engine)
  /-- A branch with its delay slot: the target where taken, and whether it can end loops (R254, R261). -/
  | branch (x : Engine) (target : Option Word) (ends : Bool)
  /-- It retires and issue goes on at an address (R258, R271). -/
  | jump (x : Engine) (pc : Word)
  /-- A load of a width into rd, sign-extended where asked. -/
  | load (rd : Nat) (signed : Bool) (a : Word) (width : Nat)
  /-- A store; `orq` says that the address must lie in the request window (R277). -/
  | store (orq : Bool) (a : Word) (width : Nat) (d : Word)
  /-- A fault of the instruction itself, with EVA. -/
  | trap (cause : Nat) (eva : Word)
  /-- A service call (R270). -/
  | service

/-- An instruction as the engine issues it: whether it is barred from delay slots and loop ends (R255, R260), whether it
is a branch, its illegal forms, modes and states (R250), and its effect. -/
structure Ins where
  barred : Bool := false
  branch : Bool := false
  bad    : Engine → Bool := fun _ => false
  act    : Engine → Act

/-- What one engine's issue came to: an entry or a double fault, or neither. -/
structure Trap where
  cause : Nat
  epc   : Word
  eva   : Word
  bd    : Bool
  cellM : Bool
  double : Bool
deriving DecidableEq, Repr

/-- What the leader passes to the follower for one instruction (R215): the word fetched, with its error status, and what a load or a
read of the timebase or a timer gave, with its own. -/
structure Feed where
  word     : Word := 0
  fetchBad : Bool := false
  data     : Option (QKind × Word × Bool) := none
deriving DecidableEq, Repr, Inhabited

/-- The value of the load. -/
def Feed.value (f : Feed) : Word := match f.data with | some d => d.2.1 | none => 0
/-- Its error status. -/
def Feed.bad (f : Feed) : Bool := match f.data with | some d => d.2.2 | none => false
/-- The queue entries of an instruction (R215). -/
def Feed.entries (f : Feed) (i : Word) : List QEnt :=
  { idx := i, kind := .word, value := f.word, err := f.fetchBad } ::
    (match f.data with | some d => [{ idx := i, kind := d.1, value := d.2.1, err := d.2.2 }] | none => [])
/-- What the entries of an instruction say. -/
def Feed.of : List QEnt → Feed
  | [] => {}
  | [w] => { word := w.value, fetchBad := w.err }
  | w :: d :: _ => { word := w.value, fetchBad := w.err, data := some (d.kind, d.value, d.err) }

/-- The leader's entries for the instruction that it has issued go into the queue of its follower (R215). -/
def State.pass (s : State) (e : Nat) (f : Option Feed) : State :=
  match f with
  | none => s
  | some f => s.updEng (e + 1) (fun y => { y with queue := y.queue ++ f.entries (s.eng e).idx })
/-- A follower takes the entries of its next instruction from its queue (R215). -/
def State.takeFeed (s : State) (e : Nat) : Feed × State :=
  let mine := fun (q : QEnt) => q.idx == (s.eng e).idx + 1
  (Feed.of ((s.eng e).queue.takeWhile mine), s.updEng e (fun y => { y with queue := y.queue.dropWhile mine }))

/-- An instruction word has come: it is in the fetch buffer, and the index of the stream counts on (R206, R215). -/
def Engine.fetched (x : Engine) (w : Word) : Engine := { x with fbuf := (w :: x.fbuf).take 4, idx := x.idx + 1 }

/-! ### Entries (R269, R270) -/

/-- Vector of a cause (R268). -/
def vector (cause : Nat) : Word := BitVec.ofNat 32 (0x40000400 + 0x40 * cause)

/-- An entry: EPC, ES and EVA, runtime mode with HND, the vector, and its folds (R270). -/
def Engine.enter (x : Engine) (cause : Nat) (epc : Word) (bd fetch : Bool) (smp : BitVec 2) (eva : Word) (evn : Nat) : Engine :=
  let y := { x with
    epc := epc, es := x.esOf cause bd fetch smp evn, eva := if cause = 1 ∨ cause = 2 ∨ cause = 5 then eva else 0,
    cellM := false, hnd := true, eve := false, la0 := false, la1 := false, mp := 0, pc := vector cause, ds := none,
    stall := false }
  ((y.fold 1 (vector cause)).fold 7 (BitVec.ofNat 32 cause)).fold 7 epc

/-- An exception at the instruction at PC: for a delay slot EPC holds the branch, with the mode and the shadow that the branch issued
in, so that RTH issues it again as it was (R266, R269); in a handler it is a double fault and the engine stops issuing (R270). -/
def Engine.fault (x : Engine) (cause : Nat) (eva : Word) (fetch : Bool) : Engine × Trap :=
  let (epc, bd, smp, mode) := match x.ds with
    | some d => (d.branch, true, d.mp, d.cellM)
    | none => (x.pc, false, x.mp, x.cellM)
  let ev := if cause = 1 ∨ cause = 2 ∨ cause = 5 then eva else 0
  let t : Trap := { cause := cause, epc := epc, eva := ev, bd := bd, cellM := mode, double := x.hnd }
  (if x.hnd then { x with dead := true } else { x with cellM := mode }.enter cause epc bd fetch smp eva 0, t)

/-! ### Retirement -/

/-- Inside the body of a loop level. -/
def LoopLv.holds (l : LoopLv) (a : Word) : Bool := decide (l.ls.toNat ≤ a.toNat) && decide (a.toNat ≤ l.le.toNat)

/-- A taken branch out of a loop's body ends that loop, and level 1 with level 0 (R261). -/
def Engine.endLoops (x : Engine) (src dst : Word) : Engine :=
  let out0 := x.la0 && x.lp0.holds src && !x.lp0.holds dst
  let out1 := x.la1 && x.lp1.holds src && !x.lp1.holds dst
  { x with la0 := x.la0 && !out0, la1 := x.la1 && !out0 && !out1 }

/-- The next PC in sequence, with the loop-back or completion of the innermost active level (R257). -/
def Engine.sequence (x : Engine) (pc : Word) : Engine :=
  if x.la1 then
    if pc = x.lp1.le then
      if x.lp1.lc.toNat > 1 then { x with lp1 := { x.lp1 with lc := x.lp1.lc - 1 }, pc := x.lp1.ls }
      else { x with lp1 := { x.lp1 with lc := 0 }, la1 := false, pc := x.lp1.le + 4 }
    else { x with pc := pc + 4 }
  else if x.la0 && pc = x.lp0.le then
    if x.lp0.lc.toNat > 1 then { x with lp0 := { x.lp0 with lc := x.lp0.lc - 1 }, pc := x.lp0.ls }
    else { x with lp0 := { x.lp0 with lc := 0 }, la0 := false, pc := x.lp0.le + 4 }
  else { x with pc := pc + 4 }

/-- The mode shadow after an instruction that issued with ENS.MP = mp (R265). -/
def Engine.shadow (x : Engine) (mp : BitVec 2) : Engine :=
  if mp = 0 then x else { x with mp := mp - 1, cellM := if mp - 1 = 0 then x.pm else x.cellM }

/-- An instruction retires: `old` is the engine as it issued. A delay slot completes its branch (R254, R261). -/
def Engine.retire (x old : Engine) : Engine :=
  let x := x.shadow old.mp
  match old.ds with
  | some d =>
    let x := { x with ds := none }
    match d.target with
    | some t => { (if d.ends then x.endLoops d.branch t else x) with pc := t }
    | none => x.sequence old.pc
  | none => x.sequence old.pc

/-- LEn of an active level is at a distance ahead of an address (R260). -/
def Engine.atEnd (x : Engine) (a : Word) : Bool := (x.la0 && a == x.lp0.le) || (x.la1 && a == x.lp1.le)

/-- The instruction at PC is illegal there: R255, R260, or its own forms and states. -/
def Engine.illegal (x : Engine) (i : Ins) : Bool :=
  (i.barred && (x.ds.isSome || x.atEnd x.pc)) || (i.branch && x.atEnd (x.pc + 4)) || i.bad x

/-! ### One engine issues one instruction -/

/-- Outcome of one engine: state, entry or double fault, what the queue carries; nothing where no word was fetched. -/
structure Ran where
  s    : State
  trap : Option Trap
  feed : Option Feed

/-- An engine takes a fault. -/
def State.ranFault (s : State) (e cause : Nat) (eva : Word) (fetch : Bool) (feed : Option Feed) : Ran :=
  let r := (s.eng e).fault cause eva fetch
  { s := s.updEng e (fun _ => r.1), trap := some r.2, feed := feed }

/-- An engine retires an instruction. -/
def State.ranOk (s : State) (e : Nat) (x old : Engine) (feed : Feed) : Ran :=
  { s := s.updEng e (fun _ => x.retire old), trap := none, feed := some feed }

/-- A load (R213, R215, R246): the leader or a single reads; a follower takes the leader's value and error. -/
def State.runLoad (s : State) (e : Nat) (lead : Option Feed) (fd : Feed) (rd : Nat) (signed : Bool) (a : Word)
    (width : Nat) : Ran :=
  let x := s.eng e
  let n := a.toNat
  match s.admitData e x false n width with
  | .error c => (s.refused e c n lead.isNone).ranFault e c a false (some fd)
  | .ok place =>
    let fin := fun (s : State) (v : Word) (fd : Feed) =>
      let x := s.eng e
      let v := if signed then (if width = 2 then (v.extractLsb' 0 16).signExtend 32
                               else if width = 1 then (v.extractLsb' 0 8).signExtend 32 else v) else v
      let y := (x.setG rd v).fold 6 a
      let y := if place = .clock ∧ n < 0x20000100 then y.fold 8 v else y
      s.ranOk e y x fd
    match lead with
    | some l =>
      if l.bad then s.ranFault e 1 a false (some fd)
      else fin (if place = .clock ∧ n = 0x20000000 then s.latchTb e else s) l.value fd
    | none =>
      match place with
      | .mem tag =>
        let r := s.readWord (e / 4) (n / 4) tag
        match r.1 with
        | none => r.2.ranFault e 1 a false (some { fd with data := some (.load, 0, true) })
        | some w => fin r.2 (partOf w n width) { fd with data := some (.load, partOf w n width, false) }
      | .rom =>
        let v := partOf (Config.romWord (n / 4)) n width
        fin s v { fd with data := some (.load, v, false) }
      | .image =>
        let v := s.imageWord e (n - 0x10000000)
        fin s v { fd with data := some (.load, v, false) }
      | .clock =>
        let r := s.clockRead e (n - 0x20000000)
        fin r.2 r.1 { fd with data := some (.clock, r.1, false) }
      | .window => s.ranFault e 2 a false (some fd)

/-- A store or request (R213, R246, R277, R278). A follower's store is folded and dropped, but for its own timers and its
own request buffer. -/
def State.runStore (s : State) (e : Nat) (lead : Option Feed) (fd : Feed) (orq : Bool) (a : Word) (width : Nat)
    (d : Word) : Ran :=
  let x := s.eng e
  let n := a.toNat
  let outside := orq && !(decide (0x30000000 ≤ n) && decide (n < 0x30001000))
  match (if outside && n % 4 = 0 then .error 2 else s.admitData e x true n width) with
  | .error c => (s.refused e c n lead.isNone).ranFault e c a false (some fd)
  | .ok place =>
    let v := if width = 4 then d else if width = 2 then d &&& 0xFFFF#32 else d &&& 0xFF#32
    let fin := fun (s : State) (fd : Feed) =>
      let x := s.eng e
      s.ranOk e (if place = .window then (x.fold 4 a).fold 5 v else (x.fold 2 a).fold 3 v) x fd
    match place with
    | .window => fin (s.updEng e (fun x => x.request (n - 0x30000000) d)) fd
    | .clock => fin (s.clockWrite e (n - 0x20000000) d) fd
    | .image => fin (if lead.isSome then s else s.putImage e (n - 0x10000000) d) fd
    | .rom => s.ranFault e 2 a false (some fd)
    | .mem tag =>
      match lead with
      | some l => if width ≠ 4 ∧ l.bad then s.ranFault e 1 a false (some fd) else fin s fd
      | none =>
        if width = 4 then fin (s.updClu (e / 4) (fun m => m.putWord (n / 4 * 4) d (some tag))) fd
        else
          let r := s.readWord (e / 4) (n / 4) tag
          match r.1 with
          | none => r.2.ranFault e 1 a false (some { fd with data := some (.load, 0, true) })
          | some w => fin (r.2.updClu (e / 4) (fun m => m.putWord (n / 4 * 4) (mergePart w n width d) (some tag))) fd

/-- A service call enters with EPC after it, and with the shadow counted from there (R266); in a handler it is a double fault (R270). -/
def State.runService (s : State) (e : Nat) (fd : Feed) : Ran :=
  let x := s.eng e
  if x.hnd then s.ranFault e 0 0 false (some fd)
  else
    let y := x.shadow x.mp
    { s := s.updEng e (fun _ => y.enter 0 (x.pc + 4) false false y.mp 0 0), trap := none, feed := some fd }

/-- The effect of an instruction on one engine. -/
def State.runAct (s : State) (e : Nat) (lead : Option Feed) (fd : Feed) (a : Act) : Ran :=
  let x := s.eng e
  match a with
  | .step y => s.ranOk e y x fd
  | .branch y t ends =>
    let y := match t with | some v => y.fold 1 v | none => y
    let y := y.shadow x.mp
    { s := s.updEng e (fun _ => { y with ds := some { branch := x.pc, target := t, ends := ends, mp := x.mp, cellM := x.cellM },
                                         pc := x.pc + 4 }),
      trap := none, feed := some fd }
  | .jump y pc => { s := s.updEng e (fun _ => { y.shadow x.mp with pc := pc }), trap := none, feed := some fd }
  | .load rd signed ad w => s.runLoad e lead fd rd signed ad w
  | .store orq ad w d => s.runStore e lead fd orq ad w d
  | .trap c eva => s.ranFault e c eva false (some fd)
  | .service => s.runService e fd

/-- One engine fetches, checks and executes an instruction, in the order of R263. A follower takes the word, with its error status, from
the leader (R215). -/
def State.runOne (s : State) (e : Nat) (lead : Option Feed) (i : Ins) : Ran :=
  let x := s.eng e
  match s.admitFetch e x x.pc.toNat with
  | .error c => (s.refused e c x.pc.toNat lead.isNone).ranFault e c x.pc true none
  | .ok place =>
    let r : Option Word × State := match lead, place with
      | some l, _ => (if l.fetchBad then none else some l.word, s)
      | none, .mem tag => s.readWord (e / 4) (x.pc.toNat / 4) tag
      | none, _ => (some (Config.romWord (x.pc.toNat / 4)), s)
    match r.1 with
    | none => (r.2.updEng e (fun x => { x with idx := x.idx + 1 })).ranFault e 1 x.pc true (some { fetchBad := true })
    | some w =>
      let s := r.2.updEng e (fun x => x.fetched w)
      let fd : Feed := { word := w }
      if x.pc.toNat % 4 ≠ 0 then s.ranFault e 5 x.pc true (some fd)
      else if x.illegal i then s.ranFault e 3 0 false (some fd)
      else s.runAct e lead fd (i.act (s.eng e))

/-! ### Consequences (R273) -/

/-- The cell whose tag a block of a cluster carries. -/
def State.blockCell (s : State) (cl blk : Nat) : Option Nat :=
  let tag := (Tab.get {} (s.clu cl).own blk).tag
  (s.cells.find? (fun y => y.2.placed && ((y.2.eng / 4 == cl && slotTag y.2.slot == tag) ||
    (y.2.nver.isSome && y.2.neng / 4 == cl && slotTag y.2.nslot == tag)))).map (·.1)

/-- What an entry or double fault leads to, before the entry's own effects are left to the handler (R273, R274). On a single engine
an uncorrectable memory error and a cycle-budget overrun are failed diagnostics of the engine (R48): DEDUCED, the cell's record is
written and the engine goes out. -/
def State.consequence (s : State) (e : Nat) (t : Trap) (ran : Option Nat) : State :=
  let cellOr := fun (c : Option Nat) => match c with
    | some c =>
      if (s.eng e).role = .single ∧ (t.cause = 1 ∨ t.cause = 4) then
        let s := s.record { src := 5, code := t.cause, site := siteEngine e, cell := some c, d6 := t.epc, d7 := t.eva, bd := t.bd }
        s.singleFail e s.lastSeq
      else s.cellFault c e t.cause t.epc t.eva t.bd
    | none => s.engineFault e t.cause t.epc t.eva t.bd
  if t.double then s.engineFault e t.cause t.epc t.eva t.bd
  else if t.cause = 4 then cellOr (s.eng (s.head e)).cell
  else if t.cellM then cellOr ran
  else if t.cause = 1 then cellOr (if t.eva.toNat < 0x40000 then s.blockCell (e / 4) (t.eva.toNat / 1024) else none)
  else s.engineFault e t.cause t.epc t.eva t.bd

/-- An engine, and its follower on a pair, changes. -/
def State.updBoth (s : State) (e : Nat) (f : Engine → Engine) : State :=
  let s := s.updEng e f
  s.when ((s.eng e).role == .leader) (fun s => s.updEng (e + 1) f)

/-- An engine can issue: SINGLE or LEADER, or halted by debug and asked for a single step, and neither stalled nor stopped, with the
fabric running; a leader waits while its follower's queue has no room for an instruction (R206, R207, R236, R270, R93). -/
def State.canIssue (s : State) (e : Nat) : Bool :=
  let x := s.eng e
  (x.role == .single || (x.role == .leader && decide ((s.eng (e + 1)).queue.length < 15)) || (x.role == .halted && x.dbg && x.step1)) &&
    !x.stall && !x.sealed && !x.dead && s.coreUp

/-! ### Debug halts (R234, R235) -/

/-- The cells that a halt of engine e concerns: the pair's, or those of the single (R235). -/
def State.haltedCells (s : State) (e : Nat) : List Nat :=
  if (s.eng e).onPair then s.cellsAt (e / 2 * 2) true else s.cellsAt e false

/-- A debug halt is possible: enabled by the configuration, and the pair neither resolves a mismatch nor hands over
(R234). -/
def State.debugOk (s : State) (e : Nat) : Bool :=
  s.loaded && s.cfg.dbgEn && (s.epair (e / 2)).st != .resolving && (s.epair (e / 2)).st != .handover &&
    (s.eng e).role != .out && (s.eng e).role != .halted

/-- A debug halt: the engine, with its pair, stops with the debug request pending; the pair-fail sweep acts on its cells; DEBUG,
DBG_EVT and a record at the leader (R235, R272, R301). -/
def State.debugHalt (s : State) (e : Nat) : State :=
  let k := e / 2
  let cells := s.haltedCells e
  let both := (s.eng e).onPair
  let s := s.cancelSplit k
  let s := cells.foldl (fun s c => s.abandon c 0x3A) s
  let halt := fun (x : Engine) => { x with role := .halted, dbg := true, reqs := [], nreq := 0, cell := none, stall := false,
                                           sealed := false, queue := [], idx := 0, qbad := false,
                                           events := setBit x.events 0x10 true }
  let s := if both then (s.updEng (2 * k) halt).updEng (2 * k + 1) halt else s.updEng e halt
  let s := { s with perm := { s.perm with due := s.perm.due.filter (fun d => if both then d.eng / 2 != k else d.eng != e) } }
  let s := cells.foldl (fun s c => s.toSafe c .held) s
  let s := (s.updEPair k (fun p => { p with l := none, f := none })).setPair k .debug
  (s.pairEvt 2).record { src := 4, code := 10, site := siteEngine (if both then 2 * k else e), d6 := BitVec.ofNat 32 k }

/-! ### What comes before the next instruction (R263, R267, R272) -/

/-- A cycle-budget overrun pending on an engine is taken, on a pair by both engines at the same instruction; a checkpoint that stalls
does not commit. ET_WD counts on from what was written since (R221, R263, R269, R280). -/
def State.overrun (s : State) (e : Nat) : State :=
  let x := s.eng e
  let r := x.fault 4 0 false
  let s := s.updEng e (fun _ => { r.1 with wdHit := false, stall := false, sealed := false })
  let s := s.when (x.role == .leader) (fun s =>
    (s.updEng (e + 1) (fun y => { (y.fault 4 0 false).1 with wdHit := false, stall := false, sealed := false })).updEPair (e / 2)
      (fun p => { p with l := none, f := none }))
  s.consequence e r.2 none

/-- An engine takes events at this boundary (R267, R272). -/
def Engine.takesEvents (x : Engine) : Bool := !x.hnd && (x.cellM || x.eve) && x.ds.isNone && x.mp == 0 && !x.sealed

/-- The lowest pending event. -/
def Engine.lowest (x : Engine) : Option Nat := (List.range 64).find? (fun i => bit x.events i)

/-- An event is pending that the engine, with its follower on a pair, takes at this boundary: no CHKP stalls on either (R272). -/
def State.interrupted (s : State) (e : Nat) : Bool :=
  let x := s.eng e
  x.takesEvents && x.lowest.isSome && !(x.role == .leader && (s.eng (e + 1)).sealed)

/-- The lowest pending event is taken, on a pair by both engines at the same instruction (R215, R272). -/
def State.takeEvent (s : State) (e : Nat) : State :=
  match (s.eng e).lowest with
  | none => s
  | some n =>
    let s := s.updBoth e (fun y => y.enter 7 y.pc false false y.mp 0 n)
    s.updEng e (fun y => { y with events := setBit y.events n false })

/-- A breakpoint stands at the next instruction of an engine that may be halted (R234, R236). -/
def State.atBreak (s : State) (e : Nat) : Bool := (s.eng e).bp == some (s.eng e).pc && s.debugOk e

/-- More requests than the buffer holds, or a queue entry with failed parity: the mismatch or failed diagnostic of R220. -/
def State.overflow (s : State) (e : Nat) : State :=
  let x := s.eng e
  if x.role = .leader then
    if x.nreq > 256 || (s.eng (e + 1)).nreq > 256 then s.mismatch (e / 2) 3
    else if (s.eng (e + 1)).qbad then s.mismatch (e / 2) 6
    else s
  else if x.role = .single && x.nreq > 256 then s.singleFail e
  else s

/-- A single step of a halted engine: no cell and no output learns of it (R236). -/
def State.stepHalted (s : State) (e : Nat) (i : Ins) : State :=
  (s.runOne e none i).s.updEng e (fun x => { x with step1 := false, reqs := [], nreq := 0 })

/-- An engine, with its follower on a pair, issues an instruction. A pending overrun comes first, then an event, then a breakpoint
(R263, R272). `k` follows where no engine faults, `half` where one of the two does (R275). -/
def State.issue (s : State) (e : Nat) (i : Ins) (k : State → State := id) (half : State → Bool → State := fun s _ => s) :
    State :=
  if !s.canIssue e then s
  else if (s.eng e).role = .halted then s.stepHalted e i
  else if (s.eng e).wdHit then s.overrun e
  else if s.interrupted e then s.takeEvent e
  else if s.atBreak e then s.debugHalt e
  else
    let ran := s.running e
    let a := s.runOne e none i
    if (s.eng e).role = .leader then
      let t := a.s.pass e a.feed
      if (s.eng (e + 1)).stall || (s.eng (e + 1)).sealed then
        match a.trap with
        | none => (k t).overflow e
        | some r => t.consequence e r ran
      else
        let q := t.takeFeed (e + 1)
        let b := q.2.runOne (e + 1) (some q.1) i
        match a.trap, b.trap with
        | none, none => (k b.s).overflow e
        | some r, none => (half b.s false).consequence e r ran
        | none, some r => (half b.s true).consequence (e + 1) r ran
        | some r, some _ => b.s.consequence e r ran
    else
      match a.trap with
      | none => (k a.s).overflow e
      | some r => a.s.consequence e r ran

end Sys2Proof.Machine
end

