-- ==== Sys2Proof/Machine/Alu.lean ====
section
/-! DEFINITION. Damuno's arithmetic: major 0x00 by fn (R251), SEL and the immediate forms (R250), division (R253). -/

namespace Sys2Proof.Machine

/-- An instruction that writes gd from the engine's registers. -/
def insG (rd : Nat) (f : Engine → Word) : Ins := { act := fun x => .step (x.setG rd (f x)) }

/-- A three-register ALU form. -/
def alu (rd rs rt : Nat) (f : Word → Word → Word) : Ins := insG rd (fun x => f (x.gr rs) (x.gr rt))

/-- A division form: with ENS.DZE a zero divisor raises the divide-by-zero exception and writes nothing (R253). -/
def divide (rd rs rt : Nat) (f : Word → Word → Word) : Ins :=
  { act := fun x => if x.gr rt = 0 && x.dze then .trap 6 0 else .step (x.setG rd (f (x.gr rs) (x.gr rt))) }

/-- An immediate form. -/
def aluI (rd rs : Nat) (f : Word → Word) : Ins := insG rd (fun x => f (x.gr rs))

/-- ADD (R251). -/
def execAdd (e : Fin 64) (rd rs rt : Fin 32) (s : State) : Host.Outcome State Fault Refusal :=
  doneSettled (s.issue e.val (alu rd.val rs.val rt.val (fun a b => a + b)))
/-- SUB (R251). -/
def execSub (e : Fin 64) (rd rs rt : Fin 32) (s : State) : Host.Outcome State Fault Refusal :=
  doneSettled (s.issue e.val (alu rd.val rs.val rt.val (fun a b => a - b)))
/-- AND (R251). -/
def execAnd (e : Fin 64) (rd rs rt : Fin 32) (s : State) : Host.Outcome State Fault Refusal :=
  doneSettled (s.issue e.val (alu rd.val rs.val rt.val (fun a b => a &&& b)))
/-- OR (R251). -/
def execOr (e : Fin 64) (rd rs rt : Fin 32) (s : State) : Host.Outcome State Fault Refusal :=
  doneSettled (s.issue e.val (alu rd.val rs.val rt.val (fun a b => a ||| b)))
/-- XOR (R251). -/
def execXor (e : Fin 64) (rd rs rt : Fin 32) (s : State) : Host.Outcome State Fault Refusal :=
  doneSettled (s.issue e.val (alu rd.val rs.val rt.val (fun a b => a ^^^ b)))
/-- NOR (R251). -/
def execNor (e : Fin 64) (rd rs rt : Fin 32) (s : State) : Host.Outcome State Fault Refusal :=
  doneSettled (s.issue e.val (alu rd.val rs.val rt.val (fun a b => ~~~(a ||| b))))
/-- SLL (R251). -/
def execSll (e : Fin 64) (rd rs rt : Fin 32) (s : State) : Host.Outcome State Fault Refusal :=
  doneSettled (s.issue e.val (alu rd.val rs.val rt.val (fun a b => shiftBy .left a (b.toNat % 32))))
/-- SRL (R251). -/
def execSrl (e : Fin 64) (rd rs rt : Fin 32) (s : State) : Host.Outcome State Fault Refusal :=
  doneSettled (s.issue e.val (alu rd.val rs.val rt.val (fun a b => shiftBy .logical a (b.toNat % 32))))
/-- SRA (R251). -/
def execSra (e : Fin 64) (rd rs rt : Fin 32) (s : State) : Host.Outcome State Fault Refusal :=
  doneSettled (s.issue e.val (alu rd.val rs.val rt.val (fun a b => shiftBy .arithmetic a (b.toNat % 32))))
/-- SLT (R251). -/
def execSlt (e : Fin 64) (rd rs rt : Fin 32) (s : State) : Host.Outcome State Fault Refusal :=
  doneSettled (s.issue e.val (alu rd.val rs.val rt.val (fun a b => ofBool (a.slt b))))
/-- SLTU (R251). -/
def execSltu (e : Fin 64) (rd rs rt : Fin 32) (s : State) : Host.Outcome State Fault Refusal :=
  doneSettled (s.issue e.val (alu rd.val rs.val rt.val (fun a b => ofBool (a.ult b))))
/-- MUL (R251). -/
def execMul (e : Fin 64) (rd rs rt : Fin 32) (s : State) : Host.Outcome State Fault Refusal :=
  doneSettled (s.issue e.val (alu rd.val rs.val rt.val (fun a b => a * b)))
/-- MULH (R251). -/
def execMulh (e : Fin 64) (rd rs rt : Fin 32) (s : State) : Host.Outcome State Fault Refusal :=
  doneSettled (s.issue e.val (alu rd.val rs.val rt.val mulHi))
/-- MULHU (R251). -/
def execMulhu (e : Fin 64) (rd rs rt : Fin 32) (s : State) : Host.Outcome State Fault Refusal :=
  doneSettled (s.issue e.val (alu rd.val rs.val rt.val mulHiU))
/-- DIV (R251, R253). -/
def execDiv (e : Fin 64) (rd rs rt : Fin 32) (s : State) : Host.Outcome State Fault Refusal :=
  doneSettled (s.issue e.val (divide rd.val rs.val rt.val divS))
/-- DIVU (R251, R253). -/
def execDivu (e : Fin 64) (rd rs rt : Fin 32) (s : State) : Host.Outcome State Fault Refusal :=
  doneSettled (s.issue e.val (divide rd.val rs.val rt.val divU))
/-- REM (R251, R253). -/
def execRem (e : Fin 64) (rd rs rt : Fin 32) (s : State) : Host.Outcome State Fault Refusal :=
  doneSettled (s.issue e.val (divide rd.val rs.val rt.val remS))
/-- REMU (R251, R253). -/
def execRemu (e : Fin 64) (rd rs rt : Fin 32) (s : State) : Host.Outcome State Fault Refusal :=
  doneSettled (s.issue e.val (divide rd.val rs.val rt.val remU))
/-- MIN (R251). -/
def execMin (e : Fin 64) (rd rs rt : Fin 32) (s : State) : Host.Outcome State Fault Refusal :=
  doneSettled (s.issue e.val (alu rd.val rs.val rt.val (fun a b => if a.slt b then a else b)))
/-- MAX (R251). -/
def execMax (e : Fin 64) (rd rs rt : Fin 32) (s : State) : Host.Outcome State Fault Refusal :=
  doneSettled (s.issue e.val (alu rd.val rs.val rt.val (fun a b => if a.slt b then b else a)))
/-- ADDSAT (R251). -/
def execAddsat (e : Fin 64) (rd rs rt : Fin 32) (s : State) : Host.Outcome State Fault Refusal :=
  doneSettled (s.issue e.val (alu rd.val rs.val rt.val (fun a b => satS (a.toInt + b.toInt))))
/-- SUBSAT (R251). -/
def execSubsat (e : Fin 64) (rd rs rt : Fin 32) (s : State) : Host.Outcome State Fault Refusal :=
  doneSettled (s.issue e.val (alu rd.val rs.val rt.val (fun a b => satS (a.toInt - b.toInt))))
/-- SEL (R250). -/
def execSel (e : Fin 64) (rd rs rt k : Fin 32) (s : State) : Host.Outcome State Fault Refusal :=
  doneSettled (s.issue e.val (insG rd.val (fun x => if x.kr k.val then x.gr rs.val else x.gr rt.val)))
/-- ADD.I (R250). -/
def execAddI (e : Fin 64) (rd rs : Fin 32) (imm : Half) (s : State) : Host.Outcome State Fault Refusal :=
  doneSettled (s.issue e.val (aluI rd.val rs.val (fun a => a + sextI imm)))
/-- AND.I (R250). -/
def execAndI (e : Fin 64) (rd rs : Fin 32) (imm : Half) (s : State) : Host.Outcome State Fault Refusal :=
  doneSettled (s.issue e.val (aluI rd.val rs.val (fun a => a &&& zextI imm)))
/-- OR.I (R250). -/
def execOrI (e : Fin 64) (rd rs : Fin 32) (imm : Half) (s : State) : Host.Outcome State Fault Refusal :=
  doneSettled (s.issue e.val (aluI rd.val rs.val (fun a => a ||| zextI imm)))
/-- XOR.I (R250). -/
def execXorI (e : Fin 64) (rd rs : Fin 32) (imm : Half) (s : State) : Host.Outcome State Fault Refusal :=
  doneSettled (s.issue e.val (aluI rd.val rs.val (fun a => a ^^^ zextI imm)))
/-- SLT.I (R250). -/
def execSltI (e : Fin 64) (rd rs : Fin 32) (imm : Half) (s : State) : Host.Outcome State Fault Refusal :=
  doneSettled (s.issue e.val (aluI rd.val rs.val (fun a => ofBool (a.slt (sextI imm)))))
/-- SLTU.I (R250). -/
def execSltuI (e : Fin 64) (rd rs : Fin 32) (imm : Half) (s : State) : Host.Outcome State Fault Refusal :=
  doneSettled (s.issue e.val (aluI rd.val rs.val (fun a => ofBool (a.ult (sextI imm)))))
/-- HI16 (R250). -/
def execHi16 (e : Fin 64) (rd : Fin 32) (imm : Half) (s : State) : Host.Outcome State Fault Refusal :=
  doneSettled (s.issue e.val (insG rd.val (fun _ => zextI imm <<< 16)))
/-- SH.I (R250). -/
def execShI (e : Fin 64) (rd rs : Fin 32) (k : ShKind) (amount : BitVec 5) (s : State) : Host.Outcome State Fault Refusal :=
  doneSettled (s.issue e.val (aluI rd.val rs.val (fun a => shiftBy k a amount.toNat)))

end Sys2Proof.Machine
end

