-- ==== Sys2Proof/Machine/Panels.lean ====
section
/-! DEFINITION. The views that the process images and the registers share: inputs (R144), outputs and sources (R186),
trip state (R204), permits (R289), Wilis receive entries (R356), speed and stop data (R335), and the input snapshot of a
cell (R289). -/

namespace Sys2Proof.Machine

/-- A word from 32 truths, bit 0 first. -/
def wordOf (f : Nat → Bool) : Word := (List.range 32).foldl (fun w i => if f i then w ||| atBit 32 i true else w) 0
/-- A word from four bytes by number. -/
def wordOf4 (f : Nat → Byte) : Word := word4 [f 0, f 1, f 2, f 3]

/-! ### Inputs (R144) -/

/-- IN_QUAL_b. -/
def State.inQualW (s : State) (b : Nat) : Word := wordOf (fun i => s.qual (32 * b + i))
/-- IN_RAW_b. -/
def State.inRawW (s : State) (b : Nat) : Word := wordOf (fun i => (s.inp (32 * b + i)).raw)
/-- IN_PAIR_b. -/
def State.inPairW (s : State) (b : Nat) : Word :=
  wordOf (fun i => if i < 16 then s.pairOn (16 * b + i) else decide ((s.pair (16 * b + (i - 16))).st = .fault))
/-- IN_CODE_w. -/
def State.inCodeW (s : State) (w : Nat) : Word := wordOf4 (fun k => (s.inp (4 * w + k)).code)

/-- The period as it reads: saturated where the pair of edges lies more than 2^32 ns back (R140). -/
def State.encPeriod (s : State) (e : Nat) : Word :=
  let r := s.enc e
  if decide (s.since r.perAt ≥ 2 ^ 32) then 0xFFFFFFFF#32 else r.period

/-- ENC_STAT_e. -/
def State.encStatW (s : State) (e : Nat) : Word :=
  let r := s.enc e
  atBit 32 0 r.dir ||| atBit 32 1 (r.valid && s.encActive e) ||| atLsb 32 2 r.evt.toNat ||| atLsb 32 8 r.queue.length

/-! ### Outputs and sources (R186) -/

/-- OUT_CODE_w. -/
def State.outCodeW (s : State) (w : Nat) : Word := wordOf4 (fun k => (s.out (4 * w + k)).code)
/-- TP_CODE_w. -/
def State.tpCodeW (s : State) (w : Nat) : Word := wordOf4 (fun k => (s.tp (4 * w + k)).code)

/-! ### Trips and permits (R204, R289) -/

/-- TRIP_ACT_w. -/
def State.tripActW (s : State) (w : Nat) : Word := wordOf (fun i => s.term (32 * w + i))

/-- State of a latch: 0 ARMED, 1 TRIPPED, 2 RELEASABLE (R204). -/
def latchCode (arm rel : BitVec 64) (o : Nat) : Nat := if bit arm o then 0 else if bit rel o then 2 else 1

/-- TRIP_STATE_A_w or TRIP_STATE_B_w. -/
def State.tripStateW (s : State) (x : AB) (w : Nat) : Word :=
  let f := match x with
    | .a => latchCode s.lid.armA s.lid.relA
    | .b => latchCode s.lid.armB s.lid.relB
  (List.range 16).foldl (fun v k => v ||| atLsb 32 (2 * k) (f (16 * w + k))) 0

/-- TRIP_CAUSE_o. -/
def State.tripCauseW (s : State) (o : Nat) : Word :=
  let c := Tab.get {} s.lid.cause o
  atLsb 32 0 c.term.toNat ||| atBit 32 9 c.valid ||| atBit 32 10 c.dis ||| atLsb 32 16 c.count.toNat

/-- Combined permits of outputs 32h to 32h + 31. -/
def State.permitW (s : State) (h : Nat) : Word := wordOf (fun i => s.combined (32 * h + i))

/-! ### Receive entries (R356) -/

/-- The receive entry of connection n (R356). -/
def State.entryWords (s : State) (n : Nat) : List Word :=
  let c := s.conn n
  let v := c.valid && decide (c.st = .open)
  let w0 := atLsb 32 0 n ||| atBit 32 16 v ||| atBit 32 17 (v && c.passv) ||| atBit 32 18 c.first |||
    atBit 32 19 (s.connDual n) ||| atBit 32 20 c.up0 ||| atBit 32 21 c.up1 ||| atLsb 32 24 c.code.toNat
  [w0, atLsb 32 0 c.rx.toNat ||| atLsb 32 16 c.lostO.toNat, c.stamp,
   if v then (s.micros - c.stamp) else 0xFFFFFFFF#32, BitVec.ofNat 32 c.rxAt, atLsb 32 0 c.st.n] ++
  List.replicate 10 0 ++
  (List.range 16).map (fun j => if v && !c.passv && decide (j < s.connRx n) then c.data.getD j 0 else 0)

/-- The receive entry that a snapshot takes: a frame of the same tick does not show yet (R358). -/
def State.snapEntry (s : State) (n : Nat) : List Word :=
  let c := s.conn n
  if c.st = .open ∧ c.rxAt = s.now ∧ c.was ≠ [] then c.was else s.entryWords n

/-! ### Axis and group records (R311, R312), speed and stop data (R335) -/

/-- Word i of the record of axis a. -/
def State.axW (s : State) (a i : Nat) : Word := (Tab.get [] s.cfg.axes a).getD i 0
/-- Word i of the record of group g. -/
def State.grpW (s : State) (g i : Nat) : Word := (Tab.get [] s.cfg.groups g).getD i 0
/-- The axis is a Wilis axis. -/
def State.axWilis (s : State) (a : Nat) : Bool := bit (s.axW a 0) 1

/-- State code of a group (R321). -/
def GState.n : GState → Nat
  | .unused => 0
  | .run => 1
  | .sos => 2
  | .stopping => 3
  | .stoppingT => 4
  | .sto => 5

/-- V_BOUND as reported: saturated on an axis without feedback (R319). -/
def Axis.shown (x : Axis) : Nat := if x.code != 0 then 0xFFFFFFFF else x.bound
/-- The axis counts as standing still at a limit: settled, with feedback (R315, R319, R326). -/
def Axis.below (x : Axis) (limit : Nat) : Bool := x.code == 0 && !x.wasUn && decide (x.bound ≤ limit)

/-- The eight words of axis a (R335). -/
def State.axisWords (s : State) (a : Nat) : List Word :=
  let x := s.axis a
  let grpSt := (s.grp (fld (s.axW a 0) 26 23)).st
  let dir := if s.axWilis a then decide (x.est < 0) else (s.enc (fld (s.axW a 0) 4 2)).dir
  let st := atBit 32 0 (!x.wasUn && x.code == 0) ||| atBit 32 1 x.wasUn ||| atBit 32 2 (x.code != 0) |||
    atBit 32 3 dir ||| atBit 32 4 x.slsV ||| atBit 32 5 x.envV ||| atBit 32 6 x.sosV |||
    atBit 32 7 (x.below (s.axW a 9).toNat) ||| atLsb 32 8 x.code.toNat
  [BitVec.ofInt 32 x.est, BitVec.ofNat 32 x.shown, BitVec.ofInt 32 x.xval, if grpSt = .sos then BitVec.ofInt 32 x.disp else 0,
   BitVec.ofNat 32 x.lim, if grpSt = .stopping then BitVec.ofNat 32 x.env else 0xFFFFFFFF#32, st, if s.axWilis a then BitVec.ofNat 32 x.age else 0]

/-- The four words of group g (R335). -/
def State.groupWords (s : State) (g : Nat) : List Word :=
  let x := s.grp g
  [atLsb 32 0 x.st.n ||| atLsb 32 4 x.cause.toNat, BitVec.ofNat 32 x.launch, BitVec.ofNat 32 (x.launch / 2 ^ 32),
   match x.still with | some t => BitVec.ofNat 32 (s.since t / 1000) | none => 0]

/-! ### FiminLink slots (R370) -/

/-- Words of a byte list. -/
def wordsOf (l : List Byte) : List Word := (List.range ((l.length + 3) / 4)).map (fun i => word4 (l.drop (4 * i)))

/-- Number of the present FiminLink cycle (R368, R385). -/
def State.cycNo (s : State) : Word := BitVec.ofNat 32 (s.now / 50000)

/-- A valid copy arrived on this ring in a cycle. -/
def RxRing.has (x : RxRing) (c : Word) : Bool := decide ((x.last - c).toNat < 8) && bit x.hist (x.last - c).toNat

/-- A valid copy arrived on either ring in a cycle. -/
def Peer.heard (p : Peer) (c : Word) : Bool := p.a.has c || p.b.has c

/-- The slot of module m as a process image shows it: the last body with a valid copy in this cycle or the last; the own
slot as last sent. -/
def State.slotWords (s : State) (m : Nat) : List Word :=
  let p := s.peer m
  if m = s.modAddr then wordsOf s.flk.last
  else if p.heard s.cycNo || p.heard (s.cycNo - 1) then wordsOf p.body
  else []

/-! ### The snapshot (R289) -/

/-- Words at consecutive places, with their word offsets. -/
def placed (at_ : Nat) (l : List Word) : List (Nat × Word) := (List.range l.length).map (fun i => (at_ + i, l.getD i 0))

/-- Words put into a table. -/
def putAll (t : Tab Word) (l : List (Nat × Word)) : Tab Word := l.foldl (fun t e => Tab.put 0 t e.1 e.2) t

/-- The speed and stop data of the groups of a cell, by word offset of its process image. -/
def State.stopWords (s : State) (c : Nat) : List (Nat × Word) :=
  (s.groupsOf c).flatMap (fun g =>
    placed (0x1C00 / 4 + 8 * g) (s.groupWords g) ++
    (s.axesOf g).flatMap (fun a => placed (0x1000 / 4 + 12 * a) (s.axisWords a)))

/-- The connections of every cell on a cell's engine or pair. -/
def State.connsOn (s : State) (c : Nat) : List Nat :=
  let x := s.cell c
  (s.cellsAt x.eng x.onP).flatMap (fun d => match (s.cell d).ver with | some v => v.conns | none => [])

/-- The process image of a release of cell c: cycle number, snapshot tick, flags, and everything else of R289 but the
speed and stop data. -/
def State.snapshot (s : State) (c : Nat) (first hand : Bool) : Tab Word :=
  let x := s.cell c
  let flags := atBit 32 0 first ||| atBit 32 1 hand ||| atBit 32 2 x.dEng ||| atBit 32 3 x.dRing ||| atBit 32 4 x.dNet
  let head := [BitVec.ofNat 32 (s.now / 125000), s.tb.tb.extractLsb' 0 32, s.tb.tb.extractLsb' 32 32, flags,
               BitVec.ofNat 32 (s.degrMs c)]
  let fixed :=
    placed 0 head ++
    placed 0x8 ((List.range 4).map s.inQualW) ++ placed 0xC ((List.range 4).map s.inPairW) ++
    placed 0x10 ((List.range 32).map s.inCodeW) ++
    placed 0x30 ((List.range 8).flatMap (fun e => [(s.enc e).count, s.encPeriod e, (s.enc e).window, s.encStatW e])) ++
    placed 0x50 ((List.range 4).map (s.tripStateW .a)) ++ placed 0x54 ((List.range 4).map (s.tripStateW .b)) ++
    placed 0x58 ((List.range 32).map (fun w =>
      (s.tripCauseW (2 * w) &&& 0xFFFF#32) ||| ((s.tripCauseW (2 * w + 1) &&& 0xFFFF#32) <<< 16))) ++
    placed 0x78 ((List.range 16).map s.outCodeW) ++ placed 0x88 ((List.range 8).map s.tpCodeW) ++
    placed 0x90 ((List.range 16).map s.tripActW) ++ placed 0xA0 ((List.range 2).map s.permitW)
  let rx := (s.connsOn c).flatMap (fun n => placed (0x2000 / 4 + 32 * Tab.get 0 s.cfg.rxIdx n) (s.snapEntry n))
  let slots := if s.cfg.flkEn then (List.range 16).flatMap (fun m => placed (0xA000 / 4 + 32 * m) (s.slotWords m)) else []
  putAll [] (fixed ++ rx ++ slots)

end Sys2Proof.Machine
end

