-- ==== Sys2Proof/Machine/Stop.lean ====
section
/-! DEFINITION. The stop service (R310 to R335): speed bounds, feedback checks, the envelope of SS1, SOS, SLS, group states,
and the group requests and SLS selections that a commit brings. Quotients of bounds are rounded up and those of limits
down, so a comparison with a limit comes out as in exact arithmetic. -/

namespace Sys2Proof.Machine

/-- A quotient rounded up. -/
def cdiv (a b : Nat) : Nat := (a + b - 1) / b
/-- Saturation of a speed (R314). -/
def satV (n : Nat) : Nat := min 0xFFFFFFFF n

/-! ### Wilis values -/

/-- A connection has valid data at this snapshot (R313, R318 WD, R356). -/
def State.connValid (s : State) (n : Nat) : Bool := bit ((s.snapEntry n).getD 0 0) 16
/-- Its last frame is passivated. -/
def State.connPassv (s : State) (n : Nat) : Bool := bit ((s.snapEntry n).getD 0 0) 17
/-- STAMP of its last frame. -/
def State.connStamp (s : State) (n : Nat) : Word := (s.snapEntry n).getD 2 0
/-- Safe-data word j as its receive entry shows it. -/
def State.connData (s : State) (n j : Nat) : Word := (s.snapEntry n).getD (16 + j) 0

/-! ### One axis (R314 to R319) -/

/-- The source of the axis's speed is valid (R315). -/
def State.axValid (s : State) (a : Nat) : Bool :=
  if s.axWilis a then s.connValid (fld (s.axW a 0) 14 5)
  else (s.enc (fld (s.axW a 0) 4 2)).valid && s.encActive (fld (s.axW a 0) 4 2)

/-- V_EST of a settled axis (R314, R317). -/
def State.axEst (s : State) (a t : Nat) : Int :=
  if s.axWilis a then (s.connData (fld (s.axW a 0) 14 5) (fld (s.axW a 0) 18 15)).toInt
  else
    let e := fld (s.axW a 0) 4 2
    let dn := (s.enc e).window.toInt
    let per := s.encPeriod e
    if per ≠ 0xFFFFFFFF#32 ∧ dn.natAbs ≤ 4 then
      let v : Int := (4000000000 / per.toNat : Nat)
      if (s.enc e).dir then -v else v
    else Int.tdiv (dn * 1000000000) t

/-- V_BOUND of a settled axis (R314, R317). -/
def State.axBound (s : State) (a t : Nat) : Nat :=
  let amax := (s.axW a 4).toNat
  if s.axWilis a then
    let n := fld (s.axW a 0) 14 5
    satV ((s.axEst a t).natAbs + (s.axW a 5).toNat + cdiv (amax * s.ageOf (s.connStamp n)) 1000000)
  else
    let e := fld (s.axW a 0) 4 2
    let dn := (s.enc e).window.toInt.natAbs
    let per := s.encPeriod e
    let vper := if per = 0xFFFFFFFF#32 then 0 else cdiv 4000000000 per.toNat
    satV (max (cdiv ((dn + 1) * 1000000000) t) vper + cdiv (amax * t) 1000000000)

/-- The cross-check value (R311). -/
def State.axCross (s : State) (a : Nat) : Int :=
  if bit (s.axW a 1) 0 then (s.connData (fld (s.axW a 1) 10 1) (fld (s.axW a 1) 14 11)).toInt else 0

/-- A condition's start instant: kept while it holds, else none. -/
def keepStart (was : Option Nat) (now : Nat) (holds : Bool) : Option Nat :=
  if holds then some (was.getD now) else none

/-- A condition has held for a time. -/
def State.heldFor (s : State) (t : Option Nat) (d : Nat) : Bool :=
  match t with
  | some t => decide (s.since t ≥ d)
  | none => false

/-- The lowest code of R318 whose condition is present at this evaluation, or 0; the axis carries its timers already. An encoder's
faults are those since its last re-arm, which no register write clears (R10). -/
def State.axCode (s : State) (a : Nat) (x : Axis) (est : Int) (bound t : Nat) : Nat :=
  let w := s.axWilis a
  let e := fld (s.axW a 0) 4 2
  let n := fld (s.axW a 0) 14 5
  let xen := bit (s.axW a 1) 0
  let xn := fld (s.axW a 1) 10 1
  let cn := fld (s.axW a 2) 10 1
  let tx := ms (fld (s.axW a 1) 24 15)
  let tf := ms (fld (s.axW a 2) 29 20)
  let amax := (s.axW a 4).toNat
  let ev := (s.enc e).flt
  let encBad := !w && !s.axValid a
  let jump := (est - x.est).natAbs
  let room := amax * t / 1000000000 + (if w then 2 * (s.axW a 5).toNat else 2000000000 / t)
  if encBad && bit ev 2 then 1
  else if encBad && (bit ev 0 || !bit ev 1) then 2
  else if encBad then 3
  else if s.heldFor x.noE tx && x.noE.isSome then 4
  else if s.heldFor x.xchk tx && x.xchk.isSome then 5
  else if (w && !s.connValid n) || (xen && !s.connValid xn) || (bit (s.axW a 2) 0 && !s.connValid cn) then 6
  else if (w && s.connPassv n) || (xen && s.connPassv xn) then 7
  else if w && s.heldFor x.frzC tf then 8
  else if w && bit (s.axW a 2) 30 && s.connData n (fld (s.axW a 0) 18 15) != 0 && s.heldFor x.frzV tf then 9
  else if decide (jump > room) then 10
  else if decide (bound > (s.axW a 3).toNat) then 11
  else if w && decide (s.ageOf (s.connStamp n) > 125 * fld (s.axW a 1) 31 25) then 12
  else 0

/-- One evaluation of an axis (R314 to R319). -/
def State.evalAxis (s : State) (a : Nat) : State :=
  let x := s.axis a
  let t := s.since x.lastT
  let valid := s.axValid a
  let w := s.axWilis a
  let un := x.unset || (x.inval && valid)
  let n := fld (s.axW a 0) 14 5
  let cword := s.connData n (fld (s.axW a 0) 22 19)
  let vword := s.connData n (fld (s.axW a 0) 18 15)
  let xv := s.axCross a
  let xtol := (s.axW a 6).toNat
  let est := if un then 0 else s.axEst a t
  let bound := if un then (s.axW a 3).toNat else s.axBound a t
  let xen := bit (s.axW a 1) 0
  let dn := (s.enc (fld (s.axW a 0) 4 2)).window
  let y := { x with
    noE := if un then none else keepStart x.noE s.now (xen && !w && decide (xv.natAbs > xtol) && dn == 0),
    xchk := if un then none else keepStart x.xchk s.now (xen && decide ((est - xv).natAbs > xtol)),
    frzC := if cword = x.lastC then some (x.frzC.getD s.now) else some s.now,
    frzV := if vword = x.lastV then some (x.frzV.getD s.now) else some s.now,
    lastC := cword, lastV := vword }
  let code := if un then 0 else s.axCode a y est bound t
  s.updAxis a (fun _ => { y with
    est := est, bound := bound, xval := xv, lastT := s.now, wasUn := un, inval := !valid,
    unset := x.unset && w && !valid, cond := code != 0,
    code := if x.code = 0 then BitVec.ofNat 8 code else x.code,
    age := if w then s.ageOf (s.connStamp n) else 0 })

/-! ### Limits (R325, R328, R329) -/

/-- T_SLS of the group of an axis in ns. -/
def State.tSls (s : State) (a : Nat) : Nat := ms (fld (s.grpW (fld (s.axW a 0) 26 23) 4) 15 0)

/-- V_LIM at this instant: the new limit, or the ramp towards it (R329). -/
def State.limNow (s : State) (a : Nat) : Nat :=
  let x := s.axis a
  let t := s.tSls a
  if x.limN ≥ x.limO ∨ t ≤ s.since x.ramp0 then x.limN
  else x.limO - cdiv ((x.limO - x.limN) * s.since x.ramp0) t

/-- The limit of a selection: 0 off (R329). -/
def State.slsLimit (s : State) (a k : Nat) : Nat := if k = 0 then 0xFFFFFFFF else (s.axW a (11 + k)).toNat

/-- The selection that a request names: an invalid one selects the lowest limit (R322). -/
def State.slsSel (s : State) (a : Nat) (v : Word) : Nat :=
  if v.toNat ≤ 4 then v.toNat
  else (List.range 3).foldl (fun k i => if s.slsLimit a (i + 2) < s.slsLimit a k then i + 2 else k) 1

/-- A committed SLS selection (R329). -/
def State.slsSelect (s : State) (a : Nat) (v : Word) : State :=
  let x := s.axis a
  let k := s.slsSel a v
  let l := s.slsLimit a k
  let sameLim := k == x.sel && l == x.limN
  if sameLim then s
  else if l = x.limN then s.updAxis a (fun x => { x with sel := k })
  else if l ≥ x.limN then s.updAxis a (fun x => { x with sel := k, limO := l, limN := l, lim := l, ramp0 := s.now })
  else
    let from_ := if x.sel = 0 then (s.axW a 3).toNat else s.limNow a
    s.updAxis a (fun x => { x with sel := k, limO := from_, limN := l, lim := from_, ramp0 := s.now })

/-- V_ENV at time d after the launch (R325). -/
def State.envAt (s : State) (g a d : Nat) : Nat :=
  let x := s.axis a
  let top := x.vl + (s.axW a 8).toNat
  let dly := us (fld (s.grpW g 1) 19 0)
  if d < dly then top
  else max (s.axW a 9).toNat (top - cdiv ((s.axW a 7).toNat * (d - dly)) 1000000000)

/-! ### Launch and STO (R321, R324) -/

/-- The command bit of every CMDCONN of a group is set in each frame from now on (R324). -/
def State.commandStop (s : State) (g : Nat) : State :=
  (s.axesOf g).foldl (fun s a =>
    let w := s.axW a 2
    s.when (bit w 0) (fun s => s.updConn (fld w 10 1) (fun c =>
      { c with cmdOr := Tab.upd 0 c.cmdOr (fld w 14 11) (fun v => v ||| atBit 32 (fld w 19 15) true) }))) s

/-- A hand-over of cell c ends with the new version or instance dropped and the running one left as it is: for an SS1 under
the old records (R333), and for a degraded-mode expiry (R306). -/
def State.dropNew (s : State) (c : Nat) : State :=
  if !s.handingOver c then s
  else
    let x := s.cell c
    let s := s.restoreInputs c
    let s := match x.nver with
      | none => s
      | some v => (s.freeAreas v (x.neng / 4) x.ncblk x.nsblk).updCts v (fun t => { t with b1 := false })
    let s := s.updSlots c (fun _ y => { y with use1 := false, p1 := false, follow := false })
    let s := s.mapSlots (Tab.mapKV {} (fun _ y => if y.cell = some c ∧ !y.use0 then {} else y))
    let s := (s.updCell c (fun x => { x with nver := none })).loadMasks
    let s := s.updChan s.ho.chan (fun h => { h with armed := false, use := .none })
    let s := { s with ho := { s.ho with step := .idle, rest := [] } }
    let s := s.hoFinish 0x3A
    let s := s.cellRec 8 c 0x3A
    let s := s.log { kind := 11, cell := some c, d12 := 0x3A, site := s.cellSite c }
    (s.when ((s.cell c).st == .handover) (fun s => s.setCell c .running)).cellEvt 5

/-- SS1 of a group is launched: it acts in RUN or SOS; in any other state it changes nothing and is recorded, which the model does in a
count of its own, since R529 lists no record for it (R324). -/
def State.launchSs1 (s : State) (g : Nat) : State :=
  let x := s.grp g
  if x.st = .run ∨ x.st = .sos then
    let s := s.updGrp g (fun x => { x with st := .stopping, launch := s.now, fresh := true, still := none })
    (s.commandStop g).when (s.ho.step == .running) (fun s => s.dropNew (fld (s.grpW g 0) 10 1))
  else s.updGrp g (fun x => { x with idle := satInc x.idle })

/-- A group enters STO; its outputs are withdrawn in the same commit tick (R323, R331). -/
def State.enterSto (s : State) (g cause : Nat) : State :=
  let s := s.updGrp g (fun x => { x with st := .sto, cause := BitVec.ofNat 4 cause, still := none, bothOn := false })
  let s := (s.axesOf g).foldl (fun s a => s.updAxis a (fun x => { x with env := 0xFFFFFFFF, disp := 0 })) s
  let s := s.commandEnd g
  let w := s.grpW g 0
  let c := fld w 10 1
  let off := fun (s : State) (o : Nat) =>
    let s := s.mapSlots (Tab.mapKV {} (fun i x =>
      if i / 4 = o ∧ x.cell = some c then { x with p0 := false, p1 := false } else x))
    { s with perm := { s.perm with held := s.perm.held.filter (fun h => !(h.cell == c && h.slot / 4 == o)) } }
  off (off s (fld w 16 11)) (fld w 22 17)

/-- SS1 by time begins at this evaluation; a running stop's launch is kept (R320). -/
def State.startTimed (s : State) (g : Nat) : State :=
  let s := s.updGrp g (fun x => { x with st := .stoppingT, tLaunch := s.now,
                                         launch := if x.st = .stopping then x.launch else s.now })
  s.commandStop g

/-! ### One group (R320 to R329) -/

/-- A latch of output o is TRIPPED (R323). -/
def State.tripped (s : State) (o : Nat) : Bool :=
  latchCode s.lid.armA s.lid.relA o == 1 || latchCode s.lid.armB s.lid.relB o == 1

/-- The condition of cause 8 (R323). -/
def State.torqueLost (s : State) (g : Nat) : Bool :=
  let a := fld (s.grpW g 0) 16 11
  let b := fld (s.grpW g 0) 22 17
  ((s.grp g).bothOn && !(s.combined a && s.combined b)) || s.tripped a || s.tripped b

/-- The SS1 part: V_L at the first evaluation, envelope, standstill timer, and the cause of an end, 0 for none (R325,
R326, R334). -/
def State.evalStopping (s : State) (g : Nat) : State × Nat :=
  let x := s.grp g
  let axes := s.axesOf g
  let s := if x.fresh then
      (axes.foldl (fun s a => s.updAxis a (fun y => { y with vl := y.bound })) s).updGrp g (fun x => { x with fresh := false })
    else s
  let d := s.since x.launch
  let s := axes.foldl (fun s a =>
    let env := s.envAt g a d
    s.updAxis a (fun y => { y with env := env, envV := y.code == 0 && decide (y.bound > env) })) s
  let quiet := axes.all (fun a => (s.axis a).below (s.axW a 9).toNat)
  let still := keepStart x.still s.now quiet
  let s := s.updGrp g (fun x => { x with still := still })
  let cause := if axes.any (fun a => (s.axis a).envV) then 2
    else if d ≥ ms (fld (s.grpW g 3) 15 0) then 3
    else if quiet && s.heldFor still (us (fld (s.grpW g 2) 19 0)) then 1
    else 0
  (s, cause)

/-- Displacements and SOS violation of a group in SOS (R328). -/
def State.evalSos (s : State) (g : Nat) : State × Bool :=
  let axes := s.axesOf g
  let s := axes.foldl (fun s a => s.updAxis a (fun x =>
    let d : Int := if s.axWilis a then x.disp + Int.tdiv (x.est * (s.since x.ref.toNat : Int)) 1000000000
      else ((s.enc (fld (s.axW a 0) 4 2)).count - BitVec.ofInt 32 x.ref).toInt
    { x with disp := d, ref := if s.axWilis a then (s.now : Int) else x.ref,
             sosV := x.code == 0 && (decide (d.natAbs > (s.axW a 11).toNat) || decide (x.bound > (s.axW a 10).toNat)) })) s
  (s, axes.any (fun a => (s.axis a).sosV))

/-- Entry into SOS: the position references (R328). For a Wilis axis the field holds the instant of the last sum. -/
def State.enterSos (s : State) (g : Nat) : State :=
  let s := s.updGrp g (fun x => { x with st := .sos })
  (s.axesOf g).foldl (fun s a => s.updAxis a (fun x =>
    { x with disp := 0, sosV := false,
             ref := if s.axWilis a then (s.now : Int) else ((s.enc (fld (s.axW a 0) 4 2)).count.toNat : Int) })) s

/-- One evaluation of a group of a cell at its release (R313, R320 to R329). -/
def State.evalGroup (s : State) (c g : Nat) : State :=
  if (s.grp g).st = .unused then s
  else
    let axes := s.axesOf g
    let s := axes.foldl (fun s a => s.evalAxis a) s
    let s := axes.foldl (fun s a => s.updAxis a (fun x =>
      { x with lim := s.limNow a, slsV := (s.grp g).st == .run && x.code == 0 && decide (x.bound > s.limNow a),
               env := if (s.grp g).st = .stopping then x.env else 0xFFFFFFFF, envV := false, sosV := false })) s
    let late := decide (s.since (s.grp g).reqAt > 2 * (s.cell c).cyc + 5000)
    let s := s.updGrp g (fun x => { x with ss1 := x.ss1 || late })
    let s := s.when (late || (s.cell c).expd) (fun s => s.launchSs1 g)
    let lost := axes.any (fun a => (s.axis a).code != 0)
    let fbr := bit (s.grpW g 0) 23
    let both := s.combined (fld (s.grpW g 0) 16 11) && s.combined (fld (s.grpW g 0) 22 17)
    let s : State := match (s.grp g).st with
      | .run =>
        if lost && !fbr then s.enterSto g 4
        else if axes.any (fun a => (s.axis a).slsV) then
          if bit (s.grpW g 0) 24 then s.enterSto g 7
          else if lost then s.startTimed g else s.launchSs1 g
        else if lost then s.startTimed g
        else if ((s.grp g).sos || (s.grp g).nsos) && axes.all (fun a => (s.axis a).below (s.axW a 10).toNat) then s.enterSos g
        else s
      | .sos =>
        let r := s.evalSos g
        if lost && !fbr then r.1.enterSto g 4
        else if r.2 then r.1.enterSto g 6
        else if lost then r.1.startTimed g
        else r.1
      | .stopping =>
        let r := s.evalStopping g
        if lost && !fbr then r.1.enterSto g 4
        else if r.2 ≠ 0 then r.1.enterSto g r.2
        else if lost then r.1.startTimed g
        else r.1
      | .stoppingT =>
        let x := s.grp g
        if s.since x.launch ≥ ms (fld (s.grpW g 3) 15 0) ∨ s.since x.tLaunch ≥ ms (fld (s.grpW g 5) 15 0) then s.enterSto g 5
        else s
      | _ => s
    let st := (s.grp g).st
    if st = .sto ∨ st = .unused then s
    else if s.torqueLost g then s.enterSto g 8
    else s.updGrp g (fun x => { x with bothOn := x.bothOn || both })

/-- The stop service at a release of cell c: every group it owns (R313). In the new version's releases of a hand-over its
own records apply (R333). -/
def State.stopService (s : State) (c : Nat) (newV : Bool) : State :=
  let cfg := s.cfg
  let s := if newV then { s with cfg := { cfg with axes := s.ho.axes, groups := s.ho.groups } } else s
  let s := (s.groupsOf c).foldl (fun s g => s.evalGroup c g) s
  { s with cfg := cfg }

/-! ### Requests of a commit (R322, R323, R328, R332 to R334) -/

/-- A RELEASE may act: STO, no SS1 request, no condition of R318 present, no axis UNSETTLED (R332). -/
def State.releaseOk (s : State) (g : Nat) : Bool :=
  (s.grp g).st == .sto && !(s.grp g).ss1 && !(s.grp g).nss1 && (s.axesOf g).all (fun a => !(s.axis a).cond && !(s.axis a).wasUn)

/-- An accepted RELEASE: RUN, the codes clear, and an axis whose code cleared is UNSETTLED at its next evaluation (R319,
R332). -/
def State.releaseGroup (s : State) (g : Nat) : State :=
  let s := s.updGrp g (fun x => { x with st := .run, bothOn := false, still := none })
  (s.axesOf g).foldl (fun s a => s.updAxis a (fun x => { x with code := 0, unset := x.unset || x.code != 0 })) s

/-- The encoder interfaces of a group's axes are re-armed (R141). DESIGN CHOICE: the owner re-arms them with a RELEASE. -/
def State.rearmGroup (s : State) (g : Nat) : State :=
  (s.axesOf g).foldl (fun s a =>
    let e := fld (s.axW a 0) 4 2
    s.when (!s.axWilis a && !(s.enc e).valid) (fun s => s.rearmEnc e)) s

/-- A committed request of group g by a version of its owner (R322). -/
def State.groupRequest (s : State) (c g : Nat) (newV : Bool) (v : Word) : State :=
  let x := s.grp g
  let hand := s.handingOver c && s.ho.step == .running
  let ss1 := bit v 0 || decide (8 ≤ v.toNat)
  let sos := bit v 1
  let rel := bit v 2
  let was := if hand then x.rel && x.nrel else x.rel
  let s := s.updGrp g (fun x =>
    if newV then { x with nss1 := ss1, nsos := sos, nrel := rel, reqAt := s.now }
    else { x with ss1 := ss1, sos := sos, rel := rel, reqAt := s.now,
                  nsos := if hand then x.nsos else false, nrel := if hand then x.nrel else false,
                  nss1 := if hand then x.nss1 else false })
  let y := s.grp g
  let now := if hand then y.rel && y.nrel else y.rel
  let s := s.when (now && !was) (fun s => s.rearmGroup g)
  if ss1 then s.launchSs1 g
  else if now && !was && s.releaseOk g then s.releaseGroup g
  else if x.st = .sos && !(y.sos || (hand && y.nsos)) then
    (s.axesOf g).foldl (fun s a => s.updAxis a (fun x => { x with disp := 0 })) (s.updGrp g (fun x => { x with st := .run }))
  else s

/-- A permit request of cell c for output o is taken as a withdrawal: a group of the cell that names the output is in STO
(R323). -/
def State.stoHolds (s : State) (c o : Nat) : Bool :=
  (s.groupsOf c).any (fun g =>
    (s.grp g).st == .sto && (fld (s.grpW g 0) 16 11 == o || fld (s.grpW g 0) 22 17 == o))

end Sys2Proof.Machine
end

