-- ==== Sys2Proof/Machine/Channels.lean ====
section
/-! DEFINITION. Compare channels (R94 to R100, R106, R111) and the timebase commands: what a channel does when it fires,
how a channel is armed, TB_LO reads (R83), lock timeout (R90) and leap seconds (R108). -/

namespace Sys2Proof.Machine

/-! ### Parts of an action -/

/-- Value V of an armed channel (R94). -/
def Chan.value (c : Chan) : Nat := c.val.toNat
/-- The 64-bit value formed by both words (R95). -/
def Chan.words (c : Chan) : Nat := c.hi.toNat * 2 ^ 32 + c.lo.toNat
/-- ACT. -/
def Chan.code (c : Chan) : Nat := fld c.act 3 0

/-- A standard output takes a level: a write that names it ends its silence state and its wait (R172, R174, R178). -/
def State.setStd (s : State) (o : Nat) (level : Bool) : State :=
  s.updOut o (fun r => { r with level := level, stdWait := false, a := { r.a with keep := none }, b := { r.b with keep := none } })

/-- The host process image (R401); `chan` is the channel of action 0x2, none for the present state. -/
def State.hostImage (s : State) (chan : Option Nat) : List Word :=
  let flags := atBit 32 0 true ||| (match chan with | some n => atBit 32 1 true ||| atLsb 32 2 n | none => 0)
  [s.tb.tb.extractLsb' 0 32, s.tb.tb.extractLsb' 32 32, flags, 0] ++
  (List.range 4).map s.inQualW ++ (List.range 4).map s.inPairW ++
  (List.range 2).map (fun h => wordOf (fun i => (s.out (32 * h + i)).conducts)) ++
  (List.range 2).map (fun h => wordOf (fun i => (s.outRec (32 * h + i)).mode == 2 && (s.out (32 * h + i)).level)) ++
  (List.range 2).map s.permitW ++ List.replicate 14 0

/-- The instance bit of a held change turns on (R98). -/
def State.applyHeld (s : State) (h : Held) : State :=
  s.mapSlots (fun t => Tab.upd {} t h.slot (fun x =>
      if h.second then { x with p1 := true, t1 := s.now }
      else { x with p0 := true, t0 := s.now, p1 := if x.follow then true else x.p1 }))

/-- Some channel of action 0x4 of a cell is armed (R98). -/
def State.heldArmed (s : State) (c : Nat) : Bool :=
  s.chans.any (fun e => e.2.armed && e.2.code == 4 && e.2.cell == some c)

/-- The last armed 0x4 channel of a cell has fired: its held changes take effect (R98). -/
def State.releaseHeld (s : State) (c : Nat) : State :=
  if s.heldArmed c then s
  else
    let mine := s.perm.held.filter (fun h => h.cell == c)
    let s := { s with perm := { s.perm with held := s.perm.held.filter (fun h => h.cell != c) } }
    mine.foldl (fun s h => s.applyHeld h) s

/-- The schedule of a bank starts at instant S, in the table of each half that hears of it, with its reservation (R157, R454). -/
def State.startSchedule (s : State) (b S : Nat) : State :=
  let tell := fun (h : AB) (s : State) => s.when (!s.halfOut b h && !(s.half b h).silent) (fun s => s.updHalf b h (fun f => { f with sched := some S }))
  ((tell .b (tell .a s)).updBank b (fun k => { k with sched := some S })).setBucket (b + 1) ((s.bucket (b + 1)).reserve (s.resvCost b))

/-- Groups that name channel n in an enabled LCH0 or LCH1 (R312, R324). -/
def State.launchGroups (s : State) (n : Nat) : List Nat :=
  (List.range 16).filter (fun g =>
    let w := s.grpW g 6
    bit (s.grpW g 0) 0 && ((bit w 16 && fld w 7 0 == n) || (bit w 17 && fld w 15 8 == n)))

/-! ### Firing -/

/-- A channel is armed and due (R94); none launches while TB runs from the LF clock (R93). -/
def State.due (s : State) (n : Nat) : Bool := (s.chan n).armed && reached s.now (s.chan n).value && !s.tb.lfRun

/-- The compare slot of a cell that names channel n has fired: its event becomes pending on the engine or pair on which the
cell runs (R272). -/
def State.slotEvent (s : State) (c n : Nat) : State :=
  let x := s.cell c
  let v := if (s.chan n).newV then x.nver else x.ver
  let e := if (s.chan n).newV then x.neng else x.eng
  match v.bind (fun v => (List.range 32).find? (fun i => (v.cmpSlot i).any (fun t => t.1 == n))) with
  | some i => s.event e (0x20 + i)
  | none => s

/-- A channel fires: it disarms; a host channel sets its FIRED bit and, where selected, its event; a shared instant fired
without lock is recorded (R95, R97, R106). -/
def State.fired (s : State) (n : Nat) : State :=
  let c := s.chan n
  let s := s.updChan n (fun c => { c with armed := false, shared := false })
  let s := s.when (decide (n ≥ 224)) (fun s =>
    { s with regs := { s.regs with fired := setBit s.regs.fired (n - 224) true } }.mark 0x0F20 (n - 224))
  let s := s.when (decide (n ≥ 224) && bit c.act 11) (fun s => s.hifEvt 1)
  let s := match c.cell with | some k => s.slotEvent k n | none => s
  s.when (c.shared && !s.tb.lock) (fun s =>
    s.record { src := 9, code := 3, site := siteEngine (s.cell (c.cell.getD 0)).eng, cell := some (c.cell.getD 0), d6 := 2 })

/-- The level that a channel gives a standard output: an on after another channel's or a PI_WRITE's off of the same tick has
no effect (R97, R99, R402). -/
def State.chanLevel (s : State) (o : Nat) (level : Bool) : State :=
  if level && (s.tb.chanOff.contains o || s.tb.hostOff.contains o) then s
  else (s.when (!level) (fun s => { s with tb := { s.tb with chanOff := o :: s.tb.chanOff } })).setStd o level

/-- The level that a PI_WRITE gives a standard output: an on after a channel's off of the same tick has no effect (R402). -/
def State.hostLevel (s : State) (o : Nat) (level : Bool) : State :=
  if level && s.tb.chanOff.contains o then s
  else (s.when (!level) (fun s => { s with tb := { s.tb with hostOff := o :: s.tb.hostOff } })).setStd o level

/-- A standard output set by a channel, or BADACT where the output is none (R97, R111). DESIGN CHOICE: R111 speaks of host channels;
a channel of a cell that names no standard output sets BADACT too. -/
def State.actStd (s : State) (n : Nat) : State :=
  let a := if n ≥ 224 then (s.chan n).act else Tab.get 0 s.cfg.chPar n
  let o := 16 * fld a 5 4 + fld a 9 6
  if (s.outRec o).mode = 2 then s.chanLevel o (bit a 10) else s.tbEvt 4

/-- A snapshot into the host process image (R97, R401). -/
def State.actHostSnap (s : State) (n : Nat) : State :=
  { s with hif := { s.hif with snap := some (s.hostImage (some n)) } }

/-- A snapshot of the qualified inputs, with its tick, into the process image of the channel's cell (R97, R289). -/
def State.actCellSnap (s : State) (n : Nat) : State :=
  match (s.chan n).cell with
  | none => s
  | some c =>
    let ws := placed 1 [s.tb.tb.extractLsb' 0 32, s.tb.tb.extractLsb' 32 32] ++
      placed 0x8 ((List.range 4).map s.inQualW) ++ placed 0xC ((List.range 4).map s.inPairW)
    s.updCell c (fun x => { x with pi := putAll x.pi ws })

/-- SS1 of every group that names the channel (R97, R324). -/
def State.actLaunch (s : State) (n : Nat) : State := (s.launchGroups n).foldl (fun s g => s.launchSs1 g) s

/-- The action of a channel of a cell or of host software, by its code (R97). -/
def State.act (s : State) (n : Nat) : State :=
  match (s.chan n).code with
  | 1 => s.actStd n
  | 2 => s.actHostSnap n
  | 3 => s.actCellSnap n
  | 4 => (match (s.chan n).cell with | some c => s.releaseHeld c | none => s)
  | 7 => s.actLaunch n
  | _ => s

/-- A due channel of a cell or of host software fires. -/
def State.fire (s : State) (n : Nat) : State := (s.fired n).act n

/-- A channel is armed with a value. One already due fires in the same tick with LATE, and a shared instant already
passed is recorded with its cell (R94, R95, R106). -/
def State.arm (s : State) (n : Nat) (f : Chan → Chan) : State :=
  let s := s.updChan n (fun c => { f c with armed := true, val := BitVec.ofNat 64 (f c).words })
  if s.due n then
    let c := s.chan n
    let s := s.tbEvt 3
    let s := s.when c.shared (fun s =>
      s.record { src := 9, code := 3, site := siteEngine (s.cell (c.cell.getD 0)).eng, cell := some (c.cell.getD 0),
                 d6 := 1 ||| atBit 32 1 (!s.tb.lock) })
    (s.updChan n (fun c => { c with shared := false })).fire n
  else s

/-- A channel of a cell or of host software that is due fires before a write disarms it (R95). -/
def State.fireDue (s : State) (n : Nat) : State :=
  s.when (s.due n && ((s.chan n).code != 5 && (s.chan n).code != 6 && (s.chan n).code != 8)) (fun s => s.fire n)

/-- Every channel and engine timer disarms (R93). -/
def State.disarmAll (s : State) : State :=
  { s with chans := Tab.mapVal {} (fun c => { c with armed := false }) s.chans,
           engs := Tab.mapVal {} (fun x => { x with et := Tab.mapVal {} (fun t => { t with armed := false }) x.et, wd := 0 }) s.engs }

/-- The channel that the runtime takes for an instant of its own: not armed, in no compare slot, group record or instant map (R96).
DESIGN CHOICE: of those it takes the lowest, and channel 223 where none is free. -/
def State.freeChan (s : State) : Nat :=
  let slots := s.cfg.cells.flatMap (fun e => (List.range 32).filterMap (fun i => (e.2.cmpSlot i).map (·.1)))
  let groups := (List.range 16).flatMap (fun g => let w := s.grpW g 6
    (if bit w 16 then [fld w 7 0] else []) ++ (if bit w 17 then [fld w 15 8] else []))
  let inst := s.cfg.instMap.map (·.2)
  ((List.range 224).find? (fun n => !(s.chan n).armed && !slots.contains n && !groups.contains n && !inst.contains n)).getD 223

/-! ### Commands: registers of channels -/

/-- A write to the low word stores it and disarms the channel; a firing already due wins (R95). -/
def State.writeTcmpLo (s : State) (n : Nat) (v : Word) : State :=
  (s.fireDue n).updChan n (fun c => { c with lo := v, armed := false })

/-- TCMP_LO_WRITE (R95). -/
def execTcmpLoWrite (n : Fin 256) (v : Word) (s : State) : Host.Outcome State Fault Refusal :=
  doneSettled ((s.when (decide (224 ≤ n.val)) State.hostWrite).writeTcmpLo n.val v)

/-- A write to the high word arms the channel with the value of both words (R95). -/
def State.writeTcmpHi (s : State) (n : Nat) (v : Word) : State := s.arm n (fun c => { c with hi := v })

/-- TCMP_HI_WRITE (R95). -/
def execTcmpHiWrite (n : Fin 256) (v : Word) (s : State) : Host.Outcome State Fault Refusal :=
  doneSettled ((s.when (decide (224 ≤ n.val)) State.hostWrite).writeTcmpHi n.val v)

/-- A write to TCMP_ACT_n of host channel 224 + n disarms the channel, a firing already due winning (R95); a code above 0x2 is
reserved: the write is ignored and BADACT sets (R97, R489). -/
def State.writeTcmpAct (s : State) (n : Nat) (v : Word) : State :=
  if fld v 3 0 > 2 then s.tbEvt 4
  else (s.fireDue (224 + n)).updChan (224 + n) (fun c => { c with act := v.extractLsb' 0 12, armed := false })

/-- TCMP_ACT_WRITE (R97). -/
def execTcmpActWrite (n : Fin 32) (v : Word) (s : State) : Host.Outcome State Fault Refusal :=
  doneSettled (s.hostWrite.writeTcmpAct n.val v)

/-! ### Commands: firing -/

/-- A due channel with a code fires; otherwise nothing happens. -/
def State.fireIf (s : State) (n code : Nat) (act : State → State) : State :=
  if s.due n && (s.chan n).code == code then act (s.fired n) else s

/-- ACT 0x0 (R97). -/
def execTcmpFlagOnly (n : Fin 256) (s : State) : Host.Outcome State Fault Refusal :=
  doneSettled (s.fireIf n.val 0 id)
/-- ACT 0x1 (R97, R111). -/
def execTcmpSetStandardOutput (n : Fin 256) (s : State) : Host.Outcome State Fault Refusal :=
  doneSettled (s.fireIf n.val 1 (fun s => s.actStd n.val))
/-- ACT 0x2 (R97). -/
def execTcmpHostSnapshot (n : Fin 256) (s : State) : Host.Outcome State Fault Refusal :=
  doneSettled (s.fireIf n.val 2 (fun s => s.actHostSnap n.val))
/-- ACT 0x3 (R97). -/
def execTcmpCellSnapshot (n : Fin 256) (s : State) : Host.Outcome State Fault Refusal :=
  doneSettled (s.fireIf n.val 3 (fun s => s.actCellSnap n.val))
/-- ACT 0x4 (R98). -/
def execTcmpPermitRelease (n : Fin 256) (s : State) : Host.Outcome State Fault Refusal :=
  doneSettled (s.fireIf n.val 4 (fun s => match (s.chan n.val).cell with | some c => s.releaseHeld c | none => s))
/-- ACT 0x5 (R157, R158). -/
def execTcmpTestPulseScheduleStart (n : Fin 256) (s : State) : Host.Outcome State Fault Refusal :=
  let v := (s.chan n.val).value
  let use := (s.chan n.val).use
  doneSettled (s.fireIf n.val 5 (fun s => match use with
    | .bank b => (s.startSchedule b v).updChan n.val (fun c => { c with use := .none })
    | _ => s))
/-- ACT 0x7 (R324). -/
def execTcmpSs1Launch (n : Fin 256) (s : State) : Host.Outcome State Fault Refusal :=
  doneSettled (s.fireIf n.val 7 (fun s => s.actLaunch n.val))

/-! ### Commands: timebase -/

/-- Number of a party's latch: engines 0 to 63, host 64, JTAG 65 (R83). -/
def partyNo : Party → Nat
  | .engine e => e.val
  | .host => 64
  | .jtag => 65

/-- A read of TB_LO: the low word, or by a wide host read the whole TB, with the party's latch taken; a read of TB_HI or TB_FRAC
returns the party's latch (R83). -/
def execTbLoRead (p : Party) (what : TbRead) (s : State) : Host.Outcome State Fault Refusal :=
  let l : TbLatch := { hi := s.tb.tb.extractLsb' 32 32, frac := s.tb.frac }
  let t := { s with tb := { s.tb with latch := Tab.put {} s.tb.latch (partyNo p) l } }
  match what with
  | .lo => doneSettled (t.ret (s.tb.tb.extractLsb' 0 32))
  | .wide => doneSettled (t.ret (s.tb.tb.extractLsb' 0 32) (if p = .host then l.hi else 0))
  | .hi => doneSettled (s.ret (Tab.get {} s.tb.latch (partyNo p)).hi)
  | .frac => doneSettled (s.ret (Tab.get {} s.tb.latch (partyNo p)).frac)

/-- The time without a measurement that ends lock: 2 FiminLink cycles on a follower, 100 ms on a PTP reference (R90). -/
def State.measureGap (s : State) : Nat := if s.tb.src = 1 then us 100 else ms 100

/-- No measurement for 2 cycles or 100 ms: a module that follows a source leaves lock (R90). -/
def execLockTimeout (s : State) : Host.Outcome State Fault Refusal :=
  let late := match s.tb.measAt with | none => true | some t => s.past t s.measureGap
  if s.tb.src.toNat ≤ 1 ∧ late = true then
    doneSettled ({ s with tb := { s.tb with good := 0, far := 0 } }.setLock false)
  else .next s

/-- The midnight after an announced leap second: the offset changes by one (R108). -/
def execLeapSecondMidnight (s : State) : Host.Outcome State Fault Refusal :=
  let us := utcMicros s.now s.tb.utc.toInt
  let mid : Int := ((s.tb.leapDay + 1 : Nat) : Int) * 86400000000
  if s.tb.leap61 && decide (mid + 1000000 ≤ us) then
    doneSettled { s with tb := { s.tb with utc := s.tb.utc + 1, leap61 := false } }
  else if s.tb.leap59 && decide (mid - 1000000 ≤ us) then
    doneSettled { s with tb := { s.tb with utc := s.tb.utc - 1, leap59 := false } }
  else .next s

end Sys2Proof.Machine
end

