-- ==== Sys2Proof/Machine/Clock.lean ====
section
/-! DEFINITION. The time reference (R86), the UTC offset (R108), the neighbours and path delays of FiminLink (R365, R374),
and PTP (R361, R362). -/

namespace Sys2Proof.Machine

/-! ### UTC offset (R108) -/

/-- Number of the present UTC day. -/
def State.utcDay (s : State) : Nat := (utcMicros s.now s.tb.utc.toInt / 86400000000).toNat

/-- A PTP offset in force, with the leap seconds it announces for today (R108). An announcement that stands keeps its day to the end
of the leap second. -/
def State.ptpUtc (s : State) (ofs : Half) (leap61 leap59 : Bool) : State :=
  let stands := (leap61 && s.tb.leap61) || (leap59 && s.tb.leap59)
  let old := s.tb.leapDay
  let s := { s with tb := { s.tb with utc := ofs, utcSrc := .ptp } }
  let keep := stands && (s.tb.inLeap || s.utcDay == old)
  { s with tb := { s.tb with leap61 := leap61, leap59 := leap59,
                             leapDay := if keep then old else if leap61 || leap59 then s.utcDay else 0 } }

/-- No PTP offset is valid any more: the last value of host software, else 0 and unknown (R108). -/
def State.dropPtpUtc (s : State) : State :=
  if s.tb.utcSrc ≠ .ptp then s
  else
    let t := { s.tb with leap61 := false, leap59 := false, leapDay := 0 }
    match s.tb.utcHost with
    | some v => { s with tb := { t with utc := v, utcSrc := .host } }
    | none => { s with tb := { t with utc := 0, utcSrc := .none } }

/-! ### The ring (R365, R372, R376, R378) -/

/-- Address m is in the configuration. -/
def State.configured (s : State) (m : Nat) : Bool := bit s.cfg.present m
/-- The next configured address above m, wrapping around (R365). -/
def State.higher (s : State) (m : Nat) : Nat := (((List.range 16).map (fun i => (m + 1 + i) % 16)).find? s.configured).getD m
/-- The next configured address below m, wrapping around (R365). -/
def State.lower (s : State) (m : Nat) : Nat := (((List.range 16).map (fun i => (m + 15 - i) % 16)).find? s.configured).getD m

/-- FiminLink works here: configured, in service, with its clock (R372, R377). -/
def State.flkUp (s : State) : Bool :=
  s.coreUp && s.loaded && s.cfg.flkEn && decide (s.flk.role ≠ .off) && !s.isOut (siteSpine 0 0 8)

/-- This module sends its slot (R376, R377, R380). -/
def State.sends (s : State) : Bool :=
  s.flkUp && !s.flk.left && (s.flk.role == .run || (s.flk.role == .join && s.tb.lock))

/-- Another module sends its slot, as this one hears it (R376, R380). -/
def State.peerSends (s : State) (m : Nat) : Bool :=
  let p := s.peer m
  !p.leave && (p.adm || p.heard s.cycNo || p.heard (s.cycNo - 1))

/-- Bit of a word of a slot body. -/
def bodyBit (b : List Byte) (byteNo i : Nat) : Bool := bit (word4 (b.drop byteNo)) i

/-- Module m reports module k admitted (R370). -/
def State.admits (s : State) (m k : Nat) : Bool :=
  if m = s.modAddr then (s.peer k).adm else bodyBit (s.peer m).body 20 k

/-- Addresses that send at present. -/
def State.senders (s : State) : List Nat :=
  (List.range 16).filter (fun m => if m = s.modAddr then s.sends else s.peerSends m)

/-- In service on FiminLink: sending, and reported in ADM by every other sending module (R378). -/
def State.ringService (s : State) : List Nat :=
  s.senders.filter (fun m => s.senders.all (fun k => k == m || s.admits k m))

/-! ### The reference (R86) -/

/-- The MAC whose port is in the state SLAVE (R361). -/
def State.slavePort (s : State) : Option Nat := (List.range 4).find? (fun m => (s.mac m).port == 9)

/-- PTP of the slot: a PTP slave port, locked (R370). -/
def State.ptpLocked (s : State) : Bool := s.slavePort.isSome && s.tb.lock

/-- The reference as R86 chooses it, seen from this module. -/
def State.reference (s : State) : Nat :=
  let l := s.ringService
  let ptp := fun m => if m = s.modAddr then s.ptpLocked else bodyBit (s.peer m).body 0 11
  match l.find? ptp with
  | some m => m
  | none => l.head?.getD s.modAddr

/-- This module follows a reference: itself by PTP, host time or holdover, another over FiminLink (R86). -/
def State.setReference (s : State) (r : Nat) : State :=
  let a := BitVec.ofNat 4 r
  if r = s.modAddr then
    match s.slavePort with
    | some p => s.setSource 0 a (BitVec.ofNat 2 p)
    | none => s.setSource (if s.tb.src = 3 then 3 else 2) a 0
  else s.setSource 1 a 0

/-- Off the ring or isolated a module is its own reference; the ring master chooses by R86; a follower takes the reference
from SYNC (R86, R371, R381). -/
def State.refreshRef (s : State) : State :=
  if !s.flkUp || s.flk.isol then s.setReference s.modAddr
  else if s.flk.isMaster then s.setReference s.reference
  else if s.tb.refAddr.toNat = s.modAddr then s.setReference s.modAddr
  else s

/-- This module is its own reference. -/
def State.ownRef (s : State) : Bool := s.tb.refAddr.toNat == s.modAddr && s.tb.src != 1

/-! ### PTP (R361, R362) -/

/-- PTP profile. -/
def State.ptpProfile (s : State) : Nat := fld s.net.ptpCfg 1 0
/-- PTP is enabled on MAC m (R363). -/
def State.ptpEnabled (s : State) (m : Nat) : Bool :=
  s.ptpProfile != 0 && bit s.net.ptpCfg (16 + m) && (s.mac m).en && !s.isOut (siteSpine 0 1 m)
/-- The PTP port of MAC m sends and receives. -/
def State.ptpRuns (s : State) (m : Nat) : Bool := s.coreUp && s.ptpEnabled m && (s.mac m).link

/-- The port state of MAC m. -/
def State.setPort (s : State) (m : Nat) (v : BitVec 4) : State := s.updMac m (fun k => { k with port := v })

/-- The port of MAC m follows its enables and its link: DISABLED, INITIALIZING while the link is down, LISTENING once it
runs (R361). The source is chosen again. -/
def State.portCheck (s : State) (m : Nat) : State :=
  let p := (s.mac m).port
  let q : BitVec 4 := if !s.ptpEnabled m then 3 else if !(s.mac m).link then 1 else if p = 3 ∨ p = 1 ∨ p = 2 then 4 else p
  let s := s.updMac m (fun k => { k with port := q, asCap := k.asCap && q.toNat ≥ 4 })
  s.when (p == 9 && q != 9) (fun s => s.dropPtpUtc.refreshRef)

/-- An Announce: the master of the best master clock algorithm makes this port the slave port and every other one PASSIVE;
any other leaves this one PASSIVE (R361). -/
def State.announce (s : State) (m : Nat) (best : Bool) : State :=
  if best then
    let s := s.each 4 (fun s k => s.when (k != m && decide ((s.mac k).port.toNat ≥ 8)) (fun s => s.setPort k 7))
    s.when ((s.mac m).port != 9) (fun s => s.setPort m 8)
  else s.setPort m 7

/-- PTP_MESSAGE_RECEIVE (R361, R362): a completed Sync measurement disciplines the timebase of a module that is its own
reference; an Announce moves the port and carries the UTC offset (R108). -/
def execPtpMessageReceive (m : Fin 4) (msg : PtpMsg) (s : State) : Host.Outcome State Fault Refusal :=
  let i := m.val
  if !s.ptpRuns i then .next s
  else
    let s := s.macStat i 14
    let s := if s.ptpProfile = 3 then (let r := s.takeBool; r.2.updMac i (fun k => { k with asCap := r.1 })) else s
    match msg with
    | .sync off =>
      let s := s.when ((s.mac i).port == 8) (fun s => (s.setPort i 9).refreshRef)
      if (s.mac i).port = 9 ∧ s.tb.src = 0 then doneSettled (s.measure off true) else doneSettled s
    | .announce best utc valid scale l61 l59 =>
      let s := s.announce i best
      let s := s.refreshRef
      if !best || !s.ownRef then doneSettled s
      else if valid && scale then doneSettled (s.ptpUtc utc l61 l59)
      else doneSettled s.dropPtpUtc

/-- ANNOUNCE_RECEIPT_TIMEOUT (R361): the port leaves SLAVE, UNCALIBRATED or PASSIVE for LISTENING. -/
def execAnnounceReceiptTimeout (m : Fin 4) (s : State) : Host.Outcome State Fault Refusal :=
  let p := (s.mac m.val).port
  if p.toNat < 7 then .next s
  else
    let s := s.setPort m.val 4
    doneSettled (s.when (p == 9) (fun s => s.dropPtpUtc.refreshRef))

/-- PTP_DELAY_REQUEST_SEND (R361, R362): Delay_Req by a slave port, Pdelay_Req by any running port of a peer-to-peer
profile. -/
def execPtpDelayRequestSend (m : Fin 4) (s : State) : Host.Outcome State Fault Refusal :=
  let i := m.val
  if s.ptpRuns i && (s.ptpProfile != 1 || decide ((s.mac i).port.toNat ≥ 8)) then
    let s := (s.emit (.ptp i (s.mac i).ptpSeq)).updMac i (fun k => { k with ptpSeq := k.ptpSeq + 1 })
    doneSettled (s.macStat i 15)
  else .next s

/-- CLK_INC_LO_READ (R492, R496): the low word, with the host's latch of the high word taken. -/
def execClkIncLoRead (s : State) : Host.Outcome State Fault Refusal :=
  doneSettled ({ s with clk := { s.clk with incHi := s.tb.inc.extractLsb' 32 32 } }.ret (s.tb.inc.extractLsb' 0 32))

/-- The counter that STAT_SEL selects; 16 to 63 read 0 (R363). -/
def State.statWord (s : State) : Dword :=
  Tab.get 0 (s.mac (fld s.net.statSel 1 0)).stat (fld s.net.statSel 7 2)

/-- STAT_LO_READ (R363, R492): the low word, with the host's latch of the high word taken. -/
def execStatLoRead (s : State) : Host.Outcome State Fault Refusal :=
  let v := s.statWord
  doneSettled ({ s with net := { s.net with statHi := v.extractLsb' 32 32 } }.ret (v.extractLsb' 0 32))

end Sys2Proof.Machine
end

