-- ==== Sys2Proof/Machine/Flk.lean ====
section
/-! DEFINITION. FiminLink (R365 to R386): the slot and SYNC bodies, what a valid copy does, admission and loss of a module,
ring paths, and the module's own role. -/

namespace Sys2Proof.Machine

/-- A bit of FLK_STAT [23:16] sets: 0 LOST, 1 ADM, 2 PATH, 3 COLL, 4 EXCL, 5 LONG, 6 DUP, 7 CHK. -/
def State.flkEvt (s : State) (i : Nat) : State :=
  { s with flk := { s.flk with evt := setBit s.flk.evt i true } }.mark 0x1800 (16 + i)
/-- The role changes. -/
def State.setRole (s : State) (r : FlkRole) : State := { s with flk := { s.flk with role := r, roleAt := s.now, lead := false } }

/-! ### Delay (R374) -/

/-- LINK_A of this module: the mean of its last 16 values, rounded down. -/
def State.ownLink (s : State) : Nat :=
  match s.flk.delays with
  | [] => 0
  | l => (l.foldl (· + ·) 0 / (l.length : Int)).toNat

/-- LINK_A of module m, 0 where it is not known. -/
def State.linkOf (s : State) (m : Nat) : Nat := if m = s.modAddr then s.ownLink else (s.peer m).linkA.toNat

/-- The modules reached from m on the way to j, j last. -/
def hops (next : Nat → Nat) (m j : Nat) : Nat → List Nat
  | 0 => []
  | n + 1 => let x := next m; if x = j then [x] else x :: hops next x j n

/-- The modules whose LINK_A make up the path from m to this module on a ring. -/
def State.links (s : State) (r : AB) (m : Nat) : List Nat :=
  match r with
  | .a => hops s.higher m s.modAddr 16
  | .b => m :: (hops s.lower m s.modAddr 16).dropLast

/-- D: the links of the path, and 96 ns for each module between them. -/
def State.pathDelay (s : State) (r : AB) (m : Nat) : Nat :=
  let l := s.links r m
  (l.map s.linkOf).foldl (· + ·) 0 + 96 * (l.length - 1)

/-- D is known: every link of the path has been measured. -/
def State.pathKnown (s : State) (r : AB) (m : Nat) : Bool := (s.links r m).all (fun x => s.linkOf x != 0)

/-- The link into this module on a ring is longer than R366 allows. -/
def State.linkLong (s : State) (r : AB) : Bool :=
  decide (s.linkOf (match r with | .a => s.modAddr | .b => s.higher s.modAddr) > 320)

/-! ### Bodies (R369 to R371) -/

/-- A body with its CHK. -/
def State.withChk (s : State) (l : List Byte) : List Byte := l ++ bytes4 (crc32cInit s.cfg.sysid l)
/-- CHK is right. -/
def State.chkOk (s : State) (b : List Byte) (n : Nat) : Bool := crc32cInit s.cfg.sysid (b.take n) == word4 (b.drop n)

/-- Bytes of words. -/
def ofWords (l : List Word) : List Byte := l.flatMap bytes4

/-- State of an exported term (R192). -/
def State.exportBit (s : State) (i : Nat) : Bool :=
  match s.cfg.exports.find? (fun e => e.1 == i) with
  | some e => s.term e.2
  | none => false

/-- Bit m of HEARD: a valid copy of the slot of m in the previous cycle. -/
def State.heardWord (s : State) : Word :=
  let c := s.cycNo - 1
  wordOf (fun i => if i < 16 then (s.peer i).a.has c else (s.peer (i - 16)).b.has c)

/-- A signed number in 16 bits, saturating. -/
def half16 (x : Int) : Half := BitVec.ofInt 16 (max (-32768) (min 32767 x))

/-- The body that this module assembles (R370). -/
def State.slotBody (s : State) : List Byte :=
  let w0 : Word := atLsb 32 0 s.modAddr ||| atLsb 32 4 1 ||| atBit 32 8 s.flk.isMaster ||| atBit 32 9 s.ownRef |||
    atBit 32 10 s.tb.lock ||| atBit 32 11 s.ptpLocked ||| atBit 32 12 s.flk.leave
  let utc : Word := atLsb 32 0 s.tb.utc.toNat ||| atBit 32 16 (decide (s.tb.utcSrc = .ptp)) |||
    atBit 32 17 (s.tb.leap61 || s.tb.leap59)
  let inst := (List.range 4).flatMap (fun i =>
    let e := Tab.get {} s.flk.inst i
    let ok := e.valid && decide (s.now / 50000 ≤ e.upTo)
    [atBit 32 0 ok ||| atLsb 32 8 e.gen.toNat, e.instant.extractLsb' 0 32, e.instant.extractLsb' 32 32])
  s.withChk (ofWords
    ([w0, s.cycNo, wordOf s.exportBit, wordOf (fun i => s.exportBit (32 + i)), s.heardWord,
      wordOf (fun i => decide (i < 16) && (s.peer i).adm), utc,
      atLsb 32 0 (half16 s.flk.devA).toNat ||| atLsb 32 16 (half16 s.flk.devB).toNat, atLsb 32 0 s.ownLink] ++
     inst ++ List.replicate 10 0))

/-- The SYNC body of this module as ring master (R371). -/
def State.syncBody (s : State) : List Byte :=
  let rofs : Int := if s.ownRef then 0 else s.flk.rofs
  s.withChk (ofWords [atLsb 32 0 s.modAddr ||| atLsb 32 4 1 ||| atLsb 32 8 s.tb.refAddr.toNat, s.cycNo, BitVec.ofInt 32 rofs])

/-- VER is 0x1 and every reserved bit of a slot body is 0 (R370, R371). -/
def slotShape (b : List Byte) : Bool :=
  let w := fun i => word4 (b.drop (4 * i))
  fld (w 0) 7 4 == 1 && fld (w 0) 31 13 == 0 && fld (w 5) 31 16 == 0 && fld (w 6) 31 18 == 0 && fld (w 8) 31 16 == 0 &&
    (List.range 4).all (fun i => fld (w (9 + 3 * i)) 7 1 == 0 && fld (w (9 + 3 * i)) 31 16 == 0) &&
    (List.range 10).all (fun i => w (21 + i) == 0)

/-- VER is 0x1 and every reserved bit of a SYNC body is 0. -/
def syncShape (b : List Byte) : Bool := fld (word4 b) 7 4 == 1 && fld (word4 b) 31 12 == 0

/-! ### Degraded mode of the ring kind (R59, R63, R381) -/

/-- A version consumes a term that module m exports: one of its mask shares names it (R192, R193). -/
def State.consumes (s : State) (v : CellImg) (m : Nat) : Bool :=
  s.cfg.imports.any (fun e => e.2.1 == m && v.masks.any (fun k => bit k.2 (320 + e.1)))

/-- A version produces an exported term: an input of its own or a cell trip term of its own (R192). -/
def State.produces (s : State) (v : CellImg) : Bool :=
  s.cfg.exports.any (fun e =>
    if e.2 < 128 then v.ownIn e.2 else if e.2 < 192 then v.ownIn (2 * (e.2 - 128)) else v.ownCt (e.2 - 192))

/-- The state of a peer's copies on ring r. -/
def Peer.ring (p : Peer) (r : AB) : RxRing := match r with | .a => p.a | .b => p.b

/-- A path that concerns a cell is lost on ring r: from a sender whose export it imports, or to a module that reports this one
unheard on that ring for 2 cycles (R381). -/
def State.ringLost (s : State) (c : Nat) (r : AB) : Bool :=
  match (s.cell c).ver with
  | none => false
  | some v => s.flk.peers.any (fun e =>
      ((e.2.ring r).lost && s.consumes v e.1) || (decide ((e.2.ring r).unh ≥ 2) && s.produces v))

/-- Every cell follows the ring paths: the loss of one ring, of the second one with it, and the return of both (R59, R62, R63). -/
def State.ringSweep (s : State) : State :=
  s.cells.foldl (fun t e =>
    let a := t.ringLost e.1 .a
    let b := t.ringLost e.1 .b
    let t := t.when ((a || b) && !(t.cell e.1).dRing) (fun t => t.lose e.1 1)
    let t := t.when (a && b) (fun t => t.lose e.1 1)
    t.when (!a && !b && (t.cell e.1).dRing) (fun t => t.regain e.1 1)) s

/-! ### Copies -/

/-- A copy of cycle c is marked. -/
def RxRing.mark (x : RxRing) (c : Word) : RxRing :=
  let d := (c - x.last).toNat
  if x.hist = 0 ∨ (8 ≤ d ∧ d < 2 ^ 31) then { x with last := c, hist := 1 }
  else if d < 8 then { x with last := c, hist := (x.hist <<< d) ||| 1 }
  else x

/-- A change of ring r of a peer. -/
def Peer.updRing (p : Peer) (r : AB) (f : RxRing → RxRing) : Peer :=
  match r with | .a => { p with a := f p.a } | .b => { p with b := f p.b }

/-- A path is lost after 2 consecutive cycles without a copy on its ring while the other ring delivers, c the second of
them (R381). -/
def Peer.pathGone (p : Peer) (r : AB) (c : Word) : Bool :=
  !(p.ring r).has c && !(p.ring r).has (c - 1) && (p.ring r.other).has c && (p.ring r.other).has (c - 1)

/-- Loss of a ring path from module m (R381). -/
def State.pathLoss (s : State) (m : Nat) (c : Word) : State :=
  [AB.a, AB.b].foldl (fun s r =>
    if (s.peer m).pathGone r c && !((s.peer m).ring r).lost then
      (s.updPeer m (fun p => p.updRing r (fun x => { x with lost := true }))).flkEvt 2
    else s) s

/-- The paths are restored once both rings have delivered in one cycle (R63, R381). -/
def State.pathBack (s : State) (m : Nat) (c : Word) : State :=
  s.updPeer m (fun p =>
    if p.a.has c && p.b.has c then { p with a := { p.a with lost := false }, b := { p.b with lost := false } } else p)

/-- The count of cycles in which a ring went unheard, from whether this ring and the other were heard, and the other's count. It ends
once both are heard; silence of both adds to it only where the other ring was lost before (R62, R63, R381). -/
def unheard (me other : Bool) (n otherN : Nat) : Nat :=
  if me && other then 0
  else if !me && (other || decide (2 ≤ otherN)) then min 2 (n + 1)
  else if 2 ≤ n then n else 0

/-- What a body reports of this module's copies in the cycle before (R381). -/
def State.noteUnheard (s : State) (m : Nat) (b : List Byte) : State :=
  let ha := bodyBit b 16 s.modAddr
  let hb := bodyBit b 16 (16 + s.modAddr)
  s.updPeer m (fun p => { p with a := { p.a with unh := unheard ha hb p.a.unh p.b.unh },
                                 b := { p.b with unh := unheard hb ha p.b.unh p.a.unh } })

/-- Admission counting: 8 consecutive cycles with a valid copy and LOCK = 1 (R378). -/
def State.countGood (s : State) (m : Nat) (c : Word) (lock : Bool) : State :=
  let p := s.peer m
  let n := if !lock then 0 else if p.good ≠ 0 ∧ p.goodAt = c then p.good else if p.goodAt + 1 = c then min 8 (p.good + 1) else 1
  let s := s.updPeer m (fun p => { p with good := n, goodAt := c })
  if n = 8 ∧ p.adm = false then
    (s.updPeer m (fun p => { p with adm := true, lost := false, a := { p.a with lost := p.a.lost && !p.a.has c },
                                    b := { p.b with lost := p.b.lost && !p.b.has c } })).flkEvt 1
  else s

/-- The imports from an admitted module take the bits of a copy; a second copy of the cycle adds its active bits (R192). -/
def State.takeImports (s : State) (m : Nat) (b : List Byte) (second : Bool) : State :=
  if !(s.peer m).adm then s
  else
    let v := fun (x : Nat) => bodyBit b (8 + 4 * (x / 32)) (x % 32)
    let im := s.cfg.imports.foldl (fun im e =>
      if e.2.1 = m then setBit im e.1 (v e.2.2 || (second && bit im e.1)) else im) s.lid.im
    { s with lid := { s.lid with im := im } }

/-- What the local channel of an instant does: SS1 of the groups that name it, or the action of the compare slot that is
this channel, with the cell concerned (R97, R104, R324). -/
def State.instUse (s : State) (n : Nat) : Option Nat × Nat :=
  match s.launchGroups n with
  | g :: _ => ((s.cells.find? (fun e => (s.groupsOf e.1).contains g)).map (·.1), 7)
  | [] =>
    match s.cells.findSome? (fun e => e.2.ver.bind (fun v =>
        ((List.range 32).filterMap v.cmpSlot).find? (fun t => t.1 == n) |>.map (fun t => (e.1, t.2.1)))) with
    | some (c, a) => (some c, a)
    | none => (none, 0)

/-- The instant entries of a copy: each whose GEN is new arms its local channel (R106, R382). -/
def State.takeInstants (s : State) (m : Nat) (b : List Byte) : State :=
  let chanOf := fun (i : Nat) => ((s.cfg.instMap.find? (fun e => e.1 == 4 * m + i)).map (·.2)).getD 256
  if !(s.peer m).adm then s
  else (sortKeys ((List.range 4).map (fun i => (chanOf i, i)))).foldl (fun s i =>
    let w := fun (j : Nat) => word4 (b.drop (36 + 12 * i + 4 * j))
    let gen : Byte := (w 0).extractLsb' 8 8
    if !bit (w 0) 0 || Tab.get none (s.peer m).gens i == some gen then s
    else
      let s := s.updPeer m (fun p => { p with gens := Tab.put none p.gens i (some gen) })
      match s.cfg.instMap.find? (fun e => e.1 == 4 * m + i) with
      | none => s
      | some e =>
        let u := s.instUse e.2
        s.arm e.2 (fun k => { k with lo := w 1, hi := w 2, act := BitVec.ofNat 12 u.2, cell := u.1, shared := true, newV := false })) s

/-- The UTC offset that the reference carries to its followers (R108, R370). The slot names a leap second without its direction:
DEDUCED, it is a positive one unless the offset it comes with has fallen. -/
def State.takeUtc (s : State) (m : Nat) (b : List Byte) : State :=
  if s.tb.src ≠ 1 ∨ s.tb.refAddr.toNat ≠ m then s
  else
    let w := word4 (b.drop 24)
    let ofs : Half := w.extractLsb' 0 16
    if bit w 16 then s.ptpUtc ofs (bit w 17 && !ofs.slt s.tb.utc) false else s.dropPtpUtc

/-! ### The module's own role (R377, R379, R380) -/

/-- The module stops sending and enters RESYNC, in which it counts its 8 measurements anew (R90, R379). -/
def State.exclude (s : State) : State :=
  (({ s with flk := { s.flk with isMaster := false }, tb := { s.tb with good := 0 } }).setRole .resync).flkEvt 4

/-- Every module that had admitted this one reports it unheard on both rings in this cycle (R379). -/
def State.allDeaf (s : State) (c : Word) : Bool :=
  let l := (List.range 16).filter (fun m => m != s.modAddr && s.peerSends m && bodyBit (s.peer m).body 20 s.modAddr)
  l != [] && l.all (fun m => (s.peer m).heard c && !bodyBit (s.peer m).body 16 s.modAddr &&
    !bodyBit (s.peer m).body 16 (16 + s.modAddr))

/-- A joining module runs once its neighbours, where present, have admitted it; a module in RESYNC joins once it is locked
by 8 measurements taken there (R377, R379). -/
def State.roleStep (s : State) : State :=
  match s.flk.role with
  | .join =>
    let ok := fun m => m == s.modAddr || !s.peerSends m || bodyBit (s.peer m).body 20 s.modAddr
    if s.sends && ok (s.lower s.modAddr) && ok (s.higher s.modAddr) then s.setRole .run else s
  | .resync => if s.tb.lock && decide (8 ≤ s.tb.good) then s.setRole .join else s
  | _ => s

/-- A measurement of the timebase against the reference over the ring; beyond 150 ns a sending module is excluded
(R375, R379). -/
def State.ringMeasure (s : State) (off : Int) : State :=
  let s := s.measure off false
  let s := s.when (s.sends && decide (off.natAbs > 150)) (fun s => s.exclude)
  s.roleStep

/-! ### Slots -/

/-- A valid copy of the slot of module m (R192, R370 to R382). -/
def State.validSlot (s : State) (r : AB) (m : Nat) (b : List Byte) (c : Word) (off : Int) : State :=
  let second := (s.peer m).heard c
  let s := s.updPeer m (fun p => { p.updRing r (fun x => { x.mark c with dev := half16 off }) with body := b, leave := bodyBit b 0 12 })
  let s := { s with flk := { s.flk with isol := false } }
  let s := s.cvuItem (if r = .a then 3 else 4) 0 0 0 (BitVec.ofNat 32 (c.toNat * 16 + m)) b
  let s := s.when (!second) (fun s => s.noteUnheard m b)
  let s := (s.pathLoss m (c - 1)).pathBack m c
  let s := s.countGood m c (bodyBit b 0 10)
  let s := s.takeImports m b second
  let s := s.takeInstants m b
  let s := s.takeUtc m b
  let s := s.when (s.flk.isMaster && decide (m < s.modAddr)) (fun s => { s with flk := { s.flk with isMaster := false } })
  let s := s.when (s.flk.isMaster && s.tb.src == 1 && decide (s.tb.refAddr.toNat = m) && s.flk.refAt != some c) (fun s =>
    { s with flk := { s.flk with rofs := off, refAt := some c } }.ringMeasure off)
  let s := s.when (s.sends && s.allDeaf c) (fun s => s.exclude)
  s.roleStep.ringSweep

/-- The cycle in which this module's slot last started (R368). -/
def State.ownCycle (s : State) : Word := BitVec.ofNat 32 ((s.now - (2000 + 3000 * s.modAddr)) / 50000)

/-- A frame that carries this module's own address: differing frames in 2 consecutive cycles are a duplicate (R380). -/
def State.ownFrame (s : State) (b : List Byte) : State :=
  let c := word4 (b.drop 4)
  if c ≠ s.ownCycle ∨ b = s.flk.last ∨ s.flk.dupAt = some c ∨ s.flk.role = .dup then s
  else if s.flk.dupAt = some (c - 1) then
    let s := ({ s with flk := { s.flk with isMaster := false, dupAt := some c } }.setRole .dup).flkEvt 6
    s.record { src := 11, code := 2, site := siteSpine 0 0 8 }
  else { s with flk := { s.flk with dupAt := some c } }

/-- The delay measurement of a neighbour's frame (R374). -/
def State.measureLink (s : State) (r : AB) (m : Nat) (b : List Byte) (arrival : Int) : State :=
  let s := s.updPeer m (fun p => { p with linkA := (word4 (b.drop 32)).extractLsb' 0 16 })
  match r with
  | .a =>
    if m ≠ s.lower s.modAddr then s
    else
      let devB := ((word4 (b.drop 28)).extractLsb' 16 16).toInt
      let s := { s with flk := { s.flk with devA := arrival } }
      if devB = 0 then s else { s with flk := { s.flk with delays := (((arrival + devB) / 2) :: s.flk.delays).take 16 } }
  | .b => if m = s.higher s.modAddr then { s with flk := { s.flk with devB := arrival } } else s

/-- Link r is up (R367). -/
def State.ringUp (s : State) (r : AB) : Bool := match r with | .a => s.flk.linkA | .b => s.flk.linkB

/-- A failed check (R385). -/
def State.chkFail (s : State) (r : AB) (m : Nat) : State :=
  (s.updPeer m (fun p => p.updRing r (fun x => { x with bad := satInc x.bad }))).flkEvt 7

/-- FIMINLINK_SLOT_RECEIVE (R372 to R374): a frame in the slot of module `slot` on a ring; `arrival` is its start minus the
start of that slot in this module's timebase, in ns. -/
def execFiminlinkSlotReceive (r : AB) (body : List Byte) (whole : Bool) (slot : Fin 16) (arrival : Int) (s : State) :
    Host.Outcome State Fault Refusal :=
  if !s.flkUp || !s.ringUp r then .next s
  else
    let m := slot.val
    let addr := fld (body.getD 0 0) 3 0
    let own := decide (addr = s.modAddr)
    let s := s.when (!own && s.configured addr) (fun s => s.emit (.forward r body))
    if !whole || body.length != 128 then doneSettled s
    else if !s.chkOk body 124 then doneSettled (s.chkFail r m)
    else if own then doneSettled (s.ownFrame body)
    else if addr ≠ m ∨ s.configured m = false ∨ slotShape body = false then doneSettled s
    else
      let c := BitVec.ofNat 32 (((s.now : Int) - arrival).toNat / 50000)
      if word4 (body.drop 4) ≠ c then doneSettled s
      else
        let s := s.measureLink r m body arrival
        if s.linkLong r then doneSettled (s.flkEvt 5)
        else if !s.pathKnown r m then doneSettled s
        else
          let off := arrival - s.pathDelay r m
          if off.natAbs > 200 then doneSettled s else doneSettled (s.validSlot r m body c off)

/-- The module's own slot is to be assembled: its slot starts within the next 400 ns, and none has been assembled for it (R368). -/
def State.slotDue (s : State) : Bool :=
  decide ((s.now + 50000 - (1600 + 3000 * s.modAddr)) % 50000 < 400) && s.flk.sentIn != some s.cycNo

/-- FIMINLINK_SLOT_ASSEMBLY (R368, R370, R380): 400 ns before its start, the module's own slot on both rings. -/
def execFiminlinkSlotAssembly (s : State) : Host.Outcome State Fault Refusal :=
  if !s.sends || !s.slotDue then .next s
  else
    let b := s.slotBody
    let s := s.cvuItem 5 0 0 0 (BitVec.ofNat 32 (s.cycNo.toNat * 16 + s.modAddr)) b
    let inst := Tab.mapVal {} (fun (e : InstE) => { e with valid := e.valid && decide (s.now / 50000 ≤ e.upTo) }) s.flk.inst
    doneSettled { s.emit (.slot b) with flk := { s.flk with last := b, left := s.flk.leave, inst := inst, sentIn := some s.cycNo } }

/-! ### SYNC and cycles -/

/-- A measurement from a ring B copy of SYNC that no ring A copy replaced (R375). -/
def State.useSyncB (s : State) : State :=
  match s.flk.syncB with
  | none => s
  | some (c, off) =>
    let s := { s with flk := { s.flk with syncB := none } }
    if s.flk.measAt.any (fun t => t.1 == c) then s
    else { s with flk := { s.flk with measAt := some (c, s.flk.master.toNat) } }.ringMeasure off

/-- A module whose BACKOFF has ended without a valid SYNC becomes ring master at a cycle start (R377). -/
def State.takeLead (s : State) : State :=
  if s.flk.role = .backoff ∧ s.flk.lead = true then
    { s with flk := { s.flk with isMaster := true, master := BitVec.ofNat 4 s.modAddr } }.setRole .run
  else s

/-- FIMINLINK_CYCLE_START, once in the synchronisation window of a cycle (R368, R376, R381): the lowest-addressed sending module sends
SYNC; a module that hears none other is isolated. -/
def execFiminlinkCycleStart (s : State) : Host.Outcome State Fault Refusal :=
  if !s.flkUp || decide (2000 ≤ s.now % 50000) || s.flk.cycAt == some s.cycNo then .next s
  else
    let s := { s with flk := { s.flk with cycAt := some s.cycNo } }.takeLead.useSyncB
    let c := s.cycNo
    let isol := !(s.flk.peers.any (fun e => e.2.heard c || e.2.heard (c - 1) || e.2.heard (c - 2)))
    let lead := s.sends && s.senders.all (fun m => decide (s.modAddr ≤ m))
    let master := if lead then BitVec.ofNat 4 s.modAddr else s.flk.master
    let s := { s with flk := { s.flk with isol := isol, isMaster := lead, master := master } }
    let s := s.refreshRef
    doneSettled (s.when lead (fun s => s.emit (.sync s.syncBody)))

/-- A valid SYNC from another module: a ring master has met a collision, a listening module joins, and a follower measures
(R375, R377). -/
def State.validSync (s : State) (r : AB) (b : List Byte) (capture : Int) : State :=
  let a := fld (word4 b) 3 0
  let ref := fld (word4 b) 11 8
  let c := word4 (b.drop 4)
  if a = s.modAddr then s
  else if s.flk.isMaster then
    ({ s with flk := { s.flk with isMaster := false } }.setRole .listen).flkEvt 3
  else
    match s.flk.role with
    | .off => s
    | .dup => s
    | _ =>
      let s := s.when (s.flk.role == .listen || s.flk.role == .backoff) (fun s => s.setRole .join)
      let s := { s with flk := { s.flk with master := BitVec.ofNat 4 a } }.setReference ref
      if ref = s.modAddr then s.roleStep
      else
        let cyc : Int := (s.cycNo - c).toInt * 50000
        let off := capture + cyc - s.pathDelay r a + (word4 (b.drop 8)).toInt
        let again := s.flk.measAt.any (fun t => t.1 == c && decide (t.2 ≤ a))
        if again then s
        else match r with
          | .b => { s with flk := { s.flk with syncB := some (c, off) } }
          | .a => { s with flk := { s.flk with measAt := some (c, a), syncB := none } }.ringMeasure off

/-- FIMINLINK_SYNC_RECEIVE (R371, R372, R375): `capture` is the capture of the frame minus the start of this module's own
cycle, in ns. -/
def execFiminlinkSyncReceive (r : AB) (body : List Byte) (capture : Int) (s : State) : Host.Outcome State Fault Refusal :=
  if !s.flkUp || !s.ringUp r then .next s
  else
    let a := fld (body.getD 0 0) 3 0
    let s := s.when (s.configured a && !(s.flk.isMaster && decide (a = s.modAddr))) (fun s => s.emit (.forward r body))
    if body.length ≠ 16 then doneSettled s
    else if !s.chkOk body 12 then doneSettled (s.flkEvt 7)
    else if !syncShape body || !s.configured a then doneSettled s
    else if s.linkLong r then doneSettled (s.flkEvt 5)
    else doneSettled (s.validSync r body capture)

/-- LISTEN_EXPIRY (R377): 100 µs of LISTEN without a valid SYNC. -/
def execListenExpiry (s : State) : Host.Outcome State Fault Refusal :=
  if s.flkUp && s.flk.role == .listen && s.past s.flk.roleAt 100000 then doneSettled (s.setRole .backoff) else .next s

/-- BACKOFF_EXPIRY (R377): 100 µs times its address after BACKOFF began; the module becomes ring master at its next cycle start. -/
def execBackoffExpiry (s : State) : Host.Outcome State Fault Refusal :=
  if s.flkUp && s.flk.role == .backoff && s.past s.flk.roleAt (100000 * s.modAddr) then
    doneSettled { s with flk := { s.flk with lead := true } }
  else .next s

/-! ### Loss of a module (R380) -/

/-- The latest cycle in which the frame window of slot m has ended here, moved by the longer path (R368, R373). -/
def State.windowCycle (s : State) (m : Nat) : Word :=
  BitVec.ofNat 32 ((s.now - (4750 + 3000 * m) - max (s.pathDelay .a m) (s.pathDelay .b m)) / 50000)

/-- An admitted sender is declared lost: its imports are active, with IMP_EVT where there are any, its admission is withdrawn, and a
path lost before has taken the other one with it (R62, R192, R204, R380). -/
def State.declareLost (s : State) (m : Nat) : State :=
  let p := s.peer m
  let im := s.cfg.imports.foldl (fun im e => if e.2.1 = m then setBit im e.1 true else im) s.lid.im
  let s := { s with lid := { s.lid with im := im } }
  let s := s.when (s.cfg.imports.any (fun e => e.2.1 == m)) (fun s => s.lidEvt 3)
  let one := p.a.lost || p.b.lost
  let s := s.updPeer m (fun p => { p with adm := false, lost := true, good := 0, lostN := satInc p.lostN,
                                          a := { p.a with lost := one }, b := { p.b with lost := one } })
  let s := s.record { src := 11, code := 1, site := siteSpine 0 0 8, related := 4096 * m, d6 := atBit 32 0 p.leave }
  s.flkEvt 0

/-- MODULE_LOST (R380, R381): the frame window of slot m has ended. A second silent cycle, or LEAVE in the last valid copy,
loses the sender; two cycles on one ring only lose the other ring's path. -/
def execModuleLost (m : Fin 16) (s : State) : Host.Outcome State Fault Refusal :=
  if !s.flkUp || decide (m.val = s.modAddr) then .next s
  else
    let c := s.windowCycle m.val
    let s := s.pathLoss m.val c
    let p := s.peer m.val
    let silent := !p.heard c && !p.heard (c - 1)
    let s := s.when (p.adm && (p.leave || silent)) (fun s => (s.declareLost m.val).refreshRef)
    doneSettled s.ringSweep

/-- FIMINLINK_LINK_DOWN (R367). -/
def execFiminlinkLinkDown (r : AB) (s : State) : Host.Outcome State Fault Refusal :=
  doneSettled { s with flk := (match r with | .a => { s.flk with linkA := false } | .b => { s.flk with linkB := false }) }

/-- FIMINLINK_LINK_UP (R367). -/
def execFiminlinkLinkUp (r : AB) (s : State) : Host.Outcome State Fault Refusal :=
  doneSettled { s with flk := (match r with | .a => { s.flk with linkA := true } | .b => { s.flk with linkB := true }) }

end Sys2Proof.Machine
end

