-- ==== Sys2Proof/Machine/Commit.lean ====
section
/-! DEFINITION. What a checkpoint commits (R47, R96, R98, R219, R276, R277, R290): permits, trip terms, compare slots, speed
and stop requests, Wilis data; and the checkpoint itself on a pair and on a single engine (R217 to R220, R233). -/

namespace Sys2Proof.Machine

/-- Later requests to the same address replace earlier ones (R277). -/
def lastReqs : List Req → List Req
  | [] => []
  | r :: l => if l.any (fun q => q.slot == r.slot && q.off == r.off) then lastReqs l else r :: lastReqs l

/-- The owner slot of output o that names cell c. -/
def State.slotOf (s : State) (c o : Nat) : Option Nat := (List.range 4).find? (fun i => (s.slot o i).cell == some c)

/-- A change of one instance bit, which renews it; P1 of a slot that follows is P0 (R292, R297). -/
def Slot.commit (x : Slot) (newV on : Bool) (now : Nat) : Slot :=
  if newV then { x with p1 := on, t1 := now }
  else { x with p0 := on, t0 := now, p1 := if x.follow then on else x.p1 }

/-- A held change of a slot's bit ends. -/
def State.unhold (s : State) (slot : Nat) (newV : Bool) : State :=
  { s with perm := { s.perm with held := s.perm.held.filter (fun h => !(h.slot == slot && h.second == newV)) } }

/-- A permit request of cell c for output o (R98, R290 to R292, R323): a change towards on is held while a channel of
action 0x4 of the cell is armed; a withdrawal acts at once and ends what is held. -/
def State.commitPermit (s : State) (c o : Nat) (newV : Bool) (v : Word) : State :=
  match s.slotOf c o with
  | none => s
  | some i =>
    let x := s.slot o i
    let was := if newV then x.p1 else x.p0
    let on := v == 1 && !s.stoHolds c o
    if on && !was && s.heldArmed c then
      let s := s.unhold (4 * o + i) newV
      { s with perm := { s.perm with held := s.perm.held ++ [{ cell := c, slot := 4 * o + i, second := newV }] } }
    else (s.unhold (4 * o + i) newV).updSlot o i (fun x => x.commit newV on s.now)

/-- A system instant is written into its entry of the own FiminLink slot: value, GEN + 1, valid up to the cycle in which it
fires (R382). -/
def State.writeInstant (s : State) (v : CellImg) (i : Nat) (value : Dword) : State :=
  { s with flk := { s.flk with inst := Tab.upd {} s.flk.inst (Tab.get 0 v.inst i) (fun e =>
      { instant := value, gen := e.gen + 1, valid := true,
        upTo := (if reached s.now value.toNat then s.now else value.toNat) / 50000 + 1 }) } }

/-- The words committed for compare slot i of a version: the low word disarms its channel, a firing already due winning, the high word
arms it with the slot's action (R95, R96). In a hand-over the earlier of the two versions' instants stays armed, with its own
action (R307); the words are stored all the same. -/
def State.commitSlot (s : State) (c : Nat) (v : CellImg) (newV : Bool) (i : Nat) (lo hi : Option Word) : State :=
  match v.cmpSlot i with
  | none => s
  | some (n, act, sys) =>
    let s := s.when lo.isSome (fun s => s.fireDue n)
    let h := s.chan n
    let others := h.armed && h.newV != newV && h.cell == some c
    let l := lo.getD h.lo
    match hi with
    | none => s.updChan n (fun k => { k with lo := l, armed := k.armed && others })
    | some w =>
      let value := w.toNat * 2 ^ 32 + l.toNat
      let s := s.when sys (fun s => s.writeInstant v i (BitVec.ofNat 64 value))
      if others && reached value h.value then s.updChan n (fun k => { k with lo := l, hi := w })
      else s.arm n (fun k => { k with lo := l, hi := w, act := BitVec.ofNat 12 act, cell := some c, newV := newV,
                                      shared := sys })

/-- A request of the window by a version of a cell: terms, safe data and transmit control (R290). -/
def State.commitWord (s : State) (v : CellImg) (newV : Bool) (off : Nat) (d : Word) : State :=
  if 0x200 ≤ off ∧ off < 0x400 then
    s.updCt ((off - 0x200) / 4) (fun t => if newV then { t with b1 := d != 0 } else { t with b0 := d != 0 })
  else if 0x800 ≤ off ∧ off < 0xC00 then
    match v.conn ((off - 0x800) / 64) with
    | none => s
    | some n => s.updConn n (fun k =>
        if newV then { k with out1 := Tab.put 0 k.out1 (off / 4 % 16) d } else { k with out := Tab.put 0 k.out (off / 4 % 16) d })
  else if 0xC00 ≤ off ∧ off < 0xC40 then
    match v.conn ((off - 0xC00) / 4) with
    | none => s
    | some n => s.updConn n (fun k => if newV then { k with ctl1 := d } else { k with ctl := d })
  else s

/-! ### A commit takes effect (R219)

A matched checkpoint's requests wait in `Permits.due` and take effect together, with those of every other commit that waits, at the
end of the tick in which they matched (DESIGN CHOICE within the 4 µs of R219); until then a sweep discards them. -/

/-- The requests of one commit that take effect for a cell: the version, whether the new one or the second instance, and the requests
that count. -/
structure Taking where
  cell : Nat
  ver  : CellImg
  newV : Bool
  reqs : List Req

/-- The requests of a job to the window. -/
def Taking.win (j : Taking) : List Req := j.reqs.filter (fun r => !r.slot)

/-- A request is towards the safe state: a permit withdrawn, a term raised, data passivated. -/
def Req.safe (r : Req) : Bool :=
  !r.slot && (if r.off < 0x100 then r.data != 1 else (decide (r.off < 0x400) || decide (0xC00 ≤ r.off)) && r.data != 0)

/-- What a commit that waits does: the dispatched cell's requests; or, for the runtime with no cell dispatched, those of each cell of
its engine or pair, in full while the cell runs. DESIGN CHOICE: for a cell that does not run, only those towards the safe state
(R219, R276, R290). -/
def State.jobs (s : State) (d : Due) : List Taking :=
  match d.cell with
  | some c =>
    let two := d.newV && (s.cell c).nver.isSome
    (match (if two then (s.cell c).nver else (s.cell c).ver) with
     | some v => [{ cell := c, ver := v, newV := two, reqs := lastReqs d.reqs }]
     | none => [])
  | none => (s.cellsOfEngine d.eng).filterMap (fun c =>
      let x := s.cell c
      let runs := x.st == .running || x.st == .handover || x.st == .stopping
      x.ver.map (fun v => { cell := c, ver := v, newV := false,
                            reqs := (lastReqs d.reqs).filter (fun r => s.concerns c v r && (runs || r.safe)) }))

/-- Group requests and speed selections of a job (R290). -/
def State.jobGroups (s : State) (j : Taking) : State :=
  let s := (j.win.filter (fun r => decide (0x400 ≤ r.off) && decide (r.off < 0x440))).foldl
    (fun s r => s.groupRequest j.cell ((r.off - 0x400) / 4) j.newV r.data) s
  (j.win.filter (fun r => decide (0x600 ≤ r.off) && decide (r.off < 0x700))).foldl
    (fun s r => s.slsSelect ((r.off - 0x600) / 4) r.data) s

/-- Committed compare slots of a job, by channel: slot, low and high word. -/
def Taking.slots (j : Taking) : List (Nat × Taking × Nat × Option Word × Option Word) :=
  (List.range 32).filterMap (fun i =>
    let word := fun (hi : Bool) => (j.reqs.find? (fun r => r.slot && r.off == 0x100 + 8 * i + 4 * hi.toNat)).map (·.data)
    if (word false).isSome || (word true).isSome then
      (j.ver.cmpSlot i).map (fun t => (t.1, j, i, word false, word true))
    else none)

/-- Permits, then terms and Wilis data, of a job (R290). -/
def State.jobWords (s : State) (j : Taking) : State :=
  let s := (j.win.filter (fun r => decide (r.off < 0x100))).foldl (fun s r => s.commitPermit j.cell (r.off / 4) j.newV r.data) s
  j.win.foldl (fun s r => s.commitWord j.ver j.newV r.off r.data) s

/-- Everything that the waiting commits ask for, in one fabric tick (R219). The order inside the tick is the model's: group requests and
speed selections, compare slots in ascending channel order (R99), permits, then terms and Wilis data. -/
def State.takeJobs (s : State) (l : List Taking) : State :=
  let s := l.foldl (fun s j => s.jobGroups j) s
  let s := (sortKeys (l.flatMap (fun j => j.slots))).foldl
    (fun s q => s.commitSlot q.1.cell q.1.ver q.1.newV q.2.1 q.2.2.1 q.2.2.2) s
  l.foldl (fun s j => s.jobWords j) s

/-- The commits that wait take effect. -/
def State.takeEffect (s : State) : State :=
  { s with perm := { s.perm with due := [] } }.takeJobs (s.perm.due.flatMap s.jobs)

/-- The commit of the requests of engine e's interval, the leader's on a pair (R219). -/
def State.commit (s : State) (e : Nat) : State :=
  let x := s.eng e
  { s with perm := { s.perm with due := s.perm.due ++ [{ eng := e, cell := x.cell, newV := x.newV, reqs := x.reqs }] } }

/-- An engine begins a new interval: empty buffer, Whisk at its seed (R217). -/
def Engine.reseed (x : Engine) : Engine := { x with whisk := whiskSeed, reqs := [], nreq := 0 }

/-- The merge of pair k under way is complete: PAIRED, HO_EVT, its log entry and its completion (R233, R237, R239). -/
def State.mergeDone (s : State) (k : Nat) : State :=
  if s.ho.step = .running ∧ s.ho.kind = .merge ∧ s.ho.pair = k then
    (((s.setPair k .paired).pairEvt 7).hoLog { kind := 10, d12 := BitVec.ofNat 32 k }).hoEnd 0
  else s

/-- A matching checkpoint of pair k: the first one forms the pair and completes its merge, and its cells leave degraded mode of the
engine kind (R63, R233). -/
def State.formPair (s : State) (k : Nat) : State :=
  if (s.epair k).formed then s
  else
    let s := (s.updEPair k (fun p => { p with formed := true })).mergeDone k
    (s.cellsAt (2 * k) true).foldl (fun s c => s.regain c 0) s

/-- A matching checkpoint of the cell dispatched on pair k, in a hand-over cycle (R303). -/
def State.noteCheck (s : State) (e : Nat) : State :=
  match (s.eng e).cell with
  | none => s
  | some c => s.when (s.handingOver c && (s.eng e).newV) (fun s => s.updCell c (fun x => { x with chk := true }))

/-- A matching checkpoint on pair k restores the engine kind of the cell that made it; in its hand-over cycle it does so at the end of
the cycle (R63, R303). -/
def State.soundPair (s : State) (k : Nat) : State :=
  match (s.eng (2 * k)).cell with
  | none => s
  | some c => s.when ((s.cell c).dEng && (s.cell c).onP && !s.inHandCycle c) (fun s => s.regain c 0)

/-- The skew of pair k while it is PAIRED: a number from 2 to 15 that timing alone decides, so it is free (R214, R239). -/
def State.newSkew (s : State) (k : Nat) : State :=
  { s.updEPair k (fun p => p.setSkew (BitVec.ofNat 4 (2 + Config.freeNat s.fresh % 14))) with fresh := s.fresh + 1 }

/-- The compare of pair k's two seals by comparators X and Y, each of which may itself be wrong (R218): two matches commit and reseed
both engines; two mismatches are cause 1, and comparators that disagree cause 5 (R220). -/
def State.comparePair (s : State) (k : Nat) (l f : Word) (badX badY : Bool) : State :=
  let same := l == f
  if badX ≠ badY then s.mismatch k 5
  else if same = badX then s.mismatch k 1
  else
    let t := s.commit (2 * k)
    let t := (t.updEng (2 * k) (fun x => { x.reseed with sealed := false })).updEng (2 * k + 1) (fun x => { x.reseed with sealed := false })
    let t := t.updEPair k (fun p => { p with l := none, f := none })
    (((t.newSkew k).formPair k).noteCheck (2 * k)).soundPair k

/-- An ordinary checkpoint of engine e, after its CHKP has retired (R218, R219, R276). -/
def State.checkpoint (s : State) (e : Nat) (ident : Half) (badX badY : Bool) : State :=
  let x := s.eng e
  let sg := whiskSeal x.whisk ident
  if x.role = .leader then
    match (s.epair (e / 2)).f with
    | some f => s.comparePair (e / 2) sg f badX badY
    | none => s.comparePair (e / 2) sg (whiskSeal (s.eng (e + 1)).whisk ident) badX badY
  else
    let ref : Option Word := match x.cell with
      | none => some (Config.romRef ident.toNat)
      | some _ => (s.runVer e).bind (fun v => (v.refs.find? (fun r => r.1 == ident.toNat)).map (·.2))
    if ref = some sg then ((s.commit e).noteCheck e).updEng e (fun x => x.reseed)
    else s.singleFail e

/-- One engine of a pair has sealed and the other has taken an entry instead: the sealed one stalls (R218, R275). -/
def State.sealedAlone (s : State) (e : Nat) (ident : Half) (leader : Bool) : State :=
  let k := e / 2
  let me := if leader then 2 * k else 2 * k + 1
  let sg := whiskSeal (s.eng me).whisk ident
  let s := s.updEng me (fun x => { x with sealed := true })
  s.updEPair k (fun p => if leader then { p with l := some sg, sealAt := s.now } else { p with f := some sg, sealAt := s.now })

end Sys2Proof.Machine
end

