-- ==== Sys2Proof/Machine/Debug.lean ====
section
/-! DEFINITION. Engine debug (R234 to R237), comparator faults (R230), self-tests (R224 to R227, R48), the scrubber (R213)
and the mismatch timers of a pair (R220). -/

namespace Sys2Proof.Machine

/-! ### Debug (R234 to R237) -/

/-- An entry that is pending on an engine is made before a debug halt acts (R280). -/
def State.entryFirst (s : State) (e : Nat) : State :=
  if !s.canIssue e then s
  else if (s.eng e).wdHit then s.overrun e
  else if s.interrupted e then s.takeEvent e
  else s

/-- ENGINE_DEBUG_HALT: a JTAG request, accepted or refused; an entry at the same boundary is made first, and a mismatch that it brings
governs (R234, R235, R238, R280). -/
def execEngineDebugHalt (e : Fin 64) (s : State) : Host.Outcome State Fault Refusal :=
  let t := if s.debugOk e.val then s.entryFirst (s.head e.val) else s
  if t.debugOk e.val then doneSettled ((t.debugHalt e.val).emit (.tap true)) else doneSettled (t.emit (.tap false))

/-- DEBUG_RELEASE: the halted engines become IDLE; no pair forms and no cell resumes (R237). -/
def execDebugRelease (e : Fin 64) (s : State) : Host.Outcome State Fault Refusal :=
  let idle := fun (s : State) (i : Nat) => s.when ((s.eng i).role == .halted && (s.eng i).dbg) (fun s =>
    s.updEng i (fun x => x.released .idle))
  doneSettled (idle (idle s (e.val / 2 * 2)) (e.val / 2 * 2 + 1))

/-- A tag that the halted engine e could present: its runtime tag or that of a cell in its schedule (R212, R236). -/
def State.debugTag (s : State) (e : Nat) (tag : Byte) : Bool :=
  tag == s.runTag e || (s.cellTags e).any (fun t => t.1 == tag) ||
    ((s.eng e).dbg && tag == BitVec.ofNat 8 (e / 2 * 2 % 4 + 1))

/-- The value of a register as JTAG reads it (R236, R241, R243). -/
def State.debugReg (s : State) (e : Nat) : DebugReg → Word
  | .g n => (s.eng e).gr n
  | .k => (s.eng e).k
  | .pc => (s.eng e).pc
  | .handler n => (s.eng e).handler (s.eid e) n.val

/-- The block of an address is within reach of JTAG at the halted engine e under a tag (R212, R236). -/
def State.debugReach (s : State) (e : Nat) (addr : BitVec 18) (tag : Byte) (write : Bool) : Bool :=
  let o := Tab.get {} (s.clu (e / 4)).own (addr.toNat / 1024)
  s.debugTag e tag && o.tag == tag && !o.badPar && !(o.ro && write)

/-- What JTAG does at a halted engine (R236): memory words under a tag, registers, a single step of the next instruction, a
breakpoint. An access out of reach is refused. -/
def State.debugAccess (s : State) (e : Nat) (addr : BitVec 18) (a : DebugAccess) (tag : Byte) : State :=
  match a with
  | .write v =>
    if s.debugReach e addr tag true then
      (s.updClu (e / 4) (fun m => m.putWord (addr.toNat / 4 * 4) v (some tag))).emit (.tap true)
    else s.emit (.tap false)
  | .read =>
    if s.debugReach e addr tag false then
      let r := s.readWord (e / 4) (addr.toNat / 4) tag
      match r.1 with
      | some v => (r.2.ret v).emit (.tap true)
      | none => r.2.emit (.tap false)
    else s.emit (.tap false)
  | .reg r => (s.ret (s.debugReg e r)).emit (.tap true)
  | .step => (s.updEng e (fun x => { x with step1 := true })).emit (.tap true)
  | .breakpoint b => (s.updEng e (fun x => { x with bp := b })).emit (.tap true)

/-- DEBUG_MEMORY_WRITE: JTAG's accesses while an engine is halted by debug (R212, R236). -/
def execDebugMemoryWrite (e : Fin 64) (addr : BitVec 18) (a : DebugAccess) (tag : Byte) (s : State) :
    Host.Outcome State Fault Refusal :=
  if (s.eng e.val).role = .halted && (s.eng e.val).dbg then doneSettled (s.debugAccess e.val addr a tag)
  else doneSettled (s.emit (.tap false))

/-! ### Comparator faults (R230) -/

/-- A comparator fault of pair k: the set and the four engines of its cluster go out of service; their cells go to their
safe state. -/
def State.comparatorFault (s : State) (k : Nat) : State :=
  let c := k / 2
  let s := (s.record { src := 4, code := 8, site := siteCluster c 5, d6 := BitVec.ofNat 32 k }).pairEvt 3
  let seq := s.lastSeq
  let s := s.takeOut (siteCluster c 5) 8
  let cells := s.cellsOfPair (2 * c) ++ s.cellsOfPair (2 * c + 1)
  let s := (s.cancelSplit (2 * c)).cancelSplit (2 * c + 1)
  let s := cells.foldl (fun s n => (s.abandon n 0x3A).toSafe n .held) s
  let s := s.each 4 (fun s i => s.engineOut (4 * c + i) seq)
  (s.refreshPair (2 * c)).refreshPair (2 * c + 1)

/-! ### Self-tests (R224 to R227) -/

/-- An engine fails its self-test (R529); ST_FAIL_EVT sets. -/
def State.selfTestFail (s : State) (e : Nat) : State :=
  (s.record { src := 4, code := 7, site := siteEngine e, d6 := BitVec.ofNat 32 (e / 2) }).pairEvt 1

/-- The state areas of the cells of a pair are rebuilt; they are released again from their safe state (R225). -/
def State.restartAll (s : State) (cells : List Nat) : State := cells.foldl (fun s c => s.rebuild c) s

/-- The survivor of pair k continues with the cells that allow degraded mode; the others stay in their safe state (R224,
R60). -/
def State.survive (s : State) (k good : Nat) : State :=
  let bad := 4 * k + 1 - good
  let cells := s.cellsAt (2 * k) true
  let s := s.selfTestFail bad
  let seq := s.lastSeq
  let s := s.updEng good (fun x => { x.released .single with cell := none })
  let s := s.engineOut bad seq
  let s := cells.foldl (fun s c =>
    match (s.cell c).ver with
    | none => s
    | some v =>
      if v.degr && !(s.cell c).dEng then
        let s := s.updCell c (fun x => { x with eng := good, onP := false })
        (s.rebuild c).lose c 0
      else s.toSafe c .held) s
  s.refreshPair k

/-- Both engines of a pair go out; its cells stay in their safe state (R224, R226). -/
def State.bothOut (s : State) (k : Nat) (seqA seqB : Word) : State :=
  let cells := s.cellsAt (2 * k) true
  let s := (s.engineOut (2 * k) seqA).engineOut (2 * k + 1) seqB
  let s := cells.foldl (fun s c => s.toSafe c .held) s
  s.refreshPair k

/-- A day in ns. -/
def dayNs : Nat := 86400000000000

/-- MISMATCH_SELF_TEST_END: the comparator set judges both engines of a pair that is resolving (R224, R226, R230). -/
def execMismatchSelfTestEnd (k : Fin 32) (passEven passOdd : Bool) (s : State) : Host.Outcome State Fault Refusal :=
  let p := s.epair k.val
  if p.st = .resolving then
    match passEven, passOdd with
    | true, true =>
      if p.disc5 then doneSettled (s.comparatorFault k.val)
      else
        let recent := (s.now :: p.both).filter (fun t => decide (s.since t < dayNs))
        let s := s.updEPair k.val (fun p => { p with both := recent })
        if recent.length ≥ 3 then
          let s := s.record { src := 4, code := 9, site := siteEngine (2 * k.val), d6 := BitVec.ofNat 32 k.val }
          doneSettled (s.bothOut k.val s.lastSeq s.lastSeq)
        else
          let s := (s.updEng (2 * k.val) (fun x => x.released .leader)).updEng (2 * k.val + 1) (fun x => x.released .follower)
          let s := s.restartAll (s.cellsAt (2 * k.val) true)
          doneSettled (s.setPair k.val .paired)
    | true, false => doneSettled (s.survive k.val (2 * k.val))
    | false, true => doneSettled (s.survive k.val (2 * k.val + 1))
    | false, false =>
      let s := s.selfTestFail (2 * k.val)
      let a := s.lastSeq
      let s := s.selfTestFail (2 * k.val + 1)
      doneSettled (s.bothOut k.val a s.lastSeq)
  else .next s

/-- ENGINE_SELF_TEST_PERIODIC: the idle self-test of a single engine; a failure is a failed diagnostic (R48, R227). -/
def execEngineSelfTestPeriodic (e : Fin 64) (pass : Bool) (s : State) : Host.Outcome State Fault Refusal :=
  if (s.eng e.val).role = .single then
    if pass then doneSettled (s.updEng e.val (fun x => { x with tested := s.now }))
    else
      let s := s.selfTestFail e.val
      doneSettled (s.singleFail e.val s.lastSeq)
  else .next s

/-- SEAL_TIMEOUT: one engine of a formed pair has sealed, and the other not within 400 ns of it: cause 2 (R220). -/
def execSealTimeout (k : Fin 32) (s : State) : Host.Outcome State Fault Refusal :=
  let p := s.epair k.val
  if (s.eng (2 * k.val)).role = .leader ∧ (s.eng (2 * k.val + 1)).role = .follower ∧ p.l.isSome ≠ p.f.isSome ∧
      s.past p.sealAt 400 = true then
    doneSettled (s.mismatch k.val 2)
  else .next s

/-! ### The scrubber (R213) -/

/-- A cell goes to its safe state at once, with what it runs at the time: its dispatch ends and its requests of the interval go (R213,
R274). -/
def State.safeNow (s : State) (c : Nat) : State :=
  let s := ((s.abandon c 0x3A).toSafe c .safe).rebuild c
  let drop := fun (x : Engine) => if x.cell = some c then { x with reqs := [], nreq := 0, cell := none, wd := 0 } else x
  { s with engs := Tab.mapVal {} drop s.engs }

/-- The owner of a block of a cluster goes to its safe state at once: a cell, or every cell of the engine or pair whose
runtime data it holds (R211, R213). -/
def State.ownerSafe (s : State) (cl blk : Nat) : State :=
  let tag := (Tab.get {} (s.clu cl).own blk).tag.toNat
  if 1 ≤ tag ∧ tag ≤ 4 then (s.cellsOfEngine (4 * cl + tag - 1)).foldl (fun s c => s.safeNow c) s
  else match s.blockCell cl blk with
    | some c => s.safeNow c
    | none => s

/-- What has happened to a cluster memory comes upon its words: flipped bits, a code that stands for another address or tag, a parity
bit of the owner table (R210, R212). -/
def Cluster.upset (m : Cluster) (u : Upset) : Cluster :=
  let w := u.word.toNat
  { m with
    err := if u.flips.val = 0 then m.err else Tab.put 0 m.err w (min 3 (Tab.get 0 m.err w + u.flips.val)),
    addrs := if u.addr = 0 then m.addrs else Tab.ins (Tab.drop m.addrs w) w (m.wroteAt w ^^^ u.addr),
    tags := if u.tag = 0 then m.tags else Tab.ins (Tab.drop m.tags w) w (m.wroteTag w ^^^ u.tag),
    own := if u.parity then Tab.upd {} m.own (w / 256) (fun o => { o with badPar := true }) else m.own }

/-- The scrubber reads a word under the tag of its block's owner: an unallocated block is not read, a corrected word is rewritten, an
uncorrectable one is recorded and its owner made safe (R212, R213). -/
def State.scrub (s : State) (cl w : Nat) : State :=
  let o := Tab.get {} (s.clu cl).own (w / 256)
  if o.tag = 0 then s
  else if o.badPar then s.ownerParity cl (w / 256)
  else
    let r := s.readWord cl w o.tag
    match r.1 with
    | some _ => r.2
    | none =>
      (r.2.record { src := 8, code := 1, site := siteCluster cl 4, d6 := BitVec.ofNat 32 w }).ownerSafe cl (w / 256)

/-- SCRUB_READ: the scrubber comes to a word; the memory has suffered the upsets named since it last reported. The last word ends a
pass (R213, R239). A region that is down runs no scrubber (R30). -/
def execScrubRead (c : Fin 16) (w : Half) (upsets : List Upset) (s : State) : Host.Outcome State Fault Refusal :=
  if !s.regionUp (c.val / 4) then .next s
  else
    let s := s.updClu c.val (fun m => upsets.foldl (fun m u => m.upset u) m)
    let s := s.when (w == 0xFFFF#16) (fun s => s.updClu c.val (fun m => { m with scrub := s.tb.tb.extractLsb' 0 32 }))
    doneSettled (s.scrub c.val w.toNat)

end Sys2Proof.Machine
end

