-- ==== Sys2Proof/Machine/System.lean ====
section
/-! DEFINITION. Damuno's system instructions (R250, R265 to R272, R276, R288), events and illegal words (R249), and the
timers of an engine (R101, R102, R221). -/

namespace Sys2Proof.Machine

/-! ### Legal words (R248 to R252) -/

/-- The word is a legal instruction: its opcode, fn and sub-fields are not reserved and its zero fields are zero. -/
def legalWord (w : Word) : Bool :=
  let op := fld w 5 0
  let f1 := fld w 10 6
  let f2 := fld w 15 11
  let f3 := fld w 20 16
  let fn := fld w 31 21
  let imm := fld w 31 16
  if op = 0x00 then decide (fn ≤ 0x15)
  else if op = 0x01 then
    decide (fn ≤ 4) || ((fn == 5 || fn == 6) && f3 == 0) || (decide (0x10 ≤ fn) && decide (fn ≤ 0x16)) ||
      ((fn == 0x20 || fn == 0x21) && f3 == 0)
  else if op = 0x02 then decide (fn < 32)
  else if 0x04 ≤ op ∧ op ≤ 0x09 then true
  else if op = 0x0A then f2 == 0
  else if op = 0x0B then decide (imm < 0x60)
  else if 0x10 ≤ op ∧ op ≤ 0x14 then true
  else if 0x18 ≤ op ∧ op ≤ 0x1A then true
  else if op = 0x1D ∨ op = 0x1E then true
  else if 0x20 ≤ op ∧ op ≤ 0x25 then true
  else if op = 0x26 ∨ op = 0x27 then f2 == 0
  else if op = 0x28 ∨ op = 0x29 then true
  else if op = 0x2A then imm == 0 && (f1 == 0 || f1 != f2)
  else if op = 0x30 then
    (if bit w 6 then fld w 11 7 == 0 else fld w 21 12 == 0) && decide (2 ≤ fld w 31 22)
  else if op = 0x36 ∨ op = 0x37 ∨ op = 0x3E then fld w 31 6 == 0
  else if op = 0x38 then fld w 31 17 == 0 && f1 == 0 && f2 == 0
  else if op = 0x39 then decide (f1 ≤ 1) && f2 == 0
  else if op = 0x3A then f2 == 0 && imm == 0
  else if op = 0x3B ∨ op = 0x3C then imm == 0 && decide (f2 ≤ 11)
  else if op = 0x3D then f1 == 0 && f2 == 0
  else false

/-- ILLEGAL_INSTRUCTION: a word that is no legal instruction raises the exception (R249). -/
def execIllegalInstruction (e : Fin 64) (w : Word) (s : State) : Host.Outcome State Fault Refusal :=
  if legalWord w then .next s
  else doneSettled (s.issue e.val { bad := fun _ => true, act := fun x => .step x })

/-! ### System instructions -/

/-- WAIT stalls until an event is pending (R250). -/
def execWait (e : Fin 64) (s : State) : Host.Outcome State Fault Refusal :=
  doneSettled (s.issue e.val { barred := true, bad := fun x => x.cellM || !x.eve, act := fun x => .step x }
    (fun s => s.when ((s.eng e.val).events == 0) (fun s => s.updBoth e.val (fun x => { x with stall := true }))))

/-- BRK: a debug halt where engine debug is enabled, illegal where it is not (R234, R250). -/
def execBrk (e : Fin 64) (s : State) : Host.Outcome State Fault Refusal :=
  doneSettled (s.issue e.val { barred := true, bad := fun _ => !(s.loaded && s.cfg.dbgEn), act := fun x => .step x }
    (fun s => s.when (s.debugOk e.val) (fun s => s.debugHalt e.val)))

/-- MODE: the new mode takes effect for the third instruction after it; runtime mode named in runtime mode has no effect
(R265). -/
def execMode (e : Fin 64) (cell : Bool) (s : State) : Host.Outcome State Fault Refusal :=
  doneSettled (s.issue e.val
    { barred := true, bad := fun x => x.cellM || x.mp != 0,
      act := fun x => .step (if cell then { x with mp := 2, pm := true } else x) })

/-- CHKP (R218, R219, R276). On a pair each comparator may judge wrongly, and an entry of the follower's queue may fail its parity,
which is a mismatch before any compare (R215, R220). -/
def execChkp (e : Fin 64) (c : Checked) (s : State) : Host.Outcome State Fault Refusal :=
  doneSettled (s.issue e.val { barred := true, act := fun x => .step x }
    (fun s =>
      if c.parity && (s.eng e.val).role == .leader then s.updEng (e.val + 1) (fun y => { y with qbad := true })
      else s.checkpoint e.val c.ident c.badX c.badY)
    (fun s lead => s.sealedAlone e.val c.ident lead))

/-- A test checkpoint of engine e: on a pair both comparators must report a mismatch; it commits nothing. With a real
difference of the signatures the test is abandoned and the difference stays for the next checkpoint (R229, R238). -/
def State.testCheckpoint (s : State) (e : Nat) (ident : Half) (cmpX cmpY : Bool) : State :=
  if (s.eng e).role = .leader then
    if whiskSeal (s.eng e).whisk ident ≠ whiskSeal (s.eng (e + 1)).whisk ident then s
    else
      let s := s.updBoth e (fun x => x.reseed)
      s.when (cmpX || cmpY) (fun s => s.comparatorFault (e / 2))
  else s.updEng e (fun x => x.reseed)

/-- CHKP in its test form: runtime mode only (R250, R276). -/
def execChkpTest (e : Fin 64) (ident : Half) (cmpX cmpY : Bool) (s : State) : Host.Outcome State Fault Refusal :=
  doneSettled (s.issue e.val { barred := true, bad := fun x => x.cellM, act := fun x => .step x }
    (fun s => s.testCheckpoint e.val ident cmpX cmpY) (fun s lead => s.sealedAlone e.val ident lead))

/-- SADJ folds a register (R250). -/
def execSadj (e : Fin 64) (r : Fin 32) (s : State) : Host.Outcome State Fault Refusal :=
  doneSettled (s.issue e.val { act := fun x => .step (x.fold 9 (x.gr r.val)) })

/-- RDH (R243, R250). -/
def execRdh (e : Fin 64) (r c : Fin 32) (s : State) : Host.Outcome State Fault Refusal :=
  doneSettled (s.issue e.val
    { bad := fun x => !rdhAllowed x.cellM c.val, act := fun x => .step (x.setG r.val (x.handler (s.eid e.val) c.val)) })

/-- WRH: runtime mode only (R243, R250). -/
def execWrh (e : Fin 64) (r c : Fin 32) (s : State) : Host.Outcome State Fault Refusal :=
  doneSettled (s.issue e.val
    { bad := fun x => x.cellM || !wrhAllowed c.val, act := fun x => .step (x.setHandler c.val (x.gr r.val)) })

/-- The service of a cell's call: number 0 ends the cycle; number 0 with requests not yet sealed, and any other number, is
a cell fault recorded with CAUSE 0 and the number (R288). -/
def State.serve (s : State) (e : Nat) (imm : Half) : State :=
  let h := s.head e
  let x := s.eng h
  let bad := imm != 0 || decide (x.nreq ≠ 0)
  match s.running e with
  | none => s
  | some c =>
    if bad then s.cellFault c e 0 x.epc (imm.zeroExtend 32) false
    else s.updBoth h (fun x => { x with cell := none, wd := 0 })

/-- SYS: cell mode only (R250, R270, R288). -/
def execSys (e : Fin 64) (imm : Half) (s : State) : Host.Outcome State Fault Refusal :=
  let ran := s.running e.val
  doneSettled (s.issue e.val { barred := true, bad := fun x => !x.cellM, act := fun _ => .service }
    (fun s => s.when ran.isSome (fun s => s.serve e.val imm)))

/-- The registers that RTH restores (R245, R271). -/
def Engine.returned (x : Engine) : Engine :=
  let smp := fld x.es 8 7
  { x with cellM := bit x.es 6, eve := bit x.es 12, la0 := bit x.es 10, la1 := bit x.es 11,
           mp := BitVec.ofNat 2 (min 2 smp), pm := bit x.es 9, hnd := false }

/-- RTH: runtime mode in a handler, outside a mode shadow (R250, R271). -/
def execRth (e : Fin 64) (s : State) : Host.Outcome State Fault Refusal :=
  doneSettled (s.issue e.val
    { barred := true, bad := fun x => x.cellM || !x.hnd || x.mp != 0, act := fun x => .jump x.returned x.epc })

/-! ### Events (R267, R272) -/

/-- EVENT_ENTRY: an instruction boundary with an event pending; a pending overrun comes first (R263, R272). -/
def execEventEntry (e : Fin 64) (s : State) : Host.Outcome State Fault Refusal :=
  if s.canIssue e.val && (s.eng e.val).role != .halted then
    if (s.eng e.val).wdHit then doneSettled (s.overrun e.val)
    else if s.interrupted e.val then doneSettled (s.takeEvent e.val)
    else .next s
  else .next s

/-! ### Timers (R101, R102, R221) -/

/-- ET_FIRE: an armed short timer in compare mode has reached its value (R101). -/
def execEtFire (e : Fin 64) (i : Fin 4) (s : State) : Host.Outcome State Fault Refusal :=
  let x := s.eng e.val
  let t := Tab.get {} x.et i.val
  if t.armed && !bit x.etMode i.val && etDue (s.tb.tb.extractLsb' 0 32) t.value && !s.tb.lfRun then doneSettled (s.etSet e.val i.val)
  else .next s

/-- ET_RELOAD: a short timer in reload mode has reached zero (R102). -/
def execEtReload (e : Fin 64) (i : Fin 4) (s : State) : Host.Outcome State Fault Refusal :=
  let x := s.eng e.val
  let t := Tab.get {} x.et i.val
  if t.armed && bit x.etMode i.val && t.count == 0 then doneSettled (s.etSet e.val i.val) else .next s

/-- CYCLE_BUDGET_OVERRUN: ET_WD has reached zero, in both engines of a pair or in one only: a fault of the cell, or a
mismatch of cause 4 (R220, R221). -/
def execCycleBudgetOverrun (e : Fin 64) (both : Bool) (s : State) : Host.Outcome State Fault Refusal :=
  let h := s.head e.val
  let x := s.eng e.val
  if x.wdHit && !x.dead && s.coreUp then
    if x.onPair then
      if both then doneSettled (s.overrun h) else doneSettled (s.mismatch (h / 2) 4)
    else if x.role = .single then doneSettled (s.overrun e.val)
    else .next s
  else .next s

/-- ET_VALUE_WRITE: an engine's store to ET_i (R101, R102). -/
def execEtValueWrite (e : Fin 64) (i : Fin 4) (v : Word) (s : State) : Host.Outcome State Fault Refusal :=
  doneSettled (s.issue e.val { act := fun _ => .store false (BitVec.ofNat 32 (0x20000010 + 4 * i.val)) 4 v })

/-- ET_MODE_WRITE: an engine's store to ET_MODE (R102). -/
def execEtModeWrite (e : Fin 64) (v : Word) (s : State) : Host.Outcome State Fault Refusal :=
  doneSettled (s.issue e.val { act := fun _ => .store false 0x20000020#32 4 v })

/-- ET_WD_WRITE: an engine's store to ET_WD; in cell mode it raises the owner-tag mismatch exception (R102). -/
def execEtWdWrite (e : Fin 64) (v : Word) (s : State) : Host.Outcome State Fault Refusal :=
  doneSettled (s.issue e.val { act := fun _ => .store false 0x20000030#32 4 v })

end Sys2Proof.Machine
end

