-- ==== Sys2Proof/Machine/Release.lean ====
section
/-! DEFINITION. Releases of a cell (R285 to R289, R313, R61), permit renewal (R292) and the degraded-mode timer (R60, R61,
R65). -/

namespace Sys2Proof.Machine

/-! ### The schedule (R285, R286) -/

/-- An instant lies in the first 5 µs of a window of a version: its minor frame and offset fit (R285, R286). -/
def CellImg.releasedAt (v : CellImg) (now : Nat) : Bool :=
  let t := now - v.rofs
  decide (v.rofs ≤ now) && decide (t / 125000 % 2 ^ v.cexp = v.phase) && decide (t % 125000 < 5000)

/-- A release of a version is due: its release instant has come, and it has not been released for it yet (R285). DESIGN CHOICE: the
dispatch falls into the 5 µs that R286 gives it; a release that has not come by then is skipped. -/
def State.releaseDue (s : State) (v : CellImg) (last : Option Nat) : Bool :=
  v.releasedAt s.now && last.all (fun t => decide (5000 ≤ s.since t))

/-! ### One release on one engine -/

/-- Window counts of the encoder interfaces that a cell owns are latched at its snapshot (R140). -/
def State.latchWindows (s : State) (c : Nat) : State :=
  s.each 8 (fun s i => s.when ((Tab.get {} s.cfg.caps i).owner == some c) (fun s =>
    s.updEnc i (fun r => { r with window := r.count - r.base, base := r.count })))

/-- The interfaces of a cell whose VALID has gone are taken out of use and re-armed at its first release (R141; DESIGN
CHOICE: the instant). -/
def State.rearmOwned (s : State) (c : Nat) : State :=
  s.each 8 (fun s i => s.when ((Tab.get {} s.cfg.caps i).owner == some c && !(s.enc i).valid) (fun s => s.rearmEnc i))

/-- An engine as the runtime dispatches a cell on it (R102, R253, R265, R287): ET_WD, cell mode at the entry, its tag and
DZE. DESIGN CHOICE: the whole dispatch is one step; Whisk goes on from `whisk`, with the jump to the entry folded. -/
def Engine.dispatch (x : Engine) (c : Nat) (v : CellImg) (newV : Bool) (slot cblk : Nat) (whisk : Word) : Engine :=
  let entry := BitVec.ofNat 32 (1024 * cblk + 4 * v.entry)
  let y := { x with
    cell := some c, newV := newV, cellM := true, hnd := false, la0 := false, la1 := false, mp := 0, ds := none,
    stall := false, wdHit := false, dze := v.dze, ctag := slotTag slot, pc := entry, whisk := whisk }
  (y.setWd v.budget).fold 1 entry

/-- The engines of a pair have folded different streams since their last checkpoint: the difference must last until the next one
(R217, R275). -/
def State.diverged (s : State) (e : Nat) : Bool :=
  (s.eng e).role == .leader && (s.eng e).whisk != (s.eng (e + 1)).whisk

/-- An engine or pair can take a release: it has a role that runs cells, and is neither stopped nor at a CHKP that stalls (R286). -/
def State.canRelease (s : State) (e : Nat) (onP : Bool) : Bool :=
  (s.eng e).role == (if onP then .leader else .single) && !(s.eng e).dead && !(s.eng e).dbg && !(s.eng e).sealed &&
    !(onP && (s.eng (e + 1)).sealed)

/-- Words that a snapshot and the stop service put into the process image; FIRST of the cell's connections ends (R289,
R335, R356). -/
def State.fillImage (s : State) (c : Nat) (v : CellImg) (first hand : Bool) : State :=
  let pi := putAll (s.snapshot c first hand) (s.stopWords c)
  let s := s.updCell c (fun x => { x with pi := pi })
  v.conns.foldl (fun s n => s.updConn n (fun k => { k with first := false })) s

/-- Groups of a cell that hold SS1 or are in a stop (R61). -/
def State.stopsDone (s : State) (c : Nat) : Bool :=
  (s.groupsOf c).all (fun g => (s.grp g).st == .sto || (s.grp g).st == .unused)

/-- One version's release: the encoder windows, the stop service, the snapshot, then the dispatch (R287, R313). A configured
stop that is complete leaves the cell HELD instead (R61). -/
def State.releaseOn (s : State) (c : Nat) (v : CellImg) (newV : Bool) (e : Nat) (onP : Bool) (slot cblk : Nat) : State :=
  if !s.canRelease e onP then s
  else
    let x := s.cell c
    let first := if newV then x.nfirst else x.first
    let s := s.updCell c (fun x => if newV then { x with nrelAt := some s.now } else { x with relAt := some s.now })
    let s := s.latchWindows c
    let s := s.when (first && !newV) (fun s => (s.groupsReset c).rearmOwned c)
    let s := s.when (x.st == .safe) (fun s => s.setCell c .running)
    let s := s.when (x.expd && x.st != .stopping) (fun s => s.setCell c .stopping)
    let s := s.stopService c newV
    if (s.cell c).expd && (!v.stopSs1 || s.stopsDone c) then
      ((s.toSafe c .held).updCell c (fun x => { x with expd := false })).cellEvt 6
    else
      let s := s.fillImage c v first (s.inHandCycle c)
      let s := s.updCell c (fun x => if newV then { x with nfirst := false } else { x with first := false })
      let apart := s.diverged e
      s.updBoth e (fun y => y.dispatch c v newV slot cblk (if apart then y.whisk else whiskSeed))

/-- The releases of cell c that are due: the running version's, and in a hand-over cycle the new version's or the second instance's
(R285, R297, R303). -/
def State.release (s : State) (c : Nat) : State :=
  let x := s.cell c
  match x.ver with
  | none => s
  | some v =>
    let t := s.when (s.releaseDue v x.relAt) (fun s => s.releaseOn c v false x.eng x.onP x.slot x.cblk)
    match x.nver with
    | some w => t.when (s.inHandCycle c && s.releaseDue w x.nrelAt) (fun s => s.releaseOn c w true x.neng x.nonP x.nslot x.ncblk)
    | none => t

/-- CELL_RELEASE (R285, R287): a release whose instant has come. -/
def execCellRelease (c : Fin 1024) (s : State) : Host.Outcome State Fault Refusal :=
  let st := (s.cell c.val).st
  if s.pwr.phase = .service ∧ s.coreUp = true ∧
      (st = .running ∨ st = .safe ∨ st = .handover ∨ st = .stopping) then doneSettled (s.release c.val)
  else .next s

/-! ### Renewal (R292) -/

/-- PERMIT_RENEWAL_EXPIRY: an instance bit that is 1 and has not been renewed in time clears, with a record and
RENEW_EVT. -/
def execPermitRenewalExpiry (slot : Fin 256) (second : Bool) (s : State) : Host.Outcome State Fault Refusal :=
  let x := Tab.get {} s.perm.slots slot.val
  match x.cell with
  | none => .next s
  | some c =>
    let on := if second then x.use1 && x.p1 && !x.follow else x.use0 && x.p0
    let ver := if second then (s.cell c).nver else (s.cell c).ver
    let cyc := match ver with | some v => v.cycle | none => (s.cell c).cyc
    let late := decide (s.since (if second then x.t1 else x.t0) ≥ 2 * cyc + 5000)
    if on && late then
      let s := s.updSlot (slot.val / 4) (slot.val % 4) (fun x =>
        if second then { x with p1 := false } else { x with p0 := false, p1 := x.p1 && !x.follow })
      let s := s.cellRec 6 c (BitVec.ofNat 32 (slot.val / 4)) (if second then 1 else 0)
      doneSettled (s.cellEvt 7)
    else .next s

/-! ### The degraded-mode timer (R60, R61, R65) -/

/-- The time a cell has been degraded, and its limit, in ns. -/
def State.degrTime (s : State) (c : Nat) : Option (Nat × Nat) :=
  match (s.cell c).dAt, (s.cell c).ver with
  | some t, some v => some (s.since t, v.dlim)
  | _, _ => none

/-- DEGR_50 (R65). -/
def execDegr50 (c : Fin 1024) (s : State) : Host.Outcome State Fault Refusal :=
  match s.degrTime c.val with
  | some (t, lim) =>
    if (s.cell c.val).degraded && !(s.cell c.val).r50 && decide (2 * t ≥ lim) then
      doneSettled ((s.updCell c.val (fun x => { x with r50 := true })).cellRec 2 c.val (s.cell c.val).kinds)
    else .next s
  | none => .next s

/-- DEGR_90 (R65). -/
def execDegr90 (c : Fin 1024) (s : State) : Host.Outcome State Fault Refusal :=
  match s.degrTime c.val with
  | some (t, lim) =>
    if (s.cell c.val).degraded && !(s.cell c.val).r90 && decide (10 * t ≥ 9 * lim) then
      doneSettled ((s.updCell c.val (fun x => { x with r90 := true })).cellRec 3 c.val (s.cell c.val).kinds)
    else .next s
  | none => .next s

/-- DEGR_EXPIRY: recorded; a hand-over of the cell ends; the configured stop follows at the cell's next cycle (R61, R65,
R306). -/
def execDegrExpiry (c : Fin 1024) (s : State) : Host.Outcome State Fault Refusal :=
  let x := s.cell c.val
  match s.degrTime c.val with
  | some (t, lim) =>
    if x.degraded && !x.expd && x.placed && x.st != .held && decide (t ≥ lim) then
      let s := s.cellRec 5 c.val x.kinds
      let s := s.dropNew c.val
      doneSettled (s.updCell c.val (fun x => { x with expd := true }))
    else .next s
  | none => .next s

end Sys2Proof.Machine
end

