-- ==== Sys2Proof/Machine/HostOps.lean ====
section
/-! DEFINITION. How a fetched command runs (R391, R397, R399, R403, R405): order and FENCE, class, reserved fields, session
and role. -/

namespace Sys2Proof.Machine

/-! ### Sessions (R403) -/

/-- What a command needs of its session: nothing, a role at least, or any open session (R400). -/
inductive Need | none | maint | safety | any
deriving DecidableEq, Repr

/-- The session check: a completion code where it fails (R403). A safety-engineer session serves for maintenance (R400). -/
def State.sessionCode (s : State) (q : Nat) (h : Half) (n : Need) : Nat :=
  match n with
  | .none => 0
  | .maint => if (s.sessionRole q h).isSome then 0 else 0x10
  | .any => if (s.sessionRole q h).isSome then 0 else 0x10
  | .safety =>
    match s.sessionRole q h with
    | some .safetyEngineer => 0
    | some .maintenance => 0x11
    | none => 0x10

/-- The time of the last command that names a session (R428). -/
def State.touchSession (s : State) (q : Nat) (h : Half) : State :=
  match s.sessionRole q h with
  | some .maintenance => { s with store := { s.store with maint := { s.store.maint with lastC := s.now } } }
  | some .safetyEngineer => { s with store := { s.store with safety := { s.store.safety with lastC := s.now } } }
  | none => s

/-! ### The shape of an entry (R397) -/

/-- Codes that R400 lists. -/
def opcKnown (o : Nat) : Bool :=
  [0x01, 0x02, 0x03, 0x04, 0x05, 0x06, 0x08, 0x09, 0x10, 0x11, 0x12, 0x13, 0x20, 0x21, 0x22, 0x23, 0x24, 0x25, 0x30,
   0x31].contains o

/-- Commands of a network queue pair (R391). -/
def opcNetwork (o : Nat) : Bool := o == 0x01 || o == 0x30 || o == 0x31

/-- Parameter words a command uses; the others must be 0 (R397, R400). -/
def opcParams (o : Nat) : Nat :=
  match o with
  | 0x02 => 1 | 0x03 => 4 | 0x04 => 2 | 0x05 => 1 | 0x06 => 1 | 0x08 => 3 | 0x09 => 1 | 0x10 => 1 | 0x11 => 1
  | 0x20 => 11 | 0x21 => 2 | 0x22 => 11 | 0x23 => 1 | 0x24 => 1 | 0x25 => 1 | _ => 0

/-- Commands whose session field names a session (R400). -/
def opcSession (o : Nat) : Bool :=
  o == 0x05 || o == 0x06 || (decide (0x11 ≤ o) && decide (o ≤ 0x13)) || (decide (0x20 ≤ o) && decide (o ≤ 0x25))

/-- Commands whose data come from the host's buffer. -/
def opcReads (o : Nat) : Bool := o == 0x10 || o == 0x11 || o == 0x30

/-- Commands that use a buffer at all. -/
def opcBuffer (o : Nat) : Bool := opcReads o || o == 0x02 || o == 0x04 || o == 0x05 || o == 0x31

/-- Reserved fields are 0 and the address is aligned (R397). -/
def Desc.shapeOk (d : Desc) : Bool :=
  let o := d.opc
  fld (d.word 0) 15 10 == 0 && fld (d.word 1) 31 16 == 0 && (opcSession o || d.sess == 0) &&
    (opcNetwork o || d.addr % 8 == 0) && (d.len != 0 || d.addr == 0) && (opcBuffer o || d.len == 0) &&
    (List.range 11).all (fun i => decide (i < opcParams o) || d.p i == 0)

/-! ### Running a command -/

/-- The PCIe endpoint and the host DMA are in service: without them no command reaches the module (R43, R45). -/
def State.hostPath (s : State) : Bool := !s.isOut (siteSpine 0 0 6) && !s.isOut (siteSpine 0 0 7)

/-- The next command of queue pair q to start: commands start in fetch order, and one with FENCE waits for every earlier
one (R397, R399); none where the host's path is out of service (R43). -/
def State.nextCmd (s : State) (q : Nat) : Option Desc :=
  match (s.qp q).cmds.find? (fun d => !d.ran) with
  | none => none
  | some d => if !s.hostPath then none else if d.fence && (s.qp q).cmds.head? != some d then none else some d

/-- A command has started. -/
def State.markRan (s : State) (q : Nat) (d : Desc) : State :=
  s.updQp q (fun x => { x with cmds := x.cmds.map (fun y => if y = d then { y with ran := true } else y) })

/-- The next command of queue pair q runs where it has this code: the checks of R391, R397 and R403 first, then its
effect. -/
def State.runCmd (s : State) (q opc : Nat) (need : Need) (body : State → Desc → State) : State :=
  match s.nextCmd q with
  | none => s
  | some d =>
    if d.opc ≠ opc then s
    else if d.net ≠ opcNetwork opc ∧ opc ≠ 0x01 then s.complete q d { status := 0x04 }
    else if !d.shapeOk then s.complete q d { status := 0x02 }
    else if d.memErr then s.complete q d { status := 0x03 }
    else if opcReads opc && d.buf.isNone then s
    else
      let c := s.sessionCode q d.sess need
      if c ≠ 0 then s.complete q d { status := c } else body (s.touchSession q d.sess) d

end Sys2Proof.Machine
end

