-- ==== Sys2Proof/Machine/Image.lean ====
section
/-! DEFINITION. The checks of a committed image (R419): module addresses (R28), input, output, source and bank records
(R119, R120, R153 to R155), mask shares (R193), descriptors and declaration tables (R283, R284), axis and group records
(R311, R312), and connections (R336, R337). -/

namespace Sys2Proof.Machine

/-- A word of a record. -/
def recW (l : List Word) (i : Nat) : Word := l.getD i 0

/-! ### Inputs, outputs, sources, banks -/

/-- Every input record (R118 to R120). -/
def Image.insOk (i : Image) : Bool :=
  i.encsOk &&
  (List.range 128).all (fun n =>
    InRec.valid (Tab.get {} i.ins n) (i.inRec n) n &&
    (n % 2 == 0 || !(Tab.get {} i.ins (n - 1)).pair || (Tab.get {} i.ins (n - 1)).kind == (Tab.get {} i.ins n).kind) &&
    ((i.inRec n).kind != 2 || (Tab.get {} i.tps (8 * (n / 32) + (i.inRec n).src)).mode == 1))

/-- Every output, source and bank record (R153 to R155). -/
def Image.fieldOk (i : Image) : Bool :=
  (List.range 64).all (fun o => (Tab.get {} i.outs o).outValid) &&
  (List.range 32).all (fun t => (Tab.get {} i.tps t).tpValid) &&
  (List.range 4).all (fun b => bankValid (Tab.get 0 i.banks b))

/-! ### System and terms (R28, R192, R193) -/

/-- The module's own address is among the configured ones; imports name another configured module and an export bit;
exports name a term of the module. -/
def Image.systemOk (i : Image) : Bool :=
  bit i.present i.modAddr.toNat &&
  i.exports.all (fun e => decide (e.1 < 64) && decide (e.2 < 320)) &&
  i.imports.all (fun e => decide (e.1 < 192) && decide (e.2.1 < 16) && decide (e.2.2 < 64) && decide (e.2.1 ≠ i.modAddr.toNat) &&
    bit i.present e.2.1)

/-- A term that a mask share of output o may name (R193). -/
def Image.termOk (i : Image) (o t : Nat) : Bool :=
  if t < 192 then
    let n := if t < 128 then t else 2 * (t - 128)
    let r := i.inRec n
    r.kind != 0 && r.kind != 5 && (decide (t < 128) || (Tab.get {} i.ins n).pair) &&
      !(r.kind == 3 && decide (16 * (n / 32) + r.src = o)) &&
      (decide (t < 128) || !(r.kind == 3 && decide (16 * (n / 32) + (i.inRec (n + 1)).src = o)))
  else if t < 320 then i.cells.any (fun e => e.2.ownCt (t - 192))
  else i.imports.any (fun e => e.1 == t - 320)

/-- The mask shares of a cell: one for each output it owns, naming permitted terms. -/
def Image.masksOk (i : Image) (v : CellImg) : Bool :=
  v.masks.all (fun m => v.ownOut m.1 && (List.range 512).all (fun t => !bit m.2 t || i.termOk m.1 t))

/-! ### Descriptors (R283) and declaration tables (R284) -/

/-- Words of an effective mask or share, term 0 in bit 0 of the first. -/
def maskWords (m : BitVec 512) : List Word := (List.range 16).map (fun j => m.extractLsb' (32 * j) 32)

/-- A list of words brought to a length. -/
def padTo (n : Nat) (l : List Word) : List Word := (l ++ List.replicate (n - l.length) 0).take n

/-- SIG of a cell as R283 defines it. -/
def CellImg.sigOf (v : CellImg) : Word :=
  crc32c ((v.desc.take 62 ++ padTo (256 * v.codeN) v.code ++
    v.outs.flatMap (fun o => maskWords (Tab.get 0 v.masks o))).flatMap bytes4)

/-- The valid values of the descriptor's fields (R283). -/
def CellImg.descOk (v : CellImg) : Bool :=
  let w := v.dw
  v.desc.length == 64 && (v.pairOk || v.singleOk) && decide (v.cexp ≤ 9) && decide (v.phase < 2 ^ v.cexp) &&
  fld (w 0) 31 25 == 0 && decide (fld (w 1) 6 0 ≤ 119) && !bit (w 1) 7 && !bit (w 1) 15 && fld (w 1) 31 24 == 0 &&
  (if v.onPair then v.pairOk && v.eng % 2 == 0 else v.singleOk) && decide (v.slot ≤ 249) &&
  v.budget % 4 == 0 && decide (4000 ≤ v.budget) && decide (v.budget + 5000 ≤ v.cycle) &&
  decide (1 ≤ fld (w 3) 17 0) && decide (fld (w 3) 17 0 ≤ 259200) && fld (w 3) 31 21 == 0 &&
  decide (1 ≤ v.codeN) && decide (1 ≤ v.stateN) && fld (w 44) 31 16 == 0 &&
  (List.range 17).all (fun i => w (45 + i) == 0) &&
  (List.range 32).all (fun i =>
    let x := v.slotW i
    x == 0xFFFF || (decide (x % 256 ≤ 223) && [0, 1, 2, 3, 4, 7].contains (x / 256 % 16) && decide (x / 8192 = 0))) &&
  (List.range 16).all (fun i => fld (w (36 + i / 2)) (16 * (i % 2) + 15) (16 * (i % 2) + 11) == 0) &&
  v.sig == v.sigOf && w 63 == crc32c ((v.desc.take 63).flatMap bytes4)

/-- Entries of the declaration table from a word on (R284). -/
def declsOk (code : List Word) (at_ : Nat) : Nat → Bool
  | 0 => true
  | n + 1 =>
    let w := fun i => code.getD (at_ + i) 0
    if w 0 = 0 then true
    else
      let k := fld (w 1) 3 0
      decide (1 ≤ k) && decide (k ≤ 6) && (decide (k ≤ 3) || !bit (w 1) 4) && fld (w 1) 31 5 == 0 && w 3 == 0 &&
        (if k = 6 then decide (1 ≤ fld (w 2) 31 16) && decide (fld (w 2) 31 16 ≤ 64) else fld (w 2) 31 16 == 0) &&
        declsOk code (at_ + 4) n

/-- Groups of an image that a cell owns. -/
def Image.ownsGroup (i : Image) (c : Nat) : Bool :=
  i.groups.any (fun g => bit (recW g.2 0) 0 && fld (recW g.2 0) 10 1 == c)

/-- Every cell: its descriptor and table, the outputs it owns, and what only one cell may own (R283, R284, R336). -/
def Image.cellsOk (i : Image) : Bool :=
  i.cells.all (fun e =>
    let v := e.2
    fld (v.dw 0) 9 0 == e.1 && v.descOk && (v.decl == 0 || declsOk v.code v.decl 16384) &&
    (!v.stopSs1 || i.ownsGroup e.1) && v.outs.all (fun o => (Tab.get {} i.outs o).mode == 1) && i.masksOk v &&
    v.conns.all (fun n => i.conns.any (fun k => k.1 == n && fld (recW k.2 10) 9 0 == e.1))) &&
  (List.range 128).all (fun k => decide ((i.cells.filter (fun e => e.2.ownCt k)).length ≤ 1)) &&
  (List.range 128).all (fun n => decide ((i.cells.filter (fun e => e.2.ownIn n)).length ≤ 1)) &&
  i.cells.all (fun e => decide ((((i.cells.filter (fun f =>
    f.2.eng == e.2.eng && f.2.onPair == e.2.onPair)).map (fun f => f.2.conns.length)).foldl (· + ·) 0) ≤ 256))

/-! ### Connections (R336, R337) -/

/-- One path word. -/
def pathOk (w : Word) : Bool :=
  fld w 31 18 == 0 &&
  (if bit w 2 then decide (1 ≤ fld w 14 3) && decide (fld w 14 3 ≤ 4094) else fld w 17 3 == 0)

/-- One connection record (R337). -/
def connOk (l : List Word) : Bool :=
  let w := recW l
  let dual := bit (w 1) 25
  let udp := !bit (w 1) 24
  decide (1 ≤ fld (w 0) 30 0) && decide (1 ≤ fld (w 1) 9 0) && decide (fld (w 1) 9 0 ≤ 1000) &&
  decide (fld (w 1) 13 10 ≤ 13) && decide (4 * 125 * 2 ^ fld (w 1) 13 10 ≤ 1000 * fld (w 1) 9 0) &&
  decide (fld (w 1) 18 14 ≤ 16) && decide (fld (w 1) 23 19 ≤ 16) && fld (w 1) 31 26 == 0 && pathOk (w 2) &&
  fld (w 5) 31 16 == 0 && (udp || w 6 == 0) &&
  (if dual then pathOk (w 3) && fld (w 2) 1 0 != fld (w 3) 1 0 && fld (w 8) 31 16 == 0 && (udp || w 9 == 0)
   else w 3 == 0 && w 7 == 0 && w 8 == 0 && w 9 == 0) &&
  fld (w 10) 31 10 == 0 && w 11 == 0

/-- Every connection, named by its owner (R336, R337). -/
def Image.connsOk (i : Image) : Bool :=
  i.conns.all (fun k => decide (k.1 < 1024) && connOk k.2 &&
    i.cells.any (fun e => e.1 == fld (recW k.2 10) 9 0 && e.2.conns.contains k.1))

/-! ### Axes and groups (R311, R312) -/

/-- The connections that an axis record names. -/
def axisConns (l : List Word) : List Nat :=
  let w := recW l
  (if bit (w 0) 1 then [fld (w 0) 14 5] else []) ++ (if bit (w 1) 0 then [fld (w 1) 10 1] else []) ++
    (if bit (w 2) 0 then [fld (w 2) 10 1] else [])

/-- One axis record with the record and owner's cycle of its group (R311, R312). -/
def axisOk (l g : List Word) (owner : CellImg) : Bool :=
  let w := recW l
  let n := fun i => (w i).toNat
  let wilis := bit (w 0) 1
  let t := owner.cycle
  fld (w 0) 31 27 == 0 && !bit (w 2) 31 && (wilis || fld (w 0) 22 5 == 0) && (!wilis || fld (w 0) 4 2 == 0) &&
  decide (1 ≤ fld (w 1) 31 25) && decide (fld (w 1) 24 15 ≤ 1000) && (!bit (w 1) 0 || decide (1 ≤ fld (w 1) 24 15)) &&
  decide (1 ≤ fld (w 2) 29 20) && decide (fld (w 2) 29 20 ≤ 1000) &&
  decide (0 < n 3) && decide (0 < n 4) && decide (0 < n 7) &&
  (axisConns l).all (fun k => owner.conns.contains k) &&
  (if wilis then decide (n 9 * 8000 > n 5 * 8000 + n 4 * fld (w 1) 31 25)
   else decide (n 9 * t * 10 ^ 9 > 10 ^ 18 + n 4 * t * t)) &&
  decide ((fld (recW g 3) 15 0) * 1000 * n 7 ≥
    (fld (recW g 1) 19 0 + fld (recW g 2) 19 0) * n 7 + (n 3 + n 8 - n 9) * 10 ^ 6)

/-- One group record (R312). -/
def groupOk (g : List Word) (owner : CellImg) : Bool :=
  let w := recW g
  decide (owner.cycle ≤ 4000000) && owner.ownOut (fld (w 0) 16 11) && owner.ownOut (fld (w 0) 22 17) &&
  fld (w 0) 16 11 != fld (w 0) 22 17 && fld (w 0) 31 25 == 0 &&
  decide ((w 1).toNat ≤ 1000000) && decide ((w 2).toNat ≤ 1000000) &&
  decide (1 ≤ (w 3).toNat) && decide ((w 3).toNat ≤ 60000) && decide ((w 4).toNat ≤ 60000) &&
  decide (1 ≤ (w 5).toNat) && decide ((w 5).toNat ≤ 60000) &&
  decide (fld (w 6) 7 0 ≤ 223) && decide (fld (w 6) 15 8 ≤ 223) && fld (w 6) 31 18 == 0 && w 7 == 0

/-- Every group and every axis. -/
def Image.stopsOk (i : Image) : Bool :=
  i.groups.all (fun g => !bit (recW g.2 0) 0 ||
    (match i.cell (fld (recW g.2 0) 10 1) with
     | .none => false
     | some v => groupOk g.2 v)) &&
  i.axes.all (fun a => !bit (recW a.2 0) 0 ||
    (let g := Tab.get [] i.groups (fld (recW a.2 0) 26 23)
     bit (recW g 0) 0 &&
     (match i.cell (fld (recW g 0) 10 1) with
      | .none => false
      | some v => axisOk a.2 g v)))

/-- The records of an image keep every rule that R419 names. -/
def Image.valid (i : Image) : Bool :=
  i.ok && i.systemOk && i.insOk && i.fieldOk && i.cellsOk && i.connsOk && i.stopsOk

end Sys2Proof.Machine
end

