-- ==== Sys2Proof/Machine/Store.lean ====
section
/-! DEFINITION. The configuration store (R413 to R436): bank checks, the store port and its arbiter, the write sequence of a
session, passwords and sessions, and the change log. -/

namespace Sys2Proof.Machine

/-- REV of the module (R494). -/
def sysRev : Byte := 0xB0
/-- The largest image, 6 MiB (R413). -/
def imageMax : Nat := 6 * 1048576
/-- A bit of STORE_STAT [23:16] sets: 0 LOG90, 1 LOGLOST, 2 ROLLBACK, 3 AUTHFAIL, 4 LOCKOUT, 5 COMMIT, 6 BANKBAD, 7 LOGBUF. -/
def State.storeEvt (s : State) (i : Nat) : State :=
  { s with store := { s.store with evt := setBit s.store.evt i true } }.mark 0x1C04 (16 + i)

/-! ### Banks (R415 to R417) -/

/-- Store address of a bank's body and of its header sector (R413). -/
def bodyAddr (b : Bool) : Nat := if b then 0x600000 else 0
/-- Store address of a bank's header sector. -/
def hdrAddr (b : Bool) : Nat := if b then 0xF11000 else 0xF10000

/-- A byte of a bank's body: erased unless programmed. -/
def BankS.byte (k : BankS) (i : Nat) : Byte := Tab.get 0xFF k.body i
/-- The first n bytes of a body. -/
def BankS.bytes (k : BankS) (n : Nat) : List Byte := (List.range n).map k.byte

/-- HCRC of a header at a store address (R415). -/
def Header.crc (h : Header) (addr : Nat) : Word :=
  crc32cInit (BitVec.ofNat 32 addr) ([h.seq, h.len, h.bcrc, h.rev, h.icrc, h.resv].flatMap bytes4)

/-- HCRC is right: the bank has a readable SEQ (R416). -/
def BankS.hcrcOk (k : BankS) (b : Bool) : Bool := !k.hdrTorn && k.hdr.hcrc == k.hdr.crc (hdrAddr b)

/-- The first check of R416 that a bank fails, numbered from 1; 0 for a valid bank. -/
def BankS.failing (k : BankS) (b : Bool) : Nat :=
  let h := k.hdr
  let n := h.len.toNat
  if !k.hcrcOk b || decide (n = 0) || decide (imageMax < n) then 1
  else if h.commit ≠ h.seq ^^^ BitVec.allOnes 32 then 2
  else if h.revoke ≠ BitVec.allOnes 32 then 3
  else if k.torn.any (fun t => decide (65536 * t < n)) || h.bcrc != crc32cInit h.seq (k.bytes n) then 4
  else if h.rev ≠ sysRev.zeroExtend 32 then 5
  else 0

/-- A change of a bank. -/
def State.updBankS (s : State) (b : Bool) (f : BankS → BankS) : State :=
  if b then { s with store := { s.store with bank1 := f s.store.bank1 } }
  else { s with store := { s.store with bank0 := f s.store.bank0 } }

/-- The target bank: the one that did not win; bank 0 where none did (R417). -/
def State.target (s : State) : Bool := match s.store.win with | some b => !b | none => false

/-- SEQ of the next commit (R417). -/
def State.nextSeq (s : State) : Word := match s.store.win with | some _ => s.winSeq + 1 | none => 1

/-! ### The change log (R429 to R432) -/

/-- The words of an entry up to its CRC (R429). -/
def LogE.words (e : LogE) : List Word :=
  [e.kind.zeroExtend 32 ||| atLsb 32 8 e.role.toNat ||| atLsb 32 16 1, e.seq, e.tb.extractLsb' 0 32, e.tb.extractLsb' 32 32,
   e.cal.extractLsb' 0 32, e.cal.extractLsb' 32 32,
   (match e.cell with | some c => atLsb 32 0 c ||| atBit 32 10 true | none => 0) ||| atLsb 32 16 e.handle.toNat,
   e.oldSig, e.newSig, e.bankSeq, e.lost, e.site.zeroExtend 32 ||| atLsb 32 16 e.level.toNat, e.d12, e.d13] ++
  List.replicate 16 0

/-- The 128 bytes of an entry, with its CRC and read mark (R429). -/
def LogE.bytes (e : LogE) : List Byte :=
  let b := e.words.flatMap bytes4
  b ++ bytes4 (crc32cInit e.seq b) ++ bytes4 (if e.read then 0 else BitVec.allOnes 32)

/-- Slot of the ring that a sequence number takes (R413, R431). -/
def slotOfSeq (q : Word) : Nat := q.toNat % 16384

/-- Held entries whose read mark is erased (R432). -/
def State.unread (s : State) : Nat := (s.store.log.filter (fun e => !e.read)).length

/-- LOG90_EVT sets when the unread count reaches 7,373, and vector 0 is raised (R432). -/
def State.checkLog90 (s : State) (before : Nat) : State :=
  s.when (decide (before < 7373) && decide (7373 ≤ s.unread)) (fun s => (s.storeEvt 0).raise 0)

/-- The held set ends at the newest 8,192 entries: an unread entry that leaves it is lost and counted (R431). -/
def State.holdLog (s : State) : State :=
  let held := fun (e : LogE) => decide ((s.store.next - e.seq).toNat < 8192)
  let gone := (s.store.log.filter (fun e => !held e && !e.read)).length
  let n := min (2 ^ 32 - 1) (s.store.lostN.toNat + gone)
  let s := { s with store := { s.store with log := s.store.log.filter held, lostN := BitVec.ofNat 32 n } }
  s.when (decide (0 < gone)) (fun s => s.storeEvt 1)

/-- One entry is programmed: it takes the next sequence number and the lost-entry counter (R429, R431). A COMMIT entry names
a commit that is lost unless its bank becomes valid; a ROLLBACK entry ends that (R418, R420). -/
def State.programEntry (s : State) (e : LogE) : State :=
  let q := s.store.next + 1
  let e := { e with seq := q, lost := s.store.lostN }
  let pend := if e.kind = 0x05 then some e.bankSeq else if e.kind = 0x13 then none else s.store.pendC
  { s with store := { s.store with log := s.store.log ++ [e], next := q, stby := e.kind == 0x12, pendC := pend } }

/-- A page of the log is programmed: up to two entries leave the buffer (R421, R431). A page that is cut keeps its slots and
holds no valid entry. -/
def State.logPage (s : State) (x : OpEnd) : State :=
  let n := s.store.logN
  let now := s.store.buf.take n
  let before := s.unread
  let addr := 0xC00000 + 128 * slotOfSeq (s.store.next + 1) / 256 * 256
  let s := { s with store := { s.store with buf := s.store.buf.drop n, flushN := s.store.flushN.map (fun k => k - n) } }
  match x with
  | .cut => { s with store := { s.store with next := s.store.next + BitVec.ofNat 32 n } }
  | .done =>
    let first := slotOfSeq (s.store.next + 1) % 2
    let s := now.foldl State.programEntry s
    let bytes := (s.store.log.drop (s.store.log.length - now.length)).flatMap LogE.bytes
    let page := List.replicate (128 * first) (0xFF : Byte) ++ bytes
    let page := page ++ List.replicate (256 - page.length) 0xFF
    ((s.cvuItem 6 0 0 3 (BitVec.ofNat 32 addr) page).holdLog).checkLog90 before

/-- Read marks of one page are programmed (R432). -/
def State.programMarks (s : State) (x : OpEnd) : State :=
  match s.store.marks with
  | [] => s
  | m :: _ =>
    let same := fun (q : Word) => slotOfSeq q / 2 == slotOfSeq m / 2
    let marked := fun (e : LogE) => if same e.seq && s.store.marks.contains e.seq && decide (x = .done) then { e with read := true } else e
    { s with store := { s.store with marks := s.store.marks.filter (fun q => !same q), log := s.store.log.map marked } }

/-- The log writer erases a sector before the ring reaches it (R431). -/
def State.logErase (s : State) : Bool :=
  let n := slotOfSeq (s.store.next + 1)
  n % 32 == 0 && s.store.erased != some (n / 32)

/-- Entries of the next log page (R431). -/
def State.logCount (s : State) : Nat :=
  if slotOfSeq (s.store.next + 1) % 2 = 0 then min 2 s.store.buf.length else min 1 s.store.buf.length

/-! ### The port (R421, R422, R445) -/

/-- The operation that a job of the session is. -/
def Job.op : Job → StoreOp
  | .check => .none
  | .flush => .none
  | .eraseHdr => .eraseSector
  | .eraseBlk _ => .eraseBlock
  | .readBody => .read
  | .readLog => .read
  | _ => .program

/-- The session's next job. -/
def State.headJob (s : State) : Option Job := s.store.works.head?.bind (fun w => w.jobs.head?)

/-- The time after a periodic check from which BIST asks for the reads of the next one. DESIGN CHOICE: half of the 24 h in which each
check is due (R423). -/
def checkPeriod : Nat := 43200000000000

/-- The operation for which requester n asks, or none (R421). -/
def State.wanted (s : State) (n : Nat) : StoreOp :=
  match n with
  | 0 => if s.ho.step = .loading ∧ s.store.rtAt.all (fun t => s.past t 170000) = true then .read else .none
  | 1 =>
    if s.store.buf ≠ [] then (if s.logErase then .eraseSector else .program)
    else if s.store.marks ≠ [] then .program else .none
  | 2 => (s.headJob.map Job.op).getD .none
  | _ => if s.past s.store.checkAt checkPeriod then .read else .none

/-- A request may be granted: programs and erases wait for HOLD_OK (R445). -/
def State.grantable (s : State) (n : Nat) : Bool :=
  match s.wanted n with
  | .none => false
  | .read => true
  | _ => s.pwr.holdOk

/-- Priority of requester n in STORE_ARB. -/
def State.storePrio (s : State) (n : Nat) : Nat := fld s.store.prio (2 * n + 1) (2 * n)

/-- The requester that the arbiter chooses: the highest priority, and among equals the lowest number (R422). -/
def State.chosen (s : State) : Option Nat :=
  let l := (List.range 4).filter s.grantable
  l.find? (fun n => l.all (fun m => decide (s.storePrio m ≤ s.storePrio n)))

/-- STORE_GRANT (R422): with the port free, no freeze and no hold-up. -/
def execStoreGrant (s : State) : Host.Outcome State Fault Refusal :=
  if s.store.holder.isSome || s.store.freeze || s.pwr.fail || s.store.lost || !s.pwr.phase.hostUp then .next s
  else match s.chosen with
    | none => .next s
    | some n =>
      let erase := s.wanted 1 == .eraseSector
      doneSettled { s with store := { s.store with
        holder := some n, op := s.wanted n, logN := if n = 1 ∧ erase = false then s.logCount else 0,
        at6 := s.store.at6 || (n == 2 && s.headJob == some .commit) } }

/-! ### Sessions (R403, R428) -/

/-- A role's record. -/
def State.role (s : State) (r : Role) : RoleS := match r with | .maintenance => s.store.maint | .safetyEngineer => s.store.safety
/-- A change of a role's record. -/
def State.updRole (s : State) (r : Role) (f : RoleS → RoleS) : State :=
  match r with
  | .maintenance => { s with store := { s.store with maint := f s.store.maint } }
  | .safetyEngineer => { s with store := { s.store with safety := f s.store.safety } }
/-- The other role. -/
def roleOther : Role → Role | .maintenance => .safetyEngineer | .safetyEngineer => .maintenance

/-- Work of a session: its command names the handle on the queue pair. -/
def Work.ofSession (w : Work) (h : Half) (q : Nat) : Bool := w.q == q && w.d.any (fun d => d.sess == h && d.opc != 0x10)
/-- Work that writes the target bank. -/
def Work.writes (w : Work) : Bool := w.d.any (fun d => d.opc == 0x11 || d.opc == 0x12)

/-- Work ends with SESSION_ABORTED (R405). -/
def State.abortWork (s : State) (w : Work) : State :=
  match w.d with
  | none => s
  | some d => s.complete w.q d { status := 0x19 }

/-- A write sequence is rolled back: ROLLBACK names its SEQ (R420). -/
def State.rollback (s : State) : State :=
  (s.log { kind := 0x13, bankSeq := s.nextSeq }).storeEvt 2

/-- The work of a session that closes: what holds the port ends at its operation's end by the reset hook, the rest ends at
once (R420, R428). -/
def State.dropWork (s : State) (h : Half) (q : Nat) : State :=
  let busy := s.store.holder == some 2
  let keep := s.store.works.head?.filter (fun w => busy && w.ofSession h q)
  let rest := if keep.isSome then s.store.works.drop 1 else s.store.works
  let mine := rest.filter (fun w => w.ofSession h q)
  let left := rest.filter (fun w => !w.ofSession h q)
  let s := { s with store := { s.store with
    works := (match keep with | some w => [w] | none => []) ++ left, hook := s.store.hook || keep.isSome,
    hookAt := if keep.isSome then some s.now else s.store.hookAt,
    flushN := if keep.isSome then s.store.flushN else none } }
  let s := mine.foldl State.abortWork s
  s.when (mine.any Work.writes && keep.isNone) (fun s => s.rollback)

/-- What a safety engineer's session wrote and did not commit is discarded (R400, R428). -/
def State.discardImage (s : State) : State :=
  { s.updBankS s.target (fun k => { k with fresh := [], extent := 0 }) with store :=
    { (s.updBankS s.target (fun k => { k with fresh := [], extent := 0 })).store with begun := false } }

/-- A session closes: 0 closed, 1 idle timeout, 2 queue pair disabled, 3 reset, 4 standby (R428, R430). -/
def State.closeSession (s : State) (r : Role) (why : Nat) : State :=
  match (s.role r).sess with
  | none => s
  | some (h, q) =>
    let s := s.updRole r (fun x => { x with sess := none })
    let s := s.dropWork h q
    let s := if r = .safetyEngineer then s.discardImage else s
    s.log { kind := 0x04, role := r.n, handle := h, d12 := BitVec.ofNat 32 why }

/-- Both sessions close. -/
def State.closeSessions (s : State) (why : Nat) : State := (s.closeSession .maintenance why).closeSession .safetyEngineer why

/-! ### Jobs (R418 to R420) -/

/-- Programming clears bits only (R418). -/
def BankS.program (k : BankS) (off : Nat) (data : List Byte) : BankS :=
  { k with body := (List.range data.length).foldl (fun t i => Tab.upd 0xFF t (off + i) (fun b => b &&& data.getD i 0xFF)) k.body,
           extent := max k.extent (off + data.length) }

/-- A 64 KiB block is erased. -/
def BankS.eraseBlk (k : BankS) (n : Nat) : BankS :=
  { k with body := k.body.filter (fun e => e.1 / 65536 != n), fresh := k.fresh ++ [n], torn := k.torn.filter (fun t => t != n) }

/-- A page as it is sent to the die: the bytes written, and erased bytes around them. -/
def pageBytes (off : Nat) (data : List Byte) : List Byte :=
  let head := List.replicate (off % 256) (0xFF : Byte) ++ data
  head ++ List.replicate (256 - head.length) 0xFF

/-- The header words of the commit in progress (R415). -/
def State.newHeader (s : State) (b : Bool) : Header :=
  let k := s.storeBank b
  let h : Header := { seq := s.store.newSeq, len := BitVec.ofNat 32 s.store.newLen,
                      bcrc := crc32cInit s.store.newSeq (k.bytes s.store.newLen), rev := k.image.rev.zeroExtend 32,
                      icrc := k.image.icrc, resv := 0, commit := k.hdr.commit, revoke := k.hdr.revoke }
  { h with hcrc := h.crc (hdrAddr b) }

/-- The effect of a job that has ended (R418, R420, R426). -/
def State.jobDone (s : State) (j : Job) : State :=
  let b := s.target
  let area := if b then 2 else 1
  match j with
  | .eraseHdr => s.updBankS b (fun k => { k with hdr := {}, hdrTorn := false, image := Image.none })
  | .eraseBlk n => s.updBankS b (fun k => k.eraseBlk n)
  | .page off data =>
    (s.updBankS b (fun k => k.program off data)).cvuItem 6 0 0 area
      (BitVec.ofNat 32 (bodyAddr b + off / 256 * 256)) (pageBytes off data)
  | .header =>
    let h := s.newHeader b
    (s.updBankS b (fun k => { k with hdr := h })).cvuItem 6 0 0 area (BitVec.ofNat 32 (hdrAddr b))
      (pageBytes 0 ([h.seq, h.len, h.bcrc, h.rev, h.icrc, h.resv, h.hcrc].flatMap bytes4))
  | .commit =>
    let v := s.store.newSeq ^^^ BitVec.allOnes 32
    (s.updBankS b (fun k => { k with hdr := { k.hdr with commit := v } })).cvuItem 6 0 0 area
      (BitVec.ofNat 32 (hdrAddr b + 0x100)) (pageBytes 0 (bytes4 v))
  | .revoke =>
    (s.updBankS b (fun k => { k with hdr := { k.hdr with revoke := 0 } })).cvuItem 6 0 0 area
      (BitVec.ofNat 32 (hdrAddr b + 0x200)) (pageBytes 0 (bytes4 0))
  | .credA => { s with store := { s.store with credBad := setBit s.store.credBad 0 false } }
  | .credB =>
    { s with store := { s.store with gen := some (match s.store.gen with | some g => g + 1 | none => 0),
                                     credBad := setBit s.store.credBad 1 false } }
  | _ => s

/-- What an operation cut short leaves: a sector, block or page that fails its check (R414). -/
def State.jobCut (s : State) (j : Job) : State :=
  let b := s.target
  match j with
  | .eraseHdr => s.updBankS b (fun k => { k with hdrTorn := true })
  | .header => s.updBankS b (fun k => { k with hdrTorn := true })
  | .commit =>
    let v := Config.freeWord s.fresh
    s.updBankS b (fun k => { k with hdr := { k.hdr with
      commit := if v = k.hdr.seq ^^^ BitVec.allOnes 32 then BitVec.allOnes 32 else v } })
  | .eraseBlk n => s.updBankS b (fun k => { k with torn := k.torn ++ [n] })
  | .page off _ => s.updBankS b (fun k => { k with torn := k.torn ++ [off / 65536] })
  | .credA => { s with store := { s.store with credBad := setBit s.store.credBad 0 true } }
  | .credB => { s with store := { s.store with credBad := setBit s.store.credBad 1 true } }
  | _ => s

/-! ### Work -/

/-- The first work's jobs replaced. -/
def State.setJobs (s : State) (l : List Job) : State :=
  { s with store := { s.store with works := match s.store.works with | [] => [] | w :: t => { w with jobs := l } :: t } }

/-- The first work is over. -/
def State.popWork (s : State) : State := { s with store := { s.store with works := s.store.works.drop 1 } }

/-- The refusal of a commit, 0 for none (R419). -/
def State.commitCode (s : State) (i : Image) : Nat :=
  let k := s.storeBank s.target
  if s.store.lost then 0x18
  else if i.ok && i.rev != sysRev then 0x16
  else if s.store.win.isSome && s.winSeq == BitVec.allOnes 32 then 0x17
  else if !i.valid || decide (i.len = 0) || decide (k.extent < i.len) then 0x15
  else 0

/-- Cells whose SIG differs between two images, or that only one of them has (R430). -/
def changedCells (old new : Image) : List Nat :=
  let sig := fun (i : Image) (c : Nat) => (i.cell c).map CellImg.sig
  (List.range 1024).filter (fun c => sig old c != sig new c)

/-- The log entries of a commit (R430, R433). -/
def State.commitEntries (s : State) (h : Half) : List LogE :=
  let new := (s.storeBank s.target).image
  let old := s.committed
  let l := changedCells old new
  let sig := fun (i : Image) (c : Nat) => ((i.cell c).map CellImg.sig).getD 0
  l.map (fun c => s.logEntry { kind := 0x06, role := 2, cell := some c, handle := h, oldSig := sig old c, newSig := sig new c,
                               bankSeq := s.store.newSeq }) ++
  [s.logEntry { kind := 0x05, role := 2, handle := h, bankSeq := s.store.newSeq, d12 := BitVec.ofNat 32 s.store.newLen,
                d13 := BitVec.ofNat 32 l.length }]

/-- Step 3 of a commit: the image is checked; the blocks below LEN that the session has not written are erased, and the body
is read back (R418, R419). -/
def State.checkCommit (s : State) (w : Work) : State :=
  let b := s.target
  let k := s.storeBank b
  let i := Config.parseImage (k.bytes k.extent)
  let c := s.commitCode i
  if c ≠ 0 then
    match w.d with
    | some d => (s.popWork).complete w.q d { status := c }
    | none => s.popWork
  else
    let blocks := (List.range ((i.len + 65535) / 65536)).filter (fun n => !k.fresh.contains n)
    let s := s.updBankS b (fun k => { k with image := i })
    let s := { s with store := { s.store with newSeq := s.nextSeq, newLen := i.len, flushN := none, at6 := false } }
    s.setJobs (blocks.map Job.eraseBlk ++ List.replicate ((i.len + 4095) / 4096) Job.readBody ++ [.flush, .header, .commit])

/-- Step 7: the completion, and the new bank wins; credentials of the image follow (R418, R426). -/
def State.commitDone (s : State) (w : Work) : State :=
  let b := s.target
  let creds := (s.storeBank b).image.creds
  let s := s.popWork
  let s := match w.d with
    | some d => s.complete w.q d { res0 := s.store.newSeq }
    | none => s
  let s := s.updBankS b (fun k => { k with fresh := [], extent := 0 })
  let works := if creds.isSome then [{ q := w.q, d := none, jobs := [.credA, .credB], code := 0, res0 := 0 : Work }] else []
  { s with store := { s.store with win := some b, begun := false, at6 := false, pendC := none, works := works ++ s.store.works } }.availSweep.storeEvt 5

/-- New credentials are in both copies: they are in use from now on (R425, R426). -/
def State.useCreds (s : State) : State :=
  match s.committed.creds with
  | none => s
  | some (m, e) =>
    let s := s.updRole .maintenance (fun x => { x with cred := { m with factory := false } })
    let s := s.updRole .safetyEngineer (fun x => { x with cred := { e with factory := false } })
    s.log { kind := 0x16, role := 2, bankSeq := s.winSeq }

/-- LOG_READ has read its entries: they are copied, and their read marks wait to be programmed (R432). -/
def State.logReadDone (s : State) (w : Work) (d : Desc) : State :=
  let l := (s.store.log.filter (fun e => decide ((e.seq - d.p 0).toNat < 2 ^ 31))).take (d.len / 128)
  let next := match l.getLast? with | some e => e.seq + 1 | none => d.p 0
  let s := s.popWork
  let s := { s with store := { s.store with marks := s.store.marks ++ (l.filter (fun (e : LogE) => !e.read)).map LogE.seq } }
  s.complete w.q d { res0 := BitVec.ofNat 32 l.length, res1 := next, xlen := 128 * l.length, data := l.flatMap LogE.bytes }

/-- The first work has no jobs left (R418, R424, R432). -/
def State.workDone (s : State) (w : Work) : State :=
  match w.d with
  | none => if w.code = 1 then s.popWork else s.popWork.useCreds
  | some d =>
    match d.opc with
    | 0x12 => s.commitDone w
    | 0x05 => s.logReadDone w d
    | _ => s.popWork.complete w.q d { status := w.code, res0 := w.res0 }

/-- One step of the session's work that needs no operation of the port: a check, a flush, or the end of the first work. -/
def State.advance1 (s : State) : State :=
  if s.store.holder = some 2 then s
  else
    match s.store.works with
    | [] => s
    | w :: _ =>
      match w.jobs with
      | [] => s.workDone w
      | .check :: _ => s.checkCommit w
      | .flush :: t =>
        match s.store.flushN with
        | none =>
          let l := s.store.buf ++ s.commitEntries ((w.d.map Desc.sess).getD 0)
          { s with store := { s.store with buf := l, flushN := some l.length } }
        | some 0 => { s with store := { s.store with flushN := none } }.setJobs t
        | some _ => s
      | _ => s

/-- The session's work goes on as far as it can without the port. -/
def State.advance (s : State) : State := s.advance1.advance1.advance1.advance1

/-- Work joins the session's queue. -/
def State.addWork (s : State) (w : Work) : State :=
  { s with store := { s.store with works := s.store.works ++ [w] } }.advance

/-- The reset hook at the end of an operation: before step 6 the target is left as it stands, from step 6 on it is revoked
before any other grant (R420). -/
def State.hookAct (s : State) (w : Work) : State :=
  let s := { s with store := { s.store with hook := false, flushN := none } }
  let s := s.popWork.abortWork w
  let s := s.when w.writes (fun s => s.rollback.updBankS s.target (fun k => { k with fresh := [], extent := 0 }))
  if s.store.at6 then
    { s with store := { s.store with at6 := false, holder := some 2, op := .program,
                                     works := { q := w.q, d := none, jobs := [.revoke], code := 1, res0 := 0 } :: s.store.works } }
  else s

/-- An operation of the store die ends: the holder drops its request, and its operation has its effect (R414, R418, R421). Where the
reset of a holder meets the end of step 6 in one tick, the completion is written first and no revoke is made (R434). -/
def State.storeDone (s : State) (x : OpEnd) : State :=
  match s.store.holder with
  | none => s
  | some n =>
    let op := s.store.op
    let s := { s with store := { s.store with holder := none, op := .none } }
    match n with
    | 0 => { s with store := { s.store with rtAt := some s.now } }
    | 1 =>
      if op = .eraseSector then
        { s with store := { s.store with
          erased := if x = .done then some (slotOfSeq (s.store.next + 1) / 32) else s.store.erased } }
      else if s.store.logN = 0 then (s.programMarks x)
      else (s.logPage x).advance
    | 2 =>
      match s.store.works with
      | [] => s
      | w :: _ =>
        match w.jobs with
        | [] => s
        | j :: t =>
          if x = .cut then
            let t := s.jobCut j
            { t with store := { t.store with works := [], hook := false }, fresh := t.fresh + 1 }
          else
            let s := (s.jobDone j).setJobs t
            if s.store.hook && !(t.isEmpty && s.store.at6 && s.store.hookAt == some s.now) then (s.hookAct { w with jobs := t }).advance
            else { s with store := { s.store with hook := false } }.advance
    | _ => s

/-- STORE_OPERATION_DONE (R414, R418, R421): outside the hold-up an operation runs to its end, so nothing is cut short. -/
def execStoreOperationDone (x : OpEnd) (s : State) : Host.Outcome State Fault Refusal :=
  if x = .cut ∧ s.pwr.fail = false then .next s else doneSettled (s.storeDone x)

/-- A periodic check has failed: BANKBAD_EVT and a record (R423). -/
def State.checkFailed (s : State) (i : Nat) : State :=
  (s.storeEvt 6).record { src := 15, code := 2, site := siteStore 0, d6 := BitVec.ofNat 32 i }

/-- A valid bank fails its periodic check: it stays as loaded, and fails its check at the next start-up too (R423). -/
def State.bankFailed (s : State) (b : Bool) : State :=
  if (s.storeBank b).failing b = 0 then (s.updBankS b (fun k => { k with torn := k.torn ++ [0] })).checkFailed b.toNat
  else s

/-- STORE_PERIODIC_CHECK (R423): bits of `bad` name what failed: bank 0, bank 1, credential copies A and B, the log. -/
def execStorePeriodicCheck (bad : BitVec 5) (s : State) : Host.Outcome State Fault Refusal :=
  if s.store.lost then .next s
  else
    let s := { s with store := { s.store with credBad := s.store.credBad ||| bad.extractLsb' 2 2, checkAt := s.now } }
    let s := s.when (bit bad 0) (fun s => s.bankFailed false)
    let s := s.when (bit bad 1) (fun s => s.bankFailed true)
    let s := s.when (bit bad 2) (fun s => s.checkFailed 2)
    let s := s.when (bit bad 3) (fun s => s.checkFailed 3)
    doneSettled (s.when (bit bad 4) (fun s => s.checkFailed 4))

/-! ### Commands of a session (R400, R418, R424 to R428) -/

/-- The role of a SESS_OPEN. -/
def Desc.roleOf (d : Desc) : Option Role :=
  match (d.p 0).toNat with
  | 1 => some .maintenance
  | 2 => some .safetyEngineer
  | _ => none

/-- A role is locked out at TB `now`: in the tick in which its lockout ends too (R424, R434). -/
def RoleS.shut (x : RoleS) (now : Nat) : Bool := x.locked || x.freedAt == some now

/-- SESS_OPEN (R424, R425): lockout, then busy, then the length, then the password check begins. -/
def execSessOpen (q : Fin 64) (s : State) : Host.Outcome State Fault Refusal :=
  doneSettled (s.runCmd q.val 0x10 .none (fun s d =>
    match d.roleOf with
    | none => s.complete q.val d { status := 0x02 }
    | some r =>
      if s.store.lost then s.complete q.val d { status := 0x18 }
      else if (s.role r).shut s.now then s.complete q.val d { status := 0x13 }
      else if (s.role r).sess.isSome || (s.role r).chk.isSome then s.complete q.val d { status := 0x14 }
      else if d.len < 8 ∨ 64 < d.len then s.complete q.val d { status := 0x02 }
      else (s.markRan q.val d).updRole r (fun x => { x with chk := some q.val })))

/-- The credential record that a check uses: until a commit has carried credentials, the factory record (R425); all
0 once the spine's copy has been cleared for scan (R484). -/
def State.credOf (s : State) (r : Role) : Cred :=
  let c := (s.role r).cred
  if s.bist.cleared then { salt := 0, iters := 0, hash := 0, factory := false }
  else if c.factory then Config.factoryCred r else c

/-- The handle of a new session (R424). -/
def State.newHandle (s : State) (r : Role) : Half :=
  let fix := fun (h : Half) => if h = 0 then 1 else h
  let h := fix (s.tb.tb.extractLsb' 0 16)
  if (s.role (roleOther r)).sess.any (fun t => t.1 == h) then fix (h + 1) else h

/-- A SESS_OPEN ends with a code; FAILS and LEVEL that changed are in both credential copies first (R427). -/
def State.openEnds (s : State) (q : Nat) (d : Desc) (changed : Bool) (code : Nat) (res0 : Word) : State :=
  if changed then s.addWork { q := q, d := some d, jobs := [.credA, .credB], code := code, res0 := res0 }
  else s.complete q d { status := code, res0 := res0 }

/-- The lockout that a failure begins, in seconds (R427). -/
def lockSeconds (level : Nat) : Nat := 60 * 2 ^ min level 10

/-- Its fabric ticks of 4 ns, by which it is timed (R427). -/
def lockTicks (level : Nat) : Nat := 250000000 * lockSeconds level

/-- A fabric tick of a lockout (R427). -/
def RoleS.tick (x : RoleS) : RoleS := { x with lockT := x.lockT - 1 }

/-- PASSWORD_CHECK_DONE (R424, R425, R427). -/
def execPasswordCheckDone (r : Role) (s : State) : Host.Outcome State Fault Refusal :=
  let x := s.role r
  match x.chk with
  | none => .next s
  | some q =>
    let s := s.updRole r (fun x => { x with chk := none })
    match (s.qp q).cmds.find? (fun d => d.ran && d.opc == 0x10 && d.roleOf == some r) with
    | none => doneSettled s
    | some d =>
      let k := s.credOf r
      if (s.qp q).st ≠ .active then doneSettled (s.complete q d { status := 0x19 })
      else if Config.pbkdf2 ((d.buf.getD []).take d.len) k.salt k.iters = k.hash then
        let h := s.newHandle r
        let s := s.updRole r (fun x => { x with fails := 0, level := 0, sess := some (h, q), lastC := s.now })
        let s := s.log { kind := 0x01, role := r.n, handle := h }
        doneSettled (s.openEnds q d (x.fails != 0 || x.level != 0) 0 (h.zeroExtend 32))
      else
        let s := s.storeEvt 3
        if x.fails < 4 then
          let s := s.updRole r (fun x => { x with fails := x.fails + 1 })
          let s := s.log { kind := 0x02, role := r.n, d12 := BitVec.ofNat 32 (x.fails + 1) }
          doneSettled (s.openEnds q d true 0x12 0)
        else
          let s := s.updRole r (fun x => { x with fails := 0, level := min 11 (x.level + 1), locked := true, lockT := lockTicks x.level })
          let s := s.log { kind := 0x02, role := r.n }
          let s := (s.log { kind := 0x03, role := r.n, d12 := BitVec.ofNat 32 (lockSeconds x.level) }).storeEvt 4
          doneSettled (s.openEnds q d true 0x12 0)

/-- LOCKOUT_END (R427): once the ticks of the lockout have run out; a SESS_OPEN of the same tick is still governed by it (R434). -/
def execLockoutEnd (r : Role) (s : State) : Host.Outcome State Fault Refusal :=
  if (s.role r).locked = true ∧ (s.role r).lockT = 0 then
    doneSettled (s.updRole r (fun x => { x with locked := false, freedAt := some s.now }))
  else .next s

/-- Pages of 256 bytes that a write programs: offset and bytes of each (R418). -/
def pagesOf (off : Nat) (data : List Byte) : Nat → List Job
  | 0 => []
  | n + 1 =>
    if data = [] then []
    else
      let k := 256 - off % 256
      Job.page off (data.take k) :: pagesOf (off + k) (data.drop k) n

/-- A commit is in progress. -/
def State.committing (s : State) : Bool := s.store.works.any (fun w => w.d.any (fun d => d.opc == 0x12))

/-- SESS_WRITE (R400, R418): the header sector at the session's first write, each block before its first program, then the
pages. -/
def execSessWrite (q : Fin 64) (s : State) : Host.Outcome State Fault Refusal :=
  doneSettled (s.runCmd q.val 0x11 .safety (fun s d =>
    let off := (d.p 0).toNat
    if 65536 < d.len ∨ imageMax < off + d.len then s.complete q.val d { status := 0x02 }
    else if s.store.lost then s.complete q.val d { status := 0x18 }
    else if s.committing then s.complete q.val d { status := 0x14 }
    else
      let queued := s.store.works.flatMap (fun w => w.jobs)
      let begun := s.store.begun || queued.contains .eraseHdr
      let done := fun n => (s.storeBank s.target).fresh.contains n || queued.contains (.eraseBlk n)
      let blocks := (List.range 96).filter (fun n => decide (off / 65536 ≤ n) && decide (65536 * n < off + d.len) && !done n)
      let data := (d.buf.getD []).take d.len
      let jobs := (if begun then [] else [Job.eraseHdr]) ++ blocks.map Job.eraseBlk ++ pagesOf off data (data.length / 256 + 2)
      let s := { s with store := { s.store with begun := true } }
      (s.markRan q.val d).addWork { q := q.val, d := some { d with ran := true }, jobs := jobs, code := 0, res0 := 0 }))

/-- SESS_COMMIT (R418, R419). -/
def execSessCommit (q : Fin 64) (s : State) : Host.Outcome State Fault Refusal :=
  doneSettled (s.runCmd q.val 0x12 .safety (fun s d =>
    if s.store.lost then s.complete q.val d { status := 0x18 }
    else if s.committing then s.complete q.val d { status := 0x14 }
    else (s.markRan q.val d).addWork { q := q.val, d := some { d with ran := true }, jobs := [.check], code := 0, res0 := 0 }))

/-- SESS_CLOSE (R428). -/
def execSessClose (q : Fin 64) (s : State) : Host.Outcome State Fault Refusal :=
  doneSettled (s.runCmd q.val 0x13 .any (fun s d =>
    match s.sessionRole q.val d.sess with
    | none => s
    | some r => (s.closeSession r 0).complete q.val d {}))

/-- SESSION_IDLE_TIMEOUT (R428): 900 s without a command that names the session. -/
def execSessionIdleTimeout (r : Role) (s : State) : Host.Outcome State Fault Refusal :=
  if (s.role r).sess.isSome && s.past (s.role r).lastC (secs 900) then doneSettled (s.closeSession r 1) else .next s

/-- LOG_READ (R400, R432). -/
def execLogRead (q : Fin 64) (s : State) : Host.Outcome State Fault Refusal :=
  doneSettled (s.runCmd q.val 0x05 .maint (fun s d =>
    if d.len % 128 ≠ 0 then s.complete q.val d { status := 0x02 }
    else if d.len = 0 then s.complete q.val d { res0 := s.store.lostN, res1 := s.store.next }
    else if s.store.lost then s.complete q.val d { status := 0x18 }
    else
      let n := (min 8192 (d.len / 128) + 31) / 32
      (s.markRan q.val d).addWork
        { q := q.val, d := some { d with ran := true }, jobs := List.replicate n .readLog, code := 0, res0 := 0 }))

end Sys2Proof.Machine
end

