-- ==== Sys2Proof/Machine/Wilis.lean ====
section
/-! DEFINITION. The Wilis receiver and transmitter (R345 to R358) and the Ethernet ports (R359, R360). -/

namespace Sys2Proof.Machine

/-! ### Fields of a received frame (R339) -/

/-- Byte i. -/
def fByte (f : List Byte) (i : Nat) : Byte := f.getD i 0
/-- TYPE. -/
def fType (f : List Byte) : Nat := fld (fByte f 0) 3 0
/-- SAFE. -/
def fSafe (f : List Byte) : Bool := bit (fByte f 1) 0
/-- PATH. -/
def fPath (f : List Byte) : Nat := (bit (fByte f 1) 1).toNat
/-- LEN. -/
def fLen (f : List Byte) : Nat := (fByte f 2).toNat
/-- ID. -/
def fId (f : List Byte) : Word := word4be (f.drop 4)
/-- SEQ. -/
def fSeq (f : List Byte) : Half := ((fByte f 8).zeroExtend 16 <<< 8) ||| (fByte f 9).zeroExtend 16
/-- STAMP. -/
def fStamp (f : List Byte) : Word := word4be (f.drop 12)
/-- Data word j. -/
def fData (f : List Byte) (j : Nat) : Word := word4be (f.drop (16 + 4 * j))
/-- CHK as received, and as computed over the frame with its identity as initial value (R341). -/
def fChkOk (f : List Byte) : Bool :=
  word4be (f.drop (16 + 4 * fLen f)) == crc32cInit (fId f) (f.take (16 + 4 * fLen f))

/-- The frame is well formed as a frame of a type (R340): version, type, reserved bits, LEN. `rx` is the LEN of a DATA
frame of the connection its identity names. -/
def wellFormed (f : List Byte) (type : Nat) (rx : Option Nat) : Bool :=
  fld (fByte f 0) 7 4 == 1 && fType f == type && fld (fByte f 1) 7 2 == 0 && fByte f 3 == 0 && fByte f 10 == 0 &&
    fByte f 11 == 0 && decide (fLen f ≤ 16) && f.length == 20 + 4 * fLen f &&
    (if type = ftData then (match rx with | some n => fLen f == n | none => true)
     else if type = ftClose then fLen f == 0
     else fLen f == 1) &&
    (type != ftReject || fData f 0 == 1 || fData f 0 == 2)

/-- A frame is discarded: a counter of its MAC and, where found, the connection's (R347). -/
def State.discard (s : State) (m counter : Nat) (n : Option Nat) : State :=
  let s := s.macStat m counter
  match n with
  | some n => s.updConn n (fun c => { c with disc := satInc c.disc })
  | none => s

/-- Check 5 of R347: the frame is not stale. -/
def State.freshFrame (s : State) (n : Nat) (f : List Byte) : Bool :=
  let d := (s.micros - fStamp f).toNat
  decide (d * 1000 ≤ s.connWd n) || decide (d ≥ 2 ^ 32 - 100)

/-- Checks 1 to 4 of R347 on a frame of a type: the connection it belongs to, or none with the state in which it has been
discarded. No frame arrives on a MAC without its link (R359). -/
def State.admitFrame (s : State) (m : Nat) (x : Encap) (f : List Byte) (type : Nat) : Option Nat × State :=
  if !((s.mac m).en && (s.mac m).link) then (none, s)
  else
  let s := s.macStat m 0
  if !((s.mac m).wlEn && s.transport (!x.udp)) then (none, s)
  else if !x.ok then (none, s.discard m 10 none)
  else
    let n := s.connOfCid (fId f &&& 0x7FFFFFFF#32)
    if !wellFormed f type (n.map s.connRx) then (none, s.discard m 10 n)
    else match n with
      | none => (none, s.discard m 6 none)
      | some c =>
        if bit (fId f) 31 == s.connResp c || s.connEther c == x.udp || !(s.connPaths c).contains (fPath f) ||
            s.connMac c (fPath f) != m then (none, s.discard m 6 (some c))
        else if !fChkOk f then (none, s.discard m 7 (some c))
        else (some c, s)

/-- The watchdog of an OPEN connection has expired (R351). -/
def State.wdDue (s : State) (n : Nat) : Bool := (s.conn n).st == .open && s.past (s.conn n).rxAt (s.connWd n - 10000)

/-- A frame of a path counts for the path's liveness (R353); with both paths UP the code clears and redundancy of the
network kind is restored once every path of the owner's connections is UP (R63, R357). -/
def State.alive (s : State) (n path : Nat) : State :=
  let s := s.updConn n (fun c => if path = 0 then { c with up0 := true, at0 := s.now } else { c with up1 := true, at1 := s.now })
  if s.connDual n && (s.conn n).up0 && (s.conn n).up1 then
    let s := s.updConn n (fun c => { c with code := 0 })
    let o := s.connOwner n
    let all := match (s.cell o).ver with
      | some v => v.conns.all (fun k => !s.connDual k || ((s.conn k).st == .open && (s.conn k).up0 && (s.conn k).up1))
      | none => false
    s.when all (fun s => s.regain o 2)
  else s

/-- A new DATA frame is accepted (R347, R348, R352, R356). -/
def State.acceptData (s : State) (n : Nat) (f : List Byte) : State :=
  let d := (fSeq f - (s.conn n).rx).toNat
  let pass := fSafe f
  let was := if (s.conn n).rxAt = s.now ∧ (s.conn n).was ≠ [] then (s.conn n).was else s.entryWords n
  s.updConn n (fun c => { c with
    was := was, rx := fSeq f, stamp := fStamp f, rxAt := s.now, passv := pass, valid := true,
    data := if pass then [] else (List.range (s.connRx n)).map (fData f),
    lostO := BitVec.ofNat 16 (min 0xFFFF (c.lostO.toNat + (d - 1))),
    lost := BitVec.ofNat 32 (min 0xFFFFFFFF (c.lost.toNat + (d - 1))),
    code := if s.connDual n then c.code else 0 })

/-- DATA (R347, R348, R353, R358): the expiry of the same instant acts first. -/
def execData (m : Fin 4) (x : Encap) (f : List Byte) (s : State) : Host.Outcome State Fault Refusal :=
  let r := s.admitFrame m.val x f ftData
  match r.1 with
  | none => doneSettled r.2
  | some n =>
    let s := r.2
    if s.wdDue n then doneSettled ((s.failConn n 1).discard m.val 9 (some n))
    else if (s.conn n).st ≠ .open then doneSettled (s.discard m.val 9 (some n))
    else if !s.freshFrame n f then doneSettled (s.discard m.val 8 (some n))
    else
      let d := (fSeq f - (s.conn n).rx).toNat
      if d = 0 then doneSettled ((s.discard m.val 9 (some n)).alive n (fPath f))
      else if d ≤ 32767 then doneSettled (((s.acceptData n f).macStat m.val 5).alive n (fPath f))
      else doneSettled (s.discard m.val 9 (some n))

/-- REJECT of reason 2 for a CID the module does not hold, at most one a second for each MAC; its identity is the frame's
with the responder's direction (R357). -/
def State.rejectUnknown (s : State) (m : Nat) (x : Encap) (f : List Byte) : State :=
  let due := match (s.mac m).rejAt with
    | some t => s.past t 1000000000
    | none => true
  let unknown := (s.connOfCid (fId f &&& 0x7FFFFFFF#32)).isNone && !bit (fId f) 31
  if x.ok && s.macWilis m && s.transport (!x.udp) && unknown && due && wellFormed f ftConnect none && fChkOk f then
    let s := s.updMac m (fun k => { k with rejAt := some s.now })
    ((s.emit (.rejectUnknown m (wilisFrame ftReject false (fPath f) (fId f ||| 0x80000000#32) s.startSeq s.micros [2]))).macStat m 11).macStat m 12
  else s

/-- CONNECT (R349, R350, R357): a responder in CONNECTING or OPEN answers ACCEPT and opens, or REJECT and fails. -/
def execConnect (m : Fin 4) (x : Encap) (f : List Byte) (s : State) : Host.Outcome State Fault Refusal :=
  let r := s.admitFrame m.val x f ftConnect
  match r.1 with
  | none => doneSettled (r.2.rejectUnknown m.val x f)
  | some n =>
    let s := r.2
    if !s.connResp n then doneSettled (s.discard m.val 10 (some n))
    else if !s.freshFrame n f then doneSettled (s.discard m.val 8 (some n))
    else if (s.conn n).st ≠ .connecting ∧ (s.conn n).st ≠ .open then doneSettled (s.discard m.val 9 (some n))
    else if fData f 0 = s.connParam n then
      let sq := s.startSeq
      let s := s.sendFrame n ftAccept false sq [s.connParam n]
      doneSettled ((s.openConn n sq (fSeq f) (fStamp f)).macStat m.val 5)
    else
      let s := s.sendFrame n ftReject false s.startSeq [1]
      doneSettled ((s.failConn n 4).macStat m.val 5)

/-- ACCEPT (R349, R350): an originator in CONNECTING opens with the sequences of both starts. -/
def execAccept (m : Fin 4) (x : Encap) (f : List Byte) (s : State) : Host.Outcome State Fault Refusal :=
  let r := s.admitFrame m.val x f ftAccept
  match r.1 with
  | none => doneSettled r.2
  | some n =>
    let s := r.2
    if s.connResp n then doneSettled (s.discard m.val 10 (some n))
    else if !s.freshFrame n f then doneSettled (s.discard m.val 8 (some n))
    else if (s.conn n).st = .connecting ∧ fData f 0 = s.connParam n then
      doneSettled ((s.openConn n (s.conn n).tx (fSeq f) (fStamp f)).macStat m.val 5)
    else doneSettled (s.discard m.val 9 (some n))

/-- REJECT (R349, R357). -/
def execReject (m : Fin 4) (x : Encap) (f : List Byte) (s : State) : Host.Outcome State Fault Refusal :=
  let r := s.admitFrame m.val x f ftReject
  match r.1 with
  | none => doneSettled r.2
  | some n =>
    let s := r.2
    if s.connResp n then doneSettled (s.discard m.val 10 (some n))
    else if !s.freshFrame n f then doneSettled (s.discard m.val 8 (some n))
    else if (s.conn n).st = .connecting ∨ (s.conn n).st = .open then
      doneSettled ((s.failConn n (if fData f 0 = 1 then 4 else 5)).macStat m.val 5)
    else doneSettled (s.discard m.val 9 (some n))

/-- CLOSE: checks 5 and 6 excepted (R349). -/
def execClose (m : Fin 4) (x : Encap) (f : List Byte) (s : State) : Host.Outcome State Fault Refusal :=
  let r := s.admitFrame m.val x f ftClose
  match r.1 with
  | none => doneSettled r.2
  | some n =>
    if (r.2.conn n).st = .open then doneSettled ((r.2.failConn n 6).macStat m.val 5)
    else doneSettled (r.2.discard m.val 9 (some n))

/-- The data that connection n sends are passivated: the owner is not running or its degraded-mode limit has expired, or either
version asks for it (R50, R290, R297, R358). DEDUCED: degraded-mode expiry lasts from the expiry to the end of the configured stop,
SS1 included. -/
def State.passive (s : State) (n : Nat) : Bool :=
  let o := s.cell (s.connOwner n)
  !(o.st == .running || o.st == .handover) || o.expd || (s.conn n).ctl != 0 ||
    (o.st == .handover && (s.conn n).ctl1 != 0)

/-- WILIS_DATA_TRANSMIT: at its instant, one DATA frame on every path, SEQ advanced by 1 (R345). -/
def execWilisDataTransmit (c : Fin 1024) (s : State) : Host.Outcome State Fault Refusal :=
  let n := c.val
  let k := s.conn n
  if k.st = .open ∧ s.txDue n = true then
    let pass := s.passive n
    let data := (List.range (s.connTx n)).map (fun j => if pass then 0 else Tab.get 0 k.out j ||| Tab.get 0 k.cmdOr j)
    let s := s.updConn n (fun k => { k with tx := k.tx + 1, txAt := some s.now })
    doneSettled (s.sendFrame n ftData pass (k.tx + 1) data)
  else .next s

/-- CONNECT_TRANSMIT: an originator in CONNECTING, every TXP; its starting sequence is chosen now (R349, R350). -/
def execConnectTransmit (c : Fin 1024) (s : State) : Host.Outcome State Fault Refusal :=
  let n := c.val
  if (s.conn n).st = .connecting ∧ s.connResp n = false ∧ s.txDue n = true then
    let sq := s.startSeq
    doneSettled ((s.updConn n (fun k => { k with tx := sq, txAt := some s.now })).sendFrame n ftConnect false sq [s.connParam n])
  else .next s

/-- WILIS_WATCHDOG_EXPIRY (R351). -/
def execWilisWatchdogExpiry (c : Fin 1024) (s : State) : Host.Outcome State Fault Refusal :=
  if s.wdDue c.val then doneSettled (s.failConn c.val 1) else .next s

/-- A path's expiry instant has passed: since its last frame, or with none since entry into OPEN (R353, R354). -/
def State.pathDue (s : State) (n : Nat) (second : Bool) : Bool :=
  let k := s.conn n
  let up := if second then k.up1 else k.up0
  if up then s.past (if second then k.at1 else k.at0) (s.connWd n - 10000)
  else s.past k.since (s.connWd n) && k.code != (if second then 3 else 2)

/-- PATH_DOWN: the watchdog's expiry governs; with the other path UP the owner loses redundancy of the network kind (R59,
R353, R354, R358). -/
def execPathDown (c : Fin 1024) (second : Bool) (s : State) : Host.Outcome State Fault Refusal :=
  let n := c.val
  if s.wdDue n then doneSettled (s.failConn n 1)
  else if (s.conn n).st == .open && s.connDual n && s.pathDue n second then
    let other := if second then (s.conn n).up0 else (s.conn n).up1
    let s := (s.updConn n (fun k =>
      if second then { k with up1 := false, code := 3 } else { k with up0 := false, code := 2 })).wlEvt 2
    doneSettled (s.when other (fun s => s.lose (s.connOwner n) 2))
  else .next s

/-- FAILED_RETRY: T_WD after entry into FAILED (R349). -/
def execFailedRetry (c : Fin 1024) (s : State) : Host.Outcome State Fault Refusal :=
  if (s.conn c.val).st = .failed ∧ s.past (s.conn c.val).since (s.connWd c.val) = true then
    doneSettled (s.updConn c.val (fun k => k.enter .connecting s.now))
  else .next s

/-! ### Ethernet ports -/

/-- The queue pair bound to a MAC: a network queue pair that is enabled, or that has left ACTIVE in this tick (R391, R411). -/
def State.netQp (s : State) (m : Nat) : Option Nat :=
  (List.range 64).find? (fun q =>
    let x := s.qp q
    x.cls && x.mac.toNat == m && (x.st != .disabled || x.leftAt == some s.now))

/-- A frame for the host goes with its receive stamp to the network queue pair of its MAC, which takes it as the tick ends: it is
dropped where the queue pair leaves ACTIVE in the same tick (R360, R411). -/
def State.deliver (s : State) (m : Nat) (f : List Byte) : State :=
  match s.netQp m with
  | none => s
  | some q => { s with hif := { s.hif with rx := s.hif.rx ++ [(q, f, s.tb.tb.extractLsb' 0 32)] } }

/-- A frame goes to the oldest buffer posted on its queue pair, or is dropped and counted (R400, R405, R409). -/
def State.takeFrame (s : State) (q : Nat) (f : List Byte) (stamp : Word) : State :=
  match (s.qp q).st, (s.qp q).posts with
  | .active, d :: rest =>
    let s := (s.macStat (s.qp q).mac.toNat 4).updQp q (fun x => { x with posts := rest })
    let short := decide (d.len < f.length)
    s.complete q d { status := if short then 0x05 else 0, res0 := stamp, xlen := f.length, data := f.take d.len }
  | _, _ => s.updQp q (fun x => { x with drop := satInc x.drop })

/-- ETHERNET_FRAME_RECEIVE: a frame without its FCS, whose check, length and kind decide (R359, R360). -/
def execEthernetFrameReceive (m : Fin 4) (f : List Byte) (fcsOk pause : Bool) (s : State) : Host.Outcome State Fault Refusal :=
  let i := m.val
  if (s.mac i).en && (s.mac i).link then
    let s := s.macStat i 0
    if !fcsOk then doneSettled ((s.macStat i 1).macEvt i 2)
    else if f.length < 60 ∨ 1518 < f.length then doneSettled (s.macStat i 2)
    else if pause then doneSettled ((s.macStat i 3).macEvt i 3)
    else doneSettled (s.deliver i f)
  else .next s

/-- Connections that no MAC of any of their paths carries take code NO_TRANSPORT (R357). -/
def State.noTransport (s : State) : State :=
  s.connList.foldl (fun s n =>
    let up := s.transport (s.connEther n) && (s.connPaths n).any (fun p => (s.mac (s.connMac n p)).link)
    s.when (!up && (s.conn n).st != .closed) (fun s => s.updConn n (fun k => { k with code := 7 }))) s

/-- SGMII_LINK_CHANGE (R359, R361). -/
def execSgmiiLinkChange (m : Fin 4) (l : Link) (s : State) : Host.Outcome State Fault Refusal :=
  let i := m.val
  let up := (s.mac i).en && l == .up
  let change := (s.mac i).link != up
  let s := s.updMac i (fun k => { k with link := up })
  let s := (s.when change (fun s => s.macEvt i 0)).when (decide (l = .bad)) (fun s => s.macEvt i 1)
  doneSettled (s.noTransport.portCheck i)

end Sys2Proof.Machine
end

