-- ==== Sys2Proof/Machine/Host.lean ====
section
/-! DEFINITION. The host interface (R387 to R412): the link and its resets, doorbells and fetches, queue-pair states,
MSI-X, host silence, and the commands of R400 that need no session, ACK among them. -/

namespace Sys2Proof.Machine

/-! ### Queue-pair states (R396) -/

/-- A queue pair enters ERROR with a cause: ERR_EVT and QPERR_EVT set (R396, R410). -/
def State.qpError (s : State) (q cause : Nat) : State :=
  ((s.updQp q (fun x => Qp.drained { x with st := .error, cause := BitVec.ofNat 3 cause, errEvt := true, leftAt := some s.now })).mark
    (qpStatKey q) 16).hifEvt 3

/-- Posted receive buffers of a queue pair return unused with RX_CANCELLED (R396). -/
def State.cancelPosts (s : State) (q : Nat) : State :=
  let l := (s.qp q).posts
  l.foldl (fun s d => s.complete q d { status := 0x44 }) (s.updQp q (fun x => { x with posts := [] }))

/-- Sessions bound to a queue pair close as SESS_CLOSE does (R403, R428). -/
def State.closeBound (s : State) (q why : Nat) : State :=
  let one := fun (s : State) (r : Role) => s.when ((s.role r).sess.any (fun t => t.2 == q)) (fun s => s.closeSession r why)
  one (one s .maintenance) .safetyEngineer

/-- A set-up is valid: sizes from 1 to 12, aligned bases, and for a network queue pair a MAC bound to no other enabled one
(R392, R396). -/
def State.setupOk (s : State) (q : Nat) : Bool :=
  let x := s.qp q
  decide (1 ≤ x.sqExp) && decide (x.sqExp ≤ 12) && decide (1 ≤ x.cqExp) && decide (x.cqExp ≤ 12) &&
    x.sqBase.toNat % 64 == 0 && x.cqBase.toNat % 32 == 0 &&
    (!x.cls || (List.range 64).all (fun k => k == q || !((s.qp k).cls && (s.qp k).mac == x.mac && (s.qp k).st != .disabled)))

/-- EN set to 1 in DISABLED: ACTIVE with all indices 0, or an invalid set-up (R396). -/
def State.enableQp (s : State) (q : Nat) : State :=
  if s.setupOk q then
    s.updQp q (fun x => { x with en := true, st := .active, sqp := 0, sqc := 0, cqp := 0, cqc := 0, irq := 0 })
  else (s.updQp q (fun x => { x with cause := 4, errEvt := true })).mark (qpStatKey q) 16

/-- EN set to 0: ACTIVE drains, ERROR ends once OUT is 0; sessions bound to it close and posted buffers return (R396). -/
def State.disableQp (s : State) (q : Nat) : State :=
  let s := s.closeBound q 2
  let s := s.updQp q (fun x => { x with
    en := false, st := if x.st = .active then .draining else x.st, leftAt := if x.st = .active then some s.now else x.leftAt })
  (s.cancelPosts q).updQp q Qp.drained

/-- A write to QP_CTL (R396, R410): outside DISABLED it takes effect in EN only, and a change of class or MAC sets ACC_EVT. -/
def State.writeQpCtl (s : State) (q : Nat) (v : Word) : State :=
  let x := s.qp q
  let cls := bit v 1
  let mac : BitVec 2 := v.extractLsb' 2 2
  let s :=
    if x.st = .disabled then
      let s := s.updQp q (fun x => { x with cls := cls, mac := mac })
      s.when (bit v 0) (fun s => s.enableQp q)
    else
      let s := s.when (x.cls != cls || x.mac != mac) (fun s => s.hifEvt 5)
      s.when (!bit v 0 && x.en) (fun s => s.disableQp q)
  s.checkSilence

/-- QP_ENABLE: a host write of QP_CTL with EN = 1. -/
def execQpEnable (q : Fin 64) (v : Word) (s : State) : Host.Outcome State Fault Refusal :=
  doneSettled (s.hostWrite.writeQpCtl q.val v)

/-- QP_DISABLE: a host write of QP_CTL with EN = 0. -/
def execQpDisable (q : Fin 64) (v : Word) (s : State) : Host.Outcome State Fault Refusal :=
  doneSettled (s.hostWrite.writeQpCtl q.val v).advance

/-! ### Doorbells and fetches (R393 to R396) -/

/-- SQP takes an index; a fetch decision of the same tick still uses the old one (R394, R411). -/
def Qp.ring (x : Qp) (now : Nat) (p : Half) : Qp :=
  { x with sqp := p, sqpAt := some now, sqpWas := if x.sqpAt = some now then x.sqpWas else x.sqp }

/-- SQ_DOORBELL (R394). -/
def execSqDoorbell (q : Fin 64) (v : Word) (s : State) : Host.Outcome State Fault Refusal :=
  let s := s.hostWrite
  let x := s.qp q.val
  let p : Half := v.extractLsb' 0 16
  if fld v 31 16 ≠ 0 ∨ x.st ≠ .active then doneSettled (s.hifEvt 4)
  else if (p - x.sqc).toNat ≤ 2 ^ x.sqExp then doneSettled (s.updQp q.val (fun x => x.ring s.now p))
  else doneSettled (s.qpError q.val 1).checkSilence

/-- CQ_DOORBELL (R394): one beyond CQP is judged as the tick ends, against the CQP that includes its completions (R411). -/
def execCqDoorbell (q : Fin 64) (v : Word) (s : State) : Host.Outcome State Fault Refusal :=
  let s := s.hostWrite
  let x := s.qp q.val
  let c : Half := v.extractLsb' 0 16
  if fld v 31 16 ≠ 0 ∨ x.st ≠ .active then doneSettled (s.hifEvt 4)
  else if (c - x.cqc).toNat ≤ (x.cqp - x.cqc).toNat then doneSettled (s.updQp q.val (fun x => { x with cqc := c }))
  else doneSettled { s with hif := { s.hif with late := s.hif.late ++ [(q.val, c)] } }

/-- A CQ doorbell beyond CQP as its tick ends: accepted, or ERROR with cause 5 (R394, R411). -/
def State.lateDoorbell (s : State) (q : Nat) (c : Half) : State :=
  let x := s.qp q
  if x.st ≠ .active then s
  else if (c - x.cqc).toNat ≤ (x.cqp - x.cqc).toNat then s.updQp q (fun x => { x with cqc := c })
  else (s.qpError q 5).checkSilence

/-- SQP as a fetch decision at TB `now` sees it: before a doorbell of the same tick (R411). -/
def Qp.sqpSeen (x : Qp) (now : Nat) : Half := if x.sqpAt = some now then x.sqpWas else x.sqp

/-- Entries that the next read of a queue pair's SQ takes: at most four, as far as SQP and the credit allow (R393, R395). -/
def Qp.fetchable (x : Qp) (now : Nat) : Nat :=
  min 4 (min (x.sqpSeen now - x.sqc).toNat (2 ^ x.cqExp - ((x.cqp - x.cqc).toNat + x.out)))

/-- SQ reads outstanding (R395). -/
def State.sqReads (s : State) : Nat := (s.hif.qps.filter (fun e => e.2.reading.isSome)).length

/-- A queue pair has entries to fetch and no read outstanding (R393, R395). -/
def State.canFetch (s : State) (q : Nat) : Bool :=
  let x := s.qp q
  x.st == .active && x.reading.isNone && x.fetchable s.now != 0

/-- The queue pair whose turn it is: the next one in round robin that can fetch (R395). -/
def State.fetchTurn (s : State) : Option Nat :=
  ((List.range 64).map (fun i => (s.hif.turn + 1 + i) % 64)).find? s.canFetch

/-- SQ_FETCH (R393, R395): the queue pair whose turn it is sends its read request, SQC and OUT advance. -/
def execSqFetch (q : Fin 64) (s : State) : Host.Outcome State Fault Refusal :=
  let x := s.qp q.val
  let n := x.fetchable s.now
  if s.busUp = true ∧ s.hostPath = true ∧ s.sqReads < 8 ∧ s.fetchTurn = some q.val then
    let s := { s with hif := { s.hif with turn := q.val } }
    doneSettled ((s.updQp q.val (fun x => { x with sqc := x.sqc + BitVec.ofNat 16 n, out := x.out + n, reading := some (x.sqc, n) })).emit
      (.fetch q.val x.sqc.toNat n))
  else .next s

/-- Commands that no row of the table runs: a reserved OPC, and a DIAG_READ whose selector is reserved (R400, R404). The code
with which such a command completes, 0 for any other. -/
def State.refusalOf (s : State) (q : Nat) (d : Desc) : Nat :=
  if !opcKnown d.opc then 0x01
  else if d.opc ≠ 0x04 then 0
  else if (s.qp q).cls then 0x04
  else if !d.shapeOk || decide ((d.p 0).toNat = 0) || decide (6 < (d.p 0).toNat) then 0x02
  else 0

/-- An entry arrives: its command joins those of its queue pair, and the read of its buffer is requested (R396, R399). -/
def State.arrive (s : State) (q : Nat) (d : Desc) : State :=
  let c := s.refusalOf q d
  let s := s.updQp q (fun x => { x with cmds := x.cmds ++ [d] })
  if c ≠ 0 then s.complete q d { status := c }
  else s.when (opcReads d.opc) (fun s => s.emit (.fetch q d.sqidx.toNat 0))

/-- Entries of the outstanding SQ read arrive in order (R395). -/
def State.arriveAll (s : State) (q : Nat) (l : List (List Word)) : State :=
  match (s.qp q).reading with
  | none => s
  | some (first, n) =>
    let k := min n l.length
    let s := s.updQp q (fun x => { x with reading := if k = n then none else some (first + BitVec.ofNat 16 k, n - k) })
    (List.range k).foldl (fun s i =>
      s.arrive q { w := padTo 16 (l.getD i []), sqidx := first + BitVec.ofNat 16 i, buf := none, memErr := false, ran := false, net := (s.qp q).cls }) s

/-- The entry read of a queue pair fails: ERROR with cause 2, and the entries never arrive (R396). -/
def State.entryReadFailed (s : State) (q : Nat) : State :=
  match (s.qp q).reading with
  | none => s
  | some (_, n) =>
    let s := s.updQp q (fun x => { x with reading := none, out := x.out - n })
    ((s.when ((s.qp q).st == .active) (fun s => s.qpError q 2)).updQp q Qp.drained).checkSilence

/-- The oldest command of a queue pair whose buffer read is outstanding takes its outcome (R396). -/
def State.bufferRead (s : State) (q : Nat) (f : Desc → Desc) : State :=
  match (s.qp q).cmds.find? (fun d => opcReads d.opc && d.buf.isNone && !d.memErr) with
  | none => s
  | some d => s.updQp q (fun x => { x with cmds := x.cmds.map (fun y => if y = d then f d else y) })

/-- The write of a completion fails: ERROR with cause 3 (R396). -/
def State.cqWriteFailed (s : State) (q : Nat) : State :=
  s.when ((s.qp q).st == .active || (s.qp q).st == .draining) (fun s => (s.qpError q 3).checkSilence)

/-- DMA_READ_COMPLETION (R395, R396). -/
def execDmaReadCompletion (q : Fin 64) (d : DmaData) (s : State) : Host.Outcome State Fault Refusal :=
  match d with
  | .entries l => doneSettled (s.arriveAll q.val l)
  | .buffer l => doneSettled (s.bufferRead q.val (fun d => { d with buf := some l }))
  | .failed true => doneSettled (s.entryReadFailed q.val)
  | .failed false => doneSettled (s.bufferRead q.val (fun d => { d with memErr := true }))
  | .cqeFailed => doneSettled (s.cqWriteFailed q.val)

/-- COMPLETION_TIMEOUT: as an error completion (R387, R396). -/
def execCompletionTimeout (q : Fin 64) (entry : Bool) (s : State) : Host.Outcome State Fault Refusal :=
  if entry then doneSettled (s.entryReadFailed q.val)
  else doneSettled (s.bufferRead q.val (fun d => { d with memErr := true }))

/-! ### Interrupts (R407) -/

/-- CQ_INTERRUPT_TIMER: CQ_TIM µs after the first completion counted (R407). -/
def execCqInterruptTimer (q : Fin 64) (s : State) : Host.Outcome State Fault Refusal :=
  let x := s.qp q.val
  if x.irqOn && decide (x.irq ≠ 0) && s.past x.irqAt (us (fld x.cqCfg 22 13)) then
    doneSettled ((s.updQp q.val (fun x => { x with irq := 0 })).raise (q.val + 1))
  else .next s

/-- Pending vectors that are unmasked send their messages once the bus is up (R407). -/
def State.sendPending (s : State) : State :=
  s.each 65 (fun s v => s.when (bit s.hif.pend v && s.busUp && !bit s.hif.mask v) (fun s =>
    { s with hif := { s.hif with pend := setBit s.hif.pend v false } }.emit (.msix v)))

/-- MSI_X_TABLE_WRITE (R388, R389, R407): bit 0 of an entry's word 3 masks the vector. -/
def execMsiXTableWrite (offset : BitVec 12) (v : Word) (s : State) : Host.Outcome State Fault Refusal :=
  let s := s.hostWrite
  let a := offset.toNat
  if a % 4 ≠ 0 ∨ a < 0x800 ∨ 0xC10 ≤ a then doneSettled (s.hifEvt 5)
  else
    let i := (a - 0x800) / 4
    let w : Word := if i % 4 = 3 then v &&& 1 else v
    let s := { s with hif := { s.hif with msix := Tab.put 0 s.hif.msix i w } }
    if i % 4 = 3 then
      doneSettled { s with hif := { s.hif with mask := setBit s.hif.mask (i / 4) (bit v 0) } }.sendPending
    else doneSettled s

/-! ### The link, its resets and silence (R387, R390, R408, R409) -/

/-- HOST_SILENCE_ONSET: with a queue pair ACTIVE, T_HSIL has passed without a write; 0 disables (R408, R410). A doorbell write of the
same tick is activity still: the silence begins as the tick ends (R411). -/
def execHostSilenceOnset (s : State) : Host.Outcome State Fault Refusal :=
  if s.anyActive && s.hif.tHsil != 0 && s.past s.hif.lastW (ms (10 * s.hif.tHsil.toNat)) then
    doneSettled { s with hif := { s.hif with silTo := true } }
  else .next s

/-- What the host interface judges as a tick ends: CQ doorbells, frames for the host, and a silence (R411). -/
def State.hostTick (s : State) : State :=
  if s.hif.late = [] ∧ s.hif.rx = [] ∧ (s.hif.silTo = false ∨ s.hif.silent = true) then s
  else
    let late := s.hif.late
    let rx := s.hif.rx
    let s := { s with hif := { s.hif with late := [], rx := [] } }
    let s := late.foldl (fun s e => s.lateDoorbell e.1 e.2) s
    let s := rx.foldl (fun s e => s.takeFrame e.1 e.2.1 e.2.2) s
    s.checkSilence.settle

/-- A command that outlives the reset of its queue pair: none that a session carries but a hand-over or a unit reset that runs, and none
that waits for its buffer or for a frame (R390, R409). -/
def Desc.survives (d : Desc) : Bool :=
  if d.handover || d.opc == 0x24 || d.opc == 0x25 then d.ran
  else !opcReads d.opc && !opcSession d.opc && d.opc != 0x31

/-- What a reset leaves of a queue pair: DISABLED with nothing set up, and the commands fetched that run on unseen (R390, R409). -/
def Qp.orphans (x : Qp) : Option Qp :=
  let l := (x.cmds.filter Desc.survives).map (fun d => { d with lost := true })
  if l = [] then none else some { cmds := l }

/-- The reset of the host interface (R390): sessions abort, every queue pair is DISABLED, completions not written are
discarded, the HIF block and the configuration space return to their reset values. Only what lies outside them stays: the
link and PE_PERSTN, the silence in progress, and the host process image. Commands already fetched run to their end, those of the
sessions and those that wait for their buffer or a frame apart (R409). -/
def State.hostReset (s : State) : State :=
  let s := { s with hif := { s.hif with qps := s.hif.qps.filterMap (fun (e : Nat × Qp) => e.2.orphans.map (fun x => (e.1, x))) } }.closeSessions 3
  let stop := fun (x : RoleS) => { x with chk := none }
  let s := (s.updRole .maintenance stop).updRole .safetyEngineer stop
  let h := s.hif
  { s with hif := { linkUp := h.linkUp, perstn := h.perstn, silent := h.silent, silAt := h.silAt, lastW := h.lastW,
                    snap := h.snap, wakeV := h.wakeV, qps := h.qps } }

/-- The link goes down with the reset of the host interface. -/
def State.linkLost (s : State) : State :=
  let s := s.hostReset
  { s with hif := { s.hif with linkUp := false } }.checkSilence

/-- PE_PERSTN_LOW: conventional reset (R390, R522). -/
def execPePerstnLow (s : State) : Host.Outcome State Fault Refusal :=
  doneSettled ({ s with hif := { s.hif with perstn := false } }.linkLost).advance

/-- PE_PERSTN_RELEASE (R522): the link may train. -/
def execPePerstnRelease (s : State) : Host.Outcome State Fault Refusal :=
  doneSettled { s with hif := { s.hif with perstn := true } }

/-- FUNCTION_LEVEL_RESET (R390). -/
def execFunctionLevelReset (s : State) : Host.Outcome State Fault Refusal :=
  doneSettled s.hostReset.checkSilence.advance

/-- HOT_RESET (R390). -/
def execHotReset (s : State) : Host.Outcome State Fault Refusal :=
  doneSettled s.hostReset.checkSilence.advance

/-- DL_DOWN (R390, R408). -/
def execDlDown (s : State) : Host.Outcome State Fault Refusal :=
  doneSettled s.linkLost.advance

/-- The link may train: the endpoint is in service, PE_PERSTN is released, and the module is in its start-up or beyond it (R43,
R522, R528). -/
def State.mayTrain (s : State) : Bool := !s.isOut (siteSpine 0 0 7) && s.hif.perstn && (s.pwr.phase.hostUp || s.pwr.phase == .starting)

/-- DL_UP (R408, R522, R528): the link trains unless PE_PERSTN or a reset holds it, and its cause of silence ends. -/
def execDlUp (s : State) : Host.Outcome State Fault Refusal :=
  if s.mayTrain then doneSettled { s with hif := { s.hif with linkUp := true } }.checkSilence
  else .next s

/-- D3HOT_TRANSITION (R387, R408, R409): the return to D0 resets nothing, writes the completions held and sends the pending
messages. -/
def execD3hotTransition (enter : Bool) (s : State) : Host.Outcome State Fault Refusal :=
  if enter then doneSettled { s with hif := { s.hif with d3 := true } }.checkSilence
  else
    let s := { s with hif := { s.hif with d3 := false } }
    let s := (s.each 64 (fun s q => s.flushHeld q)).sendPending
    doneSettled s.checkSilence

/-! ### Commands of R400 without a session -/

/-- A read command completes with its data, or with BUFFER_SHORT where they do not fit (R404, R405). -/
def State.answer (s : State) (q : Nat) (d : Desc) (data : List Byte) (res0 res1 : Word := 0) : State :=
  if d.len < data.length then s.complete q d { status := 0x05 }
  else s.complete q d { res0 := res0, res1 := res1, xlen := data.length, data := data }

/-- NOP (R400). -/
def execNop (q : Fin 64) (s : State) : Host.Outcome State Fault Refusal :=
  doneSettled (s.runCmd q.val 0x01 .none (fun s d => s.complete q.val d {}))

/-- PI_READ (R400, R401). -/
def execPiRead (q : Fin 64) (s : State) : Host.Outcome State Fault Refusal :=
  doneSettled (s.runCmd q.val 0x02 .none (fun s d =>
    if fld (d.p 0) 31 1 ≠ 0 then s.complete q.val d { status := 0x02 }
    else
      let l := if bit (d.p 0) 0 then s.hif.snap.getD (List.replicate 32 0) else s.hostImage none
      s.answer q.val d (l.flatMap bytes4)))

/-- Outputs that a PI_WRITE names (R402). -/
def Desc.named (d : Desc) : List Nat := (List.range 64).filter (fun o => bit (d.p (o / 32)) (o % 32))

/-- PI_WRITE (R402). -/
def execPiWrite (q : Fin 64) (s : State) : Host.Outcome State Fault Refusal :=
  doneSettled (s.runCmd q.val 0x03 .none (fun s d =>
    if d.named.all (fun o => (s.outRec o).mode == 2) then
      (d.named.foldl (fun s o => s.hostLevel o (bit (d.p (2 + o / 32)) (o % 32))) s).complete q.val d {}
    else s.complete q.val d { status := 0x40 }))

/-- The words of a fault record (R406). -/
def FRec.words (r : FRec) : List Word :=
  [r.seq, r.cal.extractLsb' 0 32, r.cal.extractLsb' 32 32, r.tb,
   r.site.zeroExtend 32 ||| atLsb 32 16 r.level.toNat ||| atBit 32 19 r.startup ||| atBit 32 20 r.recov |||
     atBit 32 21 r.acked ||| atBit 32 22 r.bd ||| atBit 32 23 r.cell.isSome ||| atLsb 32 24 r.src.toNat,
   r.code.zeroExtend 32 ||| atLsb 32 16 (match r.cell with | some c => c | none => r.related.toNat),
   r.d6, r.d7]

/-- The next DIAG_READ of queue pair q runs where its selector is this one (R404). -/
def State.runDiag (s : State) (q sel : Nat) (body : State → Desc → State) : State :=
  match s.nextCmd q with
  | none => s
  | some d => if (d.p 0).toNat = sel then s.runCmd q 0x04 .none body else s

/-- DIAG_READ selector 0x01: fault records from a sequence number on (R404). -/
def execDiagReadFaultRecords (q : Fin 64) (s : State) : Host.Outcome State Fault Refusal :=
  doneSettled (s.runDiag q.val 1 (fun s d =>
    if d.len % 32 ≠ 0 then s.complete q.val d { status := 0x02 }
    else
      let l := (s.recs.reverse.filter (fun r => decide ((r.seq - d.p 1).toNat < 2 ^ 31))).take (d.len / 32)
      let next := match l.getLast? with | some r => r.seq + 1 | none => d.p 1
      s.answer q.val d (l.flatMap (fun r => r.words.flatMap bytes4)) (BitVec.ofNat 32 l.length) next))

/-- Availability of cell c with the interval in progress (R69). -/
def State.availNow (s : State) (c : Nat) : Nat :=
  let x := s.cell c
  x.avail.toNat + (match x.since with | some t => s.since t | none => 0)

/-- Bytes of a 64-bit number, least significant first. -/
def bytes8 (n : Nat) : List Byte := bytes4 (BitVec.ofNat 32 n) ++ bytes4 (BitVec.ofNat 32 (n / 2 ^ 32))

/-- DIAG_READ selector 0x02: availability accumulators (R69, R404). -/
def execDiagReadAvailability (q : Fin 64) (s : State) : Host.Outcome State Fault Refusal :=
  doneSettled (s.runDiag q.val 2 (fun s d =>
    if d.p 1 ≠ 0 then s.complete q.val d { status := 0x02 }
    else
      let running := (s.cells.map (fun e => match e.2.since with | some t => s.since t | none => 0)).sum
      s.answer q.val d ((List.range 1024).flatMap (fun c => bytes8 (s.availNow c)) ++ bytes8 (s.avail.toNat + running))))

/-- The mask of an element as DIAG_READ shows it: 16 words, and the CRC over them and the element's site (R194). -/
def State.maskBytes (s : State) (o : Nat) (x : AB) : List Byte :=
  let m := Tab.get 0 (match x with | .a => s.lid.maskA | .b => s.lid.maskB) o
  let b := (maskWords m).flatMap bytes4
  b ++ bytes4 (crc32c (b ++ bytes4 (BitVec.ofNat 32 (siteElement o x + 4096 * s.modAddr))))

/-- DIAG_READ selector 0x03: effective masks of an output (R194, R404). -/
def execDiagReadMasks (q : Fin 64) (s : State) : Host.Outcome State Fault Refusal :=
  doneSettled (s.runDiag q.val 3 (fun s d =>
    if 63 < (d.p 1).toNat then s.complete q.val d { status := 0x02 }
    else s.answer q.val d (s.maskBytes (d.p 1).toNat .a ++ s.maskBytes (d.p 1).toNat .b)))

/-- Number of a cell state (R281). -/
def CState.n : CState → Nat
  | .unloaded => 0
  | .loading => 1
  | .running => 2
  | .safe => 3
  | .held => 4
  | .handover => 5
  | .stopping => 6

/-- DIAG_READ selector 0x04: the running descriptor and the state of a cell (R404). -/
def execDiagReadDescriptor (q : Fin 64) (s : State) : Host.Outcome State Fault Refusal :=
  doneSettled (s.runDiag q.val 4 (fun s d =>
    if 1023 < (d.p 1).toNat then s.complete q.val d { status := 0x02 }
    else
      let x := s.cell (d.p 1).toNat
      let w := if x.st = .unloaded then [] else (x.ver.map CellImg.desc).getD []
      s.answer q.val d ((padTo 64 w).flatMap bytes4) (BitVec.ofNat 32 x.st.n)))

/-- The fields a level ignores are dropped, M among them at level 5 (R38, R39). DESIGN CHOICE: a valid address that names another
module is refused like an invalid one, since the command acts on this module alone. -/
def State.siteRef (s : State) (w : Word) : Option (Nat × Nat) :=
  let site := fld w 15 0
  let level := fld w 18 16
  if siteValid site level && (level == 5 || decide (site / 4096 = s.modAddr)) then some (levelMask level site % 4096, level) else none

/-- The service status of a site at a level (R39, R404). DESIGN CHOICE: a cluster shows its memory, a region its fabric and switch,
a half of a bank its control logic, the store die whether it is lost; any other reference above level 0 is in service while every
unit within it is, with no code and no count. -/
def State.statusOf (s : State) (site level : Nat) : UnitSvc :=
  let d := site / 512 % 8
  if level = 0 then { s.unit site with oos := s.siteOut site }
  else if level = 1 ∧ d = 0 then s.unit (siteCluster (site / 32 % 16) 4)
  else if level = 2 ∧ d = 0 then s.unit (siteRegion (site / 128 % 4))
  else if level = 2 ∧ 4 ≤ d ∧ site / 128 % 4 ≤ 1 then s.unit (siteBank (d - 4) (site / 128 % 4) 3 3)
  else if level = 3 ∧ d = 3 then { oos := s.store.lost }
  else { oos := s.units.any (fun e => e.2.oos && levelMask level e.1 % 4096 == site) }

/-- DIAG_READ selector 0x05: service status of a site (R12, R38, R404). -/
def execDiagReadSite (q : Fin 64) (s : State) : Host.Outcome State Fault Refusal :=
  doneSettled (s.runDiag q.val 5 (fun s d =>
    if fld (d.p 1) 31 19 ≠ 0 then s.complete q.val d { status := 0x02 }
    else match s.siteRef (d.p 1) with
      | none => s.complete q.val d { status := 0x20 }
      | some (site, level) =>
        let u := s.statusOf site level
        s.answer q.val d (bytes4 (atBit 32 0 (!u.oos) ||| atLsb 32 8 u.code.toNat ||| atLsb 32 16 u.count.toNat))))

/-- Spares in use, or fuse entries used, in region q (R478, R479, R481). -/
def State.regionSum (s : State) (q : Nat) (f : Cluster → Byte) : Nat := ((List.range 4).map (fun i => (f (s.clu (4 * q + i))).toNat)).sum

/-- The summary i counts a site: regions 0 to 3, 4 the spine, 5 the store die (R478). -/
def summaryOf (site : Nat) : Nat :=
  let d := site / 512 % 8
  if d = 0 then site / 128 % 4 else if d = 1 then 4 else if d = 3 then 5 else 6

/-- The unit of summary i is in service (R478). -/
def State.summaryUp (s : State) (i : Nat) : Bool :=
  if i < 4 then s.regionUp i else if i = 4 then !s.sys.coreLost else if i = 5 then !s.store.lost else false

/-- BIST_RES_q, and word 0 of a summary but for its last byte (R478, R486). -/
def State.bistRes (s : State) (i : Nat) : Word :=
  atLsb 32 0 (Tab.get {} s.bist.sums i).outcome.toNat ||| atBit 32 2 (s.summaryUp i) |||
    (if i < 4 then atLsb 32 8 (min 255 (s.regionSum i (fun m => m.spares))) |||
      atLsb 32 16 (min 255 (s.regionSum i (fun m => m.fuses))) else 0)

/-- A BIST summary as DIAG_READ shows it (R478). -/
def State.bistSummary (s : State) (i : Nat) : List Word :=
  let b := Tab.get {} s.bist.sums i
  let listed := (s.bist.fails.filter (fun f => summaryOf f.1.toNat == i)).length
  if i ≥ 6 then [0, 0, 0, 0] else [s.bistRes i ||| atLsb 32 24 (min 255 listed), b.last, b.runs, 0]

/-- DIAG_READ selector 0x06: BIST results (R478). -/
def execDiagReadBist (q : Fin 64) (s : State) : Host.Outcome State Fault Refusal :=
  doneSettled (s.runDiag q.val 6 (fun s d =>
    if d.p 1 ≠ 0 then s.complete q.val d { status := 0x02 }
    else
      let sums := (List.range 8).flatMap s.bistSummary
      let fail := s.bist.fails.flatMap (fun f => match f with
        | (site, code, rep, fused, detail) =>
          [site.zeroExtend 32 ||| atLsb 32 16 code.toNat ||| atBit 32 24 rep ||| atBit 32 25 fused, detail])
      s.answer q.val d ((padTo 288 (sums ++ fail)).flatMap bytes4)))

/-- ACK (R406): the record named is acknowledged. -/
def execAck (q : Fin 64) (s : State) : Host.Outcome State Fault Refusal :=
  doneSettled (s.runCmd q.val 0x06 .maint (fun s d =>
    if s.recs.any (fun r => r.seq == d.p 0) then
      let t := s.sessionTag q.val d.sess
      let s := { s with recs := s.recs.map (fun (r : FRec) => if r.seq = d.p 0 then { r with acked := true } else r) }
      (s.log { kind := 0x0E, role := t.1, handle := t.2, d12 := d.p 0 }).complete q.val d {}
    else s.complete q.val d { status := 0x02 }))

/-! ### Time (R110) -/

/-- The date and time of a calendar word exist (R110, step 1). -/
def dateExists (c : Nat) : Bool :=
  let y := c / 2 ^ 52
  let m := c / 2 ^ 48 % 16
  let d := c / 2 ^ 43 % 32
  decide (1970 ≤ y) && decide (y ≤ 2399) && decide (1 ≤ m) && decide (m ≤ 12) && decide (1 ≤ d) &&
    decide (d ≤ monthDays y m) && decide (c / 2 ^ 38 % 32 ≤ 23) && decide (c / 2 ^ 32 % 64 ≤ 59) && decide (c / 2 ^ 26 % 64 ≤ 59)

/-- The days of a year before a month. -/
def daysOfMonths (y m : Nat) : Nat := ((List.range (m - 1)).map (fun i => monthDays y (i + 1))).sum

/-- Microseconds since 1970 of a calendar word (R109). -/
def calMicros (c : Nat) : Nat :=
  let y := c / 2 ^ 52
  let day := daysBefore y + daysOfMonths y (c / 2 ^ 48 % 16) + (c / 2 ^ 43 % 32 - 1)
  ((day * 24 + c / 2 ^ 38 % 32) * 60 + c / 2 ^ 32 % 64) * 60000000 + (c / 2 ^ 26 % 64) * 1000000 + c / 2 ^ 6 % 2 ^ 20

/-- The UTC offset that host software sets (R108). -/
def State.hostUtc (s : State) (v : Half) : State :=
  { s with tb := { s.tb with utc := v, utcHost := some v, utcSrc := .host } }

/-- TIME_SET (R109, R110): TB becomes TAI, the UTC of the command plus the offset. -/
def execTimeSet (q : Fin 64) (s : State) : Host.Outcome State Fault Refusal :=
  doneSettled (s.runCmd q.val 0x08 .none (fun s d =>
    let c := (d.p 1).toNat * 2 ^ 32 + (d.p 0).toNat
    let ofs : Half := (d.p 2).extractLsb' 0 16
    if c % 64 ≠ 0 ∨ 999999 < c / 64 % 2 ^ 20 ∨ fld (d.p 2) 31 16 ≠ 0 then s.complete q.val d { status := 0x02 }
    else if !dateExists c then s.complete q.val d { status := 0x21 }
    else if !s.ownRef || s.ptpLocked then s.complete q.val d { status := 0x22 }
    else if s.anyLoaded then s.complete q.val d { status := 0x23 }
    else
      let was := s.tb.tb
      let s := s.stepTb (BitVec.ofInt 64 ((calMicros c : Int) * 1000 + ofs.toInt * 1000000000))
      let s := (s.hostUtc ofs).setSource 3 (BitVec.ofNat 4 s.modAddr) 0
      (s.log { kind := 0x0F, d12 := was.extractLsb' 0 32, d13 := was.extractLsb' 32 32 }).complete q.val d {}))

/-- OFFSET_SET (R108, R110). -/
def execOffsetSet (q : Fin 64) (s : State) : Host.Outcome State Fault Refusal :=
  doneSettled (s.runCmd q.val 0x09 .none (fun s d =>
    let v : Half := (d.p 0).extractLsb' 0 16
    if fld (d.p 0) 31 16 ≠ 0 then s.complete q.val d { status := 0x02 }
    else if s.tb.utcSrc = .ptp then s.complete q.val d { status := 0x24 }
    else
      let old : Word := s.tb.utc.zeroExtend 32
      ((s.hostUtc v).log { kind := 0x10, d12 := old, d13 := v.zeroExtend 32 }).complete q.val d {}))

/-! ### Frames (R360, R400) -/

/-- Type field of an Ethernet frame and what follows it, past one C-tag (R342). -/
def frameType (f : List Byte) : Nat × List Byte :=
  let be := fun (i : Nat) => (f.getD i 0).toNat * 256 + (f.getD (i + 1) 0).toNat
  if be 12 = 0x8100 then (be 16, f.drop 18) else (be 12, f.drop 14)

/-- A host frame that carries the Wilis EtherType, or UDP to or from WL_UDP (R360). -/
def State.looksWilis (s : State) (f : List Byte) : Bool :=
  let (t, p) := frameType f
  let ports := p.drop (4 * ((p.getD 0 0).toNat % 16))
  let be := fun (i : Nat) => (ports.getD i 0).toNat * 256 + (ports.getD (i + 1) 0).toNat
  (s.net.etype != 0 && t == s.net.etype.toNat) ||
    (s.net.udp != 0 && t == 0x0800 && p.getD 9 0 == 17 && (be 0 == s.net.udp.toNat || be 2 == s.net.udp.toNat))

/-- FRAME_TX (R360, R400, R405). -/
def execFrameTx (q : Fin 64) (s : State) : Host.Outcome State Fault Refusal :=
  doneSettled (s.runCmd q.val 0x30 .none (fun s d =>
    let f := (d.buf.getD []).take d.len
    let m := (s.qp q.val).mac.toNat
    if d.len < 60 ∨ 1518 < d.len then s.complete q.val d { status := 0x43 }
    else if s.looksWilis f then ((s.macStat m 13).wlEvt 4).complete q.val d { status := 0x41 }
    else if !((s.mac m).en && (s.mac m).link) then s.complete q.val d { status := 0x42 }
    else ((s.emit (.frame m f)).macStat m 11).complete q.val d {}))

/-- RX_POST (R396, R400): the buffer waits for a frame; a draining queue pair returns it at once. -/
def execRxPost (q : Fin 64) (s : State) : Host.Outcome State Fault Refusal :=
  doneSettled (s.runCmd q.val 0x31 .none (fun s d =>
    if d.len < 64 then s.complete q.val d { status := 0x02 }
    else if (s.qp q.val).st ≠ .active then s.complete q.val d { status := 0x44 }
    else s.updQp q.val (fun x => { x with cmds := x.cmds.erase d, posts := x.posts ++ [d] })))

end Sys2Proof.Machine
end

