-- ==== Sys2Proof/Machine/Plan.lean ====
section
/-! DEFINITION. What a cell-control command checks before it acts: windows, loads and self-test gaps (R285, R286, R227),
ownership (R295), places (R296), and the choice of an exchange or hand-over instant (R232, R296). -/

namespace Sys2Proof.Machine

/-! ### Windows (R286) -/

/-- A release window: its start in ns, its period and its length. -/
structure Window where
  at_ : Nat
  per : Nat
  len : Nat
deriving DecidableEq, Repr, Inhabited

/-- The window of a version: from the release instant for BUDGET + 5 µs. -/
def CellImg.window (v : CellImg) : Window :=
  { at_ := v.phase * 125000 + v.rofs, per := v.cycle, len := v.budget + 5000 }

/-- Two periodic windows overlap. The periods are powers of two of one unit, so the shorter one decides. -/
def Window.meets (a b : Window) : Bool :=
  let g := min a.per b.per
  let d := (b.at_ % g + (g - a.at_ % g)) % g
  decide (d < a.len) || decide (d + b.len > g)

/-- The sum of budget over cycle is at most 95 %, in units of 1/512 of a 64 ms span (R286). -/
def loadOk (vs : List CellImg) : Bool :=
  decide (100 * (vs.map (fun v => v.budget * (64000000 / v.cycle))).sum ≤ 95 * 64000000)

/-- A gap of 80 µs remains somewhere in the schedule's span (R227). -/
def gapOk (vs : List CellImg) : Bool :=
  let ws := vs.map CellImg.window
  let span := ws.foldl (fun m w => max m w.per) 125000
  ws.isEmpty || ws.any (fun w => (List.range (span / w.per)).any (fun i =>
    let t := (w.at_ + w.len + i * w.per) % span
    ws.all (fun o => !(Window.meets { at_ := t, per := span, len := 80000 } o))))

/-- The versions that run at a place, a cell apart. -/
def State.versionsAt (s : State) (e : Nat) (onP : Bool) (but : Nat) : List CellImg :=
  ((s.cellsAt e onP).filter (fun c => c != but)).filterMap (fun c => (s.cell c).ver)

/-! ### Ownership (R295) -/

/-- The versions of the other cells of the configuration in force. -/
def State.otherVersions (s : State) (c : Nat) : List CellImg := (s.cfg.cells.filter (fun e => e.1 != c)).map (·.2)

/-- Every output of a version has at most four owners, and no term, input record or connection of it is another cell's. -/
def State.ownershipOk (s : State) (c : Nat) (v : CellImg) : Bool :=
  let others := s.otherVersions c
  v.outs.all (fun o => decide ((others.filter (fun w => w.ownOut o)).length ≤ 3)) &&
  (List.range 128).all (fun k => !v.ownCt k || others.all (fun w => !w.ownCt k)) &&
  (List.range 128).all (fun n => !v.ownIn n || others.all (fun w => !w.ownIn n)) &&
  v.conns.all (fun n => others.all (fun w => !w.conns.contains n))

/-! ### Places and instants -/

/-- The engine or pair can run a cell: a single that is SINGLE or IDLE, a pair that is formed (R302). An engine that a debug halt left
IDLE takes no cell before a merge (R237). -/
def State.placeUp (s : State) (e : Nat) (onP : Bool) : Bool :=
  if onP then (s.eng e).role == .leader && (s.eng (e + 1)).role == .follower && e % 2 == 0
  else (s.eng e).role == .single || ((s.eng e).role == .idle && (s.epair (e / 2)).st != .debug)

/-- The pair of an engine resolves a mismatch, hands over, or is halted by debug (R231, R302). -/
def State.pairBusy (s : State) (e : Nat) : Bool :=
  let st := (s.epair (e / 2)).st
  st == .resolving || st == .handover || (s.eng e).role == .halted

/-- The first minor-frame boundary at least 100 µs from now, and within 1 s, that meets a condition on its number (R232,
R296). -/
def State.boundary (s : State) (ok : Nat → Bool) : Option Nat :=
  let m0 := (s.now + 100000 + 124999) / 125000
  ((List.range 8000).find? (fun i => ok (m0 + i))).map (fun i => (m0 + i) * 125000)

/-- A version has a release in minor frame m (R285). -/
def CellImg.releasesIn (v : CellImg) (m : Nat) : Bool := decide (m % 2 ^ v.cexp = v.phase)

/-- H of a split or merge: no cell of either engine is released within 4 µs after it (R232). -/
def State.pairBoundary (s : State) (k : Nat) : Option Nat :=
  let vs := (s.cellsOfPair k).filterMap (fun c => (s.cell c).ver)
  s.boundary (fun m => vs.all (fun v => !(v.releasesIn m && decide (v.rofs ≤ 4000))))

/-- The instant of the hand-over under way is armed on a free channel (R97, R296). -/
def State.armHand (s : State) (x code : Nat) (use : ChUse) : State :=
  let n := s.freeChan
  let s := { s with ho := { s.ho with step := .waiting, x := BitVec.ofNat 64 x, chan := n, copied := false } }
  s.arm n (fun c => { c with lo := BitVec.ofNat 32 x, hi := BitVec.ofNat 32 (x / 2 ^ 32), act := BitVec.ofNat 12 code,
                             use := use, cell := none, newV := false, shared := false })

end Sys2Proof.Machine
end

