-- ==== Sys2Proof/Machine/Handover.lean ====
section
/-! DEFINITION. Exchange, move, removal and restart of cells (R282, R294 to R306, R530) and split and merge of pairs (R231
to R233), with the commands that ask for them (R400, R405). -/

namespace Sys2Proof.Machine

/-! ### A version takes force (R137, R193, R291, R294, R310, R337) -/

/-- Owner of a group record, where it is used. -/
def groupOwner (w : List Word) : Option Nat := if bit (w.getD 0 0) 0 then some (fld (w.getD 0 0) 10 1) else none

/-- Records of a table change for the keys that belong to a cell in either table. -/
def mergeTab (old new : Tab (List Word)) (mine : List Word → Bool) : Tab (List Word) :=
  let kept := old.filter (fun e => !mine e.2)
  (new.filter (fun e => mine e.2)).foldl (fun t e => Tab.put [] t e.1 e.2) kept

/-- Axis, group, connection, encoder and channel records of a cell change to those of an image (R310, R337, R140, R96). -/
def mergeImage (i img : Image) (c : Nat) (v : Option CellImg) : Image :=
  let gOld := i.groups.filterMap (fun e => if groupOwner e.2 = some c then some e.1 else none)
  let gNew := img.groups.filterMap (fun e => if groupOwner e.2 = some c then some e.1 else none)
  let inG := fun (l : List Nat) (w : List Word) => bit (w.getD 0 0) 0 && l.contains (fld (w.getD 0 0) 26 23)
  let axes := (img.axes.filter (fun e => inG gNew e.2)).foldl (fun t e => Tab.put [] t e.1 e.2)
    (i.axes.filter (fun e => !inG gOld e.2))
  let own := fun (w : List Word) => fld (w.getD 10 0) 9 0 == c
  let conns := (img.conns.filter (fun e => own e.2)).foldl (fun t e => Tab.put [] t e.1 e.2)
    (i.conns.filter (fun e => !own e.2))
  let names : List Nat := (img.conns.filter (fun e => own e.2)).map (fun e => e.1)
  let chans : List Nat := match v with
    | some v => v.chans
    | none => []
  { i with
    groups := mergeTab i.groups img.groups (fun w => groupOwner w == some c), axes := axes, conns := conns,
    rxIdx := names.foldl (fun t n => Tab.put 0 t n (Tab.get 0 img.rxIdx n)) i.rxIdx,
    txOfs := names.foldl (fun t n => Tab.put 0 t n (Tab.get 0 img.txOfs n)) i.txOfs,
    chPar := chans.foldl (fun t n => Tab.put 0 t n (Tab.get 0 img.chPar n)) i.chPar,
    caps := (img.caps.filter (fun e => e.2.owner == some c)).foldl (fun t e => Tab.put {} t e.1 e.2)
      (i.caps.filter (fun e => e.2.owner != some c)),
    cells := match v with
      | some v => Tab.ins (Tab.drop i.cells c) c v
      | none => Tab.drop i.cells c }

/-- The owner slots of a cell follow a version: slots of outputs that it does not own are freed, an output that it newly
owns takes the lowest free slot (R291). -/
def State.takeSlots (s : State) (c : Nat) (v : CellImg) : State :=
  let s := s.mapSlots (Tab.mapKV {} (fun i y => if y.cell = some c ∧ !v.ownOut (i / 4) then {} else y))
  v.outs.foldl (fun s o =>
    if (s.slotOf c o).isSome then s
    else match (List.range 4).find? (fun i => (s.slot o i).cell.isNone) with
      | some i => s.updSlot o i (fun _ => { cell := some c })
      | none => s) s

/-- Trip terms of a cell under a version that is not running: all raised, those it no longer declares too (R191). -/
def State.raiseAll (s : State) (old : Option CellImg) (v : CellImg) : State :=
  let s := match old with
    | some w => s.updCts w (fun _ => { b0 := true, b1 := false })
    | none => s
  s.updCts v (fun _ => { b0 := true, b1 := false })

/-- The groups of a cell before and after a change of its records: new ones begin in STO, dropped ones are UNUSED (R321). -/
def State.takeGroups (s : State) (c : Nat) (old : List Nat) : State :=
  let new := s.groupsOf c
  let s := (old.filter (fun g => !new.contains g)).foldl (fun s g => s.updGrp g (fun _ => {})) s
  let s := (new.filter (fun g => !old.contains g)).foldl (fun s g => s.updGrp g (fun _ => { st := .sto, cause := 9, reqAt := s.now })) s
  new.foldl (fun s g => (s.axesOf g).foldl (fun s a => s.updAxis a (fun x => { x with unset := true })) s) s

/-- A committed version of a cell that does not run takes force: its records, slots and terms (R282, R300). -/
def State.adopt (s : State) (c : Nat) (v : CellImg) (img : Image) : State :=
  let old := (s.cell c).ver
  let groups := s.groupsOf c
  let s := s.takeInputs c v.ownIn img
  let s := { s with cfg := mergeImage s.cfg img c (some v) }
  (((s.takeSlots c v).raiseAll old v).takeGroups c groups).loadMasks

/-! ### Starting an exchange, move or removal of one cell -/

/-- A version is being prepared for a cell at a place: its areas will be written next (R296 step 1, R302). -/
def State.prepare (s : State) (c : Nat) (kind : HoKind) (v : CellImg) (e : Nat) (onP : Bool) (pl : Nat × Nat × Nat) : State :=
  let s := s.updCell c (fun x => { x with nver := some v, neng := e, nonP := onP, nslot := pl.1, ncblk := pl.2.1,
                                          nsblk := pl.2.2, chk := false, nrelAt := none })
  { s with ho := { s.ho with step := .loading, kind := kind, cell := c, at_ := s.now } }

/-- A cell that does not run goes to LOADING; its old areas are freed first (R300, R304). -/
def State.toLoading (s : State) (c : Nat) : State :=
  let x := s.cell c
  let s := match x.ver with
    | some v => s.when x.placed (fun s => s.freeAreas v (x.eng / 4) x.cblk x.sblk)
    | none => s
  (s.updCell c (fun x => { x with excl := true })).setCell c .loading

/-- The refusal of R295 for a RUNNING cell and its committed version, or 0. -/
def State.exchangeCode (s : State) (c : Nat) (v w : CellImg) : Nat :=
  let x := s.cell c
  if v.sig = w.sig then 0x38
  else if fld (v.dw 0) 9 0 ≠ fld (w.dw 0) 9 0 ∨ v.eng ≠ w.eng ∨ v.onPair ≠ w.onPair then 0x36
  else if x.degraded then 0x37
  else if s.handingOver c || s.pairBusy x.eng then 0x31
  else if (s.findPlace v (x.eng / 4) false).isNone then 0x32
  else if !s.ownershipOk c v then 0x33
  else if w.window.meets v.window || (s.versionsAt x.eng x.onP c).any (fun u => v.window.meets u.window) then 0x34
  else 0

/-- Where a cell that does not run is loaded: where it is, or where its descriptor says (R300). -/
def State.loadPlace (s : State) (c : Nat) (v : CellImg) : Nat × Bool :=
  let x := s.cell c
  match x.ver with
  | some w => if x.placed && v.eng == w.eng && v.onPair == w.onPair then (x.eng, x.onP) else (v.eng, v.onPair)
  | none => (v.eng, v.onPair)

/-- The next cell of the exchange under way begins, is refused, or none is left (R295, R296, R300, R405, R530). With the store die
lost every exchange is refused (R24). -/
def State.exchangeNext (s : State) : State :=
  match s.ho.rest with
  | [] => s.hoEnd 0
  | c :: rest =>
    let s := { s with ho := { s.ho with cell := c, rest := rest } }
    let x := s.cell c
    let img := s.committed
    if s.store.lost then s.hoEnd 0x18
    else
    match img.cell c with
    | none =>
      match x.ver with
      | none => s.hoEnd 0x30
      | some w =>
        if x.st ≠ .running then s.hoEnd 0x30
        else if x.degraded then s.hoEnd 0x37
        else if s.handingOver c then s.hoEnd 0x31
        else match s.boundary w.releasesIn with
          | none => s.hoEnd 0x35
          | some b =>
            let s := { s with ho := { s.ho with kind := .remove, at_ := s.now } }
            s.armHand b 6 (.cell c)
    | some v =>
      let s := { s with ho := { s.ho with axes := img.axes, groups := img.groups, conns := img.conns } }
      match x.st with
      | .running =>
        match x.ver with
        | none => s.hoEnd 0x30
        | some w =>
          let code := s.exchangeCode c v w
          if code ≠ 0 then s.hoEnd code
          else match s.findPlace v (x.eng / 4) false with
            | none => s.hoEnd 0x32
            | some pl => s.prepare c .exchange v x.eng x.onP pl
      | .unloaded | .safe | .held =>
        let at_ := s.loadPlace c v
        if !s.ownershipOk c v then s.hoEnd 0x33
        else if !s.placeUp at_.1 at_.2 then s.hoEnd 0x39
        else
          let t := s.toLoading c
          match t.findPlace v (at_.1 / 4) (x.st == .unloaded) with
          | none => s.hoEnd 0x32
          | some pl => t.prepare c .exchange v at_.1 at_.2 pl
      | _ => s.hoEnd 0x30

/-- A cell-control command may start: none other is running, and no BIST run that has ended in this tick has still to report (R399,
R485). -/
def State.controlFree (s : State) : Bool :=
  s.ho.step == .idle && s.bist.ended.isNone && !s.hif.qps.any (fun e => e.2.cmds.any (fun d => d.ran && d.handover))

/-- The cells named two per word from parameter i on (R400). -/
def Desc.cellList (d : Desc) (first count : Nat) : List Nat :=
  (List.range count).map (fun j => fld (d.p (first + j / 2)) (16 * (j % 2) + 9) (16 * (j % 2)))

/-- Unused entries and reserved bits of a cell list are 0 (R397). -/
def Desc.cellListOk (d : Desc) (first count : Nat) : Bool :=
  (List.range (11 - first)).all (fun j =>
    let w := d.p (first + j)
    fld w 15 10 == 0 && fld w 31 26 == 0 && (decide (2 * j < count) || fld w 9 0 == 0) &&
      (decide (2 * j + 1 < count) || fld w 25 16 == 0))

/-- CELL_EXCHANGE (R295, R400). -/
def execCellExchange (q : Fin 64) (s : State) : Host.Outcome State Fault Refusal :=
  if !s.controlFree then .next s
  else doneSettled (s.runCmd q.val 0x20 .safety (fun s d =>
    let n := fld (d.p 0) 4 0
    if fld (d.p 0) 31 5 ≠ 0 ∨ n = 0 ∨ 20 < n ∨ !d.cellListOk 1 n then s.complete q.val d { status := 0x02 }
    else
      let s := s.markRan q.val d
      ({ s with ho := { step := .idle, kind := .exchange, qp := q.val, rest := d.cellList 1 n, done := 0 } }).exchangeNext))

/-! ### Loading (R296 step 1, R300, R304) -/

/-- An engine that is IDLE runs the cell as a single (R207). -/
def State.wakeSingle (s : State) (e : Nat) (onP : Bool) : State :=
  if !onP && (s.eng e).role == .idle then ((s.abandonRun (e / 16)).updEng e (fun x => x.released .single)).refreshPair (e / 2)
  else s

/-- The load of a cell that was not running ends: its version is in force and it is released at its next instant (R225,
R300, R304). An engine that its last cell has left is IDLE (R207). -/
def State.finishLoad (s : State) (c : Nat) (v : CellImg) : State :=
  let x := s.cell c
  let left := x.eng
  let oldSig := match x.ver with | some w => w.sig | none => 0
  let s := if s.ho.kind = .move then s else s.adopt c v s.committed
  let s := (s.wakeSingle x.neng x.nonP).loadCell c v x.neng x.nonP x.nslot x.ncblk x.nsblk
  let s := (s.updCell c (fun x => { x with excl := false })).restIdle left
  let s := s.refreshPair (left / 2)
  if s.ho.kind = .move then
    let s := (s.hoLog { kind := 8, cell := some c, oldSig := oldSig, newSig := v.sig, d12 := BitVec.ofNat 32 x.eng,
                        d13 := BitVec.ofNat 32 x.neng }).cellEvt 4
    s.hoEnd 0
  else
    let s := (s.hoLog { kind := 7, cell := some c, oldSig := oldSig, newSig := v.sig }).cellEvt 3
    ({ s with ho := { s.ho with done := s.ho.done + 1 } }).exchangeNext

/-- The exchange or hand-over instant of a running cell is chosen and armed (R296 step 2, R303). -/
def State.chooseInstant (s : State) (c : Nat) (v w : CellImg) : State :=
  match s.boundary (fun m => v.releasesIn m && w.releasesIn m) with
  | some b => s.armHand b (if s.ho.kind = .move then 8 else 6) (.cell c)
  | none =>
    let x := s.cell c
    let s := (s.freeAreas v (x.neng / 4) x.ncblk x.nsblk).updCell c (fun x => { x with nver := none })
    s.hoEnd 0x35

/-- EXCHANGE_LOAD_DONE: the new areas are written and checked; the instant is armed, or a cell that was not running is
loaded (R296, R300). -/
def execExchangeLoadDone (s : State) : Host.Outcome State Fault Refusal :=
  let c := s.ho.cell
  let x := s.cell c
  if s.ho.step = .loading then
    match x.nver with
    | none => .next s
    | some v =>
      if x.st = .loading then doneSettled (s.finishLoad c v)
      else match x.ver with
        | none => .next s
        | some w => doneSettled ((s.writeAreas v (x.neng / 4) x.nslot x.ncblk x.nsblk).chooseInstant c v w)
  else .next s

/-! ### Carry-over (R299, R303) -/

/-- The words that one item of the new version's table carries from the old state area (R299). -/
def carryItem (old : CellImg) (words : List Word) (d : Decl) : List (Nat × Word) :=
  match old.decls.find? (fun e => e.name == d.name && e.kind == d.kind) with
  | none => []
  | some o =>
    let w := fun i => words.getD (o.ofs + i) 0
    if d.kind ≤ 3 then [(d.ofs, w 0), (d.ofs + 2, w 2), (d.ofs + 3, w 3)]
    else if d.kind = 5 then [(d.ofs, w 0 &&& 1)]
    else if d.kind = 6 ∧ o.len = d.len then (List.range d.len).map (fun i => (d.ofs + i, w i))
    else []

/-- A latched interlock of the old version without a namesake latches every interlock of the new one (R299). -/
def orphanLatched (old new : CellImg) (words : List Word) : Bool :=
  old.decls.any (fun o => o.kind == 5 && bit (words.getD o.ofs 0) 0 &&
    !new.decls.any (fun d => d.kind == 5 && d.name == o.name))

/-- The state area of a new version with everything carried (R299). -/
def carried (old new : CellImg) (words : List Word) : List Word :=
  let l := setWords new.freshState (new.decls.flatMap (carryItem old words))
  if orphanLatched old new words then setWords l (new.decls.filterMap (fun d => if d.kind = 5 then some (d.ofs, 1) else none))
  else l

/-- The state area of the new version or place of cell c is filled: declared items for an exchange, the whole area for a move (R299,
R303). -/
def State.carryOver (s : State) (c : Nat) (v w : CellImg) : State :=
  let x := s.cell c
  let words := (s.clu (x.eng / 4)).words (1024 * x.sblk) (256 * w.stateN)
  let new := if s.ho.kind = .move then words else carried w v words
  { s.updClu (x.neng / 4) (fun m => m.putWords (1024 * x.nsblk) new) with ho := { s.ho with copied := true } }

/-- The gap before X or H: the old version's last window before it has ended (R296). -/
def State.inGap (s : State) (w : CellImg) : Bool :=
  decide (s.ho.x.toNat + w.window.len + w.rofs ≤ s.now + w.cycle) && decide (s.now < s.ho.x.toNat)

/-- EXCHANGE_CARRY_COPY: in the gap before X or H (R296, R299, R303). -/
def execExchangeCarryCopy (s : State) : Host.Outcome State Fault Refusal :=
  let x := s.cell s.ho.cell
  match x.ver, x.nver with
  | some w, some v =>
    if s.ho.step = .waiting ∧ s.inGap w = true then doneSettled (s.carryOver s.ho.cell v w)
    else .next s
  | _, _ => .next s

/-! ### The hand-over cycle (R297, R303) -/

/-- The owner slots of the two versions at X: P1 from P0, following where only the old version owns the output; only P1
where only the new one does (R297). -/
def State.splitSlots (s : State) (c : Nat) (v : CellImg) : State :=
  let s := s.updSlots c (fun i y => { y with use1 := true, p1 := y.p0, t1 := s.now, follow := !v.ownOut (i / 4) })
  v.outs.foldl (fun s o =>
    if (s.slotOf c o).isSome then s
    else match (List.range 4).find? (fun i => (s.slot o i).cell.isNone) with
      | some i => s.updSlot o i (fun _ => { cell := some c, use0 := false, use1 := true, t1 := s.now })
      | none => s) s

/-- X of an exchange or H of a move: the hand-over cycle begins (R297, R303). A copy that no command has made in the gap is
made now, since the new version starts from it (R296). -/
def State.beginCycle (s : State) (c : Nat) (v w : CellImg) : State :=
  let s := s.when (!s.ho.copied) (fun s => s.carryOver c v w)
  let s := s.setCell c .handover
  let s := s.splitSlots c v
  let s := s.updCts v (fun t => { t with b1 := t.b0 })
  let s := v.conns.foldl (fun s n => s.updConn n (fun k => { k with out1 := k.out, ctl1 := k.ctl })) s
  let s := s.clearSlots (v.chans.filter (fun n => !w.chans.contains n))
  let s := s.updCell c (fun x => { x with nfirst := s.ho.kind == .exchange, cyc := max v.cycle w.cycle })
  let s := { s with ho := { s.ho with step := .running, ins := s.cfg.ins } }
  let s : State := (s.groupsOf c).foldl (fun s g => s.updGrp g (fun x => { x with nsos := x.sos, nrel := x.rel, nss1 := x.ss1 })) s
  if s.ho.kind = .exchange then (s.takeInputs c v.ownIn s.committed).loadMasks else s

/-- A group of the cell executes a stop: the instant is put off (R296, R333). -/
def State.stopping (s : State) (c : Nat) : Bool :=
  (s.groupsOf c).any (fun g => (s.grp g).st == .stopping || (s.grp g).st == .stoppingT)

/-- Removal of a running cell at X (R530). -/
def State.removeCell (s : State) (c : Nat) (w : CellImg) : State :=
  let img := s.committed
  let groups := s.groupsOf c
  let s := s.unloadCell c
  let s := s.mapSlots (Tab.mapKV {} (fun _ y => if y.cell = some c then {} else y))
  let s := s.takeInputs c w.ownIn img
  let s := { s with cfg := mergeImage s.cfg img c none }
  let s := (s.takeGroups c groups).loadMasks
  let s := (s.hoLog { kind := 7, cell := some c, oldSig := w.sig, newSig := 0 }).cellEvt 3
  ({ s with ho := { s.ho with done := s.ho.done + 1 } }).exchangeNext

/-- The instant of the hand-over of cell c has come. -/
def State.handInstant (s : State) (c : Nat) : State :=
  let x := s.cell c
  match x.ver with
  | none => s.hoEnd 0x3A
  | some w =>
    let v := x.nver.getD w
    let s := (s.event x.eng 0x11).when (s.ho.kind == .move && x.neng != x.eng) (fun s => s.event x.neng 0x11)
    if s.stopping c then s.chooseInstant c v w
    else if s.ho.kind = .remove then s.removeCell c w
    else if x.nver.isSome then s.beginCycle c v w
    else s.hoEnd 0x3A

/-- TCMP_CELL_EXCHANGE: ACT 0x6 (R97, R297, R530). -/
def execTcmpCellExchange (n : Fin 256) (s : State) : Host.Outcome State Fault Refusal :=
  let use := (s.chan n.val).use
  doneSettled (s.fireIf n.val 6 (fun s =>
    let s := s.updChan n.val (fun h => { h with use := .none })
    match use with
    | .cell c => if s.handingOver c && s.ho.step == .waiting then s.handInstant c else s
    | _ => s))

/-! ### The end of the hand-over cycle (R298, R303) -/

/-- The new version's bits, terms and data become the cell's own (R298). -/
def State.mergeBits (s : State) (c : Nat) (v w : CellImg) : State :=
  let s := s.mapSlots (Tab.mapKV {} (fun _ y =>
    if y.cell ≠ some c then y
    else if y.follow || !y.use1 then {}
    else { y with p0 := y.p1, t0 := y.t1, use0 := true, use1 := false, p1 := false, t1 := 0 }))
  let s := { s with perm := { s.perm with
    held := (s.perm.held.filter (fun (h : Held) => h.cell != c || h.second)).map (fun (h : Held) =>
      if h.cell = c then { h with second := false } else h) } }
  let s := (List.range 128).foldl (fun s k =>
    if v.ownCt k then s.updCt k (fun t => { b0 := t.b1, b1 := false })
    else if w.ownCt k then s.updCt k (fun _ => { b0 := true, b1 := false })
    else s) s
  let s := (w.conns.filter (fun n => !v.conns.contains n)).foldl (fun s n => s.updConn n (fun k => { k with ctl := 1 })) s
  let s := v.conns.foldl (fun s n => s.updConn n (fun k => { k with out := k.out1, ctl := k.ctl1, out1 := [], ctl1 := 0 })) s
  { s with chans := Tab.mapVal {} (fun h =>
      if h.cell = some c then (if h.newV then { h with newV := false } else { h with armed := false, cell := none })
      else h) s.chans }

/-- The cell continues as its new version or at its new place. -/
def State.endCycle (s : State) (c : Nat) (v w : CellImg) : State :=
  let x := s.cell c
  let move := s.ho.kind == .move
  let groups := s.groupsOf c
  let s := s.mergeBits c v w
  let s := s.freeAreas w (x.eng / 4) x.cblk x.sblk
  let drop := fun (y : Engine) => if y.cell = some c then (if y.newV then { y with newV := false } else { y with cell := none, wd := 0 }) else y
  let s := { s with engs := Tab.mapVal {} drop s.engs }
  let s := (w.conns.filter (fun n => !v.conns.contains n)).foldl (fun s n => s.closeConn n) s
  let s := s.when (!move) (fun s => ({ s with cfg := mergeImage s.cfg s.committed c (some v) }).connectConns v.conns)
  let s := s.takeGroups c groups
  let s := (s.groupsOf c).foldl (fun s g => s.updGrp g (fun y => { y with sos := y.nsos, rel := y.nrel, ss1 := y.nss1, nsos := false, nrel := false, nss1 := false })) s
  let s := s.updCell c (fun x => { x with ver := some v, eng := x.neng, onP := x.nonP, slot := x.nslot, cblk := x.ncblk,
                                          sblk := x.nsblk, nver := none, cyc := v.cycle, relAt := x.nrelAt, nrelAt := none })
  let s := ((s.setCell c .running).loadMasks.restIdle x.eng).refreshPair (x.eng / 2)
  if move then
    let s := s.when (x.nonP && x.chk) (fun s => s.regain c 0)
    let s := (s.hoLog { kind := 8, cell := some c, oldSig := w.sig, newSig := v.sig, d12 := BitVec.ofNat 32 x.eng,
                        d13 := BitVec.ofNat 32 x.neng }).cellEvt 4
    s.hoEnd 0
  else
    let s := (s.hoLog { kind := 7, cell := some c, oldSig := w.sig, newSig := v.sig }).cellEvt 3
    ({ s with ho := { s.ho with done := s.ho.done + 1 } }).exchangeNext

/-! ### Move (R302 to R304) -/

/-- The refusal of R302 for a target, or 0. -/
def State.moveCode (s : State) (c : Nat) (v : CellImg) (e : Nat) (onP : Bool) : Nat :=
  let vs := s.versionsAt e onP (if (s.cell c).st = .running then 1024 else c)
  if s.pairBusy e then 0x31
  else if !s.placeUp e onP then 0x39
  else if !(if onP then v.pairOk else v.singleOk) then 0x3C
  else if (s.findPlace v (e / 4) false).isNone then 0x32
  else if vs.any (fun u => v.window.meets u.window) || !loadOk (v :: vs) || (!onP && !gapOk (v :: vs)) then 0x34
  else 0

/-- CELL_MOVE (R302 to R304, R400). -/
def execCellMove (q : Fin 64) (s : State) : Host.Outcome State Fault Refusal :=
  if !s.controlFree then .next s
  else doneSettled (s.runCmd q.val 0x21 .maint (fun s d =>
    let c := fld (d.p 0) 9 0
    let e := fld (d.p 1) 5 0
    let onP := bit (d.p 1) 6
    if fld (d.p 0) 31 10 ≠ 0 ∨ fld (d.p 1) 31 7 ≠ 0 ∨ (onP = true ∧ e % 2 = 1) then s.complete q.val d { status := 0x02 }
    else
      let x := s.cell c
      let ver := match x.ver with | some v => some v | none => s.cfg.cell c
      match ver with
      | none => s.complete q.val d { status := 0x30 }
      | some v =>
        let s := s.markRan q.val d
        let s := { s with ho := { step := .idle, kind := .move, cell := c, qp := q.val,
                                  axes := s.cfg.axes, groups := s.cfg.groups, conns := s.cfg.conns } }
        let code := s.moveCode c v e onP
        if x.st = .running then
          if code ≠ 0 then s.hoEnd code
          else match s.findPlace v (e / 4) false with
            | some pl => s.prepare c .move v e onP pl
            | none => s.hoEnd 0x32
        else if x.st = .unloaded ∨ x.st = .safe ∨ x.st = .held then
          if code ≠ 0 then s.hoEnd code
          else
            let t := s.toLoading c
            match t.findPlace v (e / 4) false with
            | some pl => t.prepare c .move v e onP pl
            | none => s.hoEnd 0x32
        else s.hoEnd 0x30))

/-! ### Split and merge (R231 to R233) -/

/-- Engines of pair k carry cells, by engine. -/
def State.carries (s : State) (e : Nat) : Bool := (s.cellsAt e false) != []

/-- The refusal of a split, or 0 (R231). -/
def State.splitCode (s : State) (k : Nat) (odd : List Nat) : Nat :=
  let cells := s.cellsAt (2 * k) true
  let vs := fun (l : List Nat) => l.filterMap (fun c => (s.cell c).ver)
  let even := cells.filter (fun c => !odd.contains c)
  if s.pairBusy (2 * k) || (s.epair k).st == .debug then 0x31
  else if (s.epair k).st ≠ .paired ∨ (s.epair k).formed = false then 0x39
  else if !odd.all (fun c => cells.contains c) then 0x34
  else if !(vs cells).all (fun v => v.singleOk) then 0x3C
  else if !(loadOk (vs even) && loadOk (vs odd) && gapOk (vs even) && gapOk (vs odd)) then 0x34
  else 0

/-- PAIR_SPLIT: checked, and H armed (R231, R232). -/
def execPairSplit (q : Fin 64) (s : State) : Host.Outcome State Fault Refusal :=
  if !s.controlFree then .next s
  else doneSettled (s.runCmd q.val 0x22 .maint (fun s d =>
    let k := fld (d.p 0) 4 0
    let n := fld (d.p 1) 4 0
    if fld (d.p 0) 31 5 ≠ 0 ∨ fld (d.p 1) 31 5 ≠ 0 ∨ 18 < n ∨ !d.cellListOk 2 n then s.complete q.val d { status := 0x02 }
    else
      let s := s.markRan q.val d
      let odd := d.cellList 2 n
      let s := { s with ho := { step := .idle, kind := .split, pair := k, qp := q.val, odd := odd, at_ := s.now } }
      let code := s.splitCode k odd
      if code ≠ 0 then s.hoEnd code
      else match s.pairBoundary k with
        | none => s.hoEnd 0x35
        | some h => s.armHand h 8 (.pair k)))

/-- The refusal of a merge, or 0 (R231). -/
def State.mergeCode (s : State) (k : Nat) : Nat :=
  let a := 2 * k
  let st := (s.epair k).st
  let ready := fun (e : Nat) => (s.eng e).role == .idle || (s.eng e).role == .single
  let cells := s.cellsAt a false ++ s.cellsAt (a + 1) false
  if st = .resolving ∨ st = .handover then 0x31
  else if !(ready a && ready (a + 1)) || (s.carries a && s.carries (a + 1)) || s.isOut (siteCluster (k / 2) 5) then 0x39
  else if !(cells.filterMap (fun c => (s.cell c).ver)).all (fun v => v.pairOk) then 0x3C
  else 0

/-- PAIR_MERGE: the self-test of each engine without cells and the injection test of the pair come first; then H is armed
(R231, R233). -/
def execPairMerge (q : Fin 64) (passEven passOdd injection : Bool) (s : State) : Host.Outcome State Fault Refusal :=
  if !s.controlFree then .next s
  else doneSettled (s.runCmd q.val 0x23 .maint (fun s d =>
    let k := fld (d.p 0) 4 0
    let a := 2 * k
    if fld (d.p 0) 31 5 ≠ 0 then s.complete q.val d { status := 0x02 }
    else
      let s := s.markRan q.val d
      let s := { s with ho := { step := .idle, kind := .merge, pair := k, qp := q.val, at_ := s.now } }
      let code := s.mergeCode k
      if code ≠ 0 then s.hoEnd code
      else
        let s := s.when (!s.carries a || !s.carries (a + 1)) (fun s => s.abandonRun (k / 8))
        let failE := !s.carries a && !passEven
        let failO := !s.carries (a + 1) && !passOdd
        let fail := fun (s : State) (e : Nat) => let s := s.selfTestFail e; s.engineOut e s.lastSeq
        if failE || failO then
          let s := s.when failE (fun s => fail s a)
          let s := s.when failO (fun s => fail s (a + 1))
          (s.refreshPair k).hoEnd 0x3B
        else if !injection then (s.comparatorFault k).hoEnd 0x3B
        else match s.pairBoundary k with
          | none => s.hoEnd 0x35
          | some h => s.armHand h 8 (.pair k)))

/-- H of a split or merge: both engines of pair k stop at their dispatch point, with the runtime doorbell pending, until they are
released (R207, R232, R233, R239, R272). A debug halt's DEBUG stays the pair's state (R237). -/
def State.haltPair (s : State) (k : Nat) : State :=
  let s := (s.event (2 * k) 0x11).event (2 * k + 1) 0x11
  let halt := fun (x : Engine) => { x with role := .halted, cell := none, stall := false, sealed := false, reqs := [], nreq := 0,
                                           queue := [], idx := 0, qbad := false, wd := 0, wdHit := false }
  let s := (s.updEng (2 * k) halt).updEng (2 * k + 1) halt
  let s := s.updEPair k (fun p => { p with formed := false, l := none, f := none })
  let s := s.when ((s.epair k).st != .debug) (fun s => s.setPair k .handover)
  { s with ho := { s.ho with step := .running } }

/-- The engine that carries the cells of a pair to be merged, SE(2k) where neither does (R233). -/
def State.mergeSource (s : State) (k : Nat) : Nat := if s.carries (2 * k + 1) then 2 * k + 1 else 2 * k

/-- H of a merge: the runtime context goes to the leader's slot, and both engines stop (R233). -/
def State.beginMerge (s : State) (k : Nat) : State :=
  let src := s.mergeSource k
  (s.when (src != 2 * k) (fun s => s.copyRuntime src (2 * k))).haltPair k

/-- The release of a split: the runtime context goes to the follower's slot, and both engines become SINGLE with their cells, which
neither restart nor enter degraded mode (R232). -/
def State.doSplit (s : State) (k : Nat) : State :=
  let cells := s.cellsAt (2 * k) true
  let odd := s.ho.odd
  let s := s.copyRuntime (2 * k) (2 * k + 1)
  let alone := fun (x : Engine) => { x.reseed with role := .single }
  let s := (s.updEng (2 * k) alone).updEng (2 * k + 1) alone
  let s := cells.foldl (fun s c => s.updCell c (fun x => { x with eng := if odd.contains c then 2 * k + 1 else 2 * k, onP := false })) s
  let s := (s.setPair k .split).pairEvt 7
  (s.hoLog { kind := 9, d12 := BitVec.ofNat 32 k }).hoEnd 0

/-- The release of a merge: both engines load the context of the engine that carries the cells; the first matching checkpoint forms
the pair and completes the merge. Cells that were held on the pair restart from their safe state (R233, R237, R281). -/
def State.doMerge (s : State) (k : Nat) : State :=
  let a := 2 * k
  let ctx := s.eng (s.mergeSource k)
  let put := fun (s : State) (e : Nat) (r : EngRole) =>
    s.updEng e (fun x => { ctx.reseed with role := r, dbg := false, tested := x.tested, et := x.et, etMode := x.etMode,
                                           etStat := x.etStat })
  let s := put (put s a .leader) (a + 1) .follower
  let moved := s.cellsAt a false ++ s.cellsAt (a + 1) false
  let s := moved.foldl (fun s c => s.updCell c (fun x => { x with eng := a, onP := true })) s
  let s := (s.cellsAt a true).foldl (fun s c =>
    s.when ((s.cell c).st == .held) (fun s => (s.rebuild c).setCell c .safe)) s
  s.when ((s.epair k).st != .debug) (fun s => s.setPair k .paired)

/-- The release of pair k cannot come because an engine of it has gone out: the request completes as refused, the other engine is IDLE
and the cells of the pair stay in their safe state (DESIGN CHOICE: the spec says nothing of a loss between H and release). -/
def State.dropPair (s : State) (k : Nat) : State :=
  let idle := fun (x : Engine) => if x.role = .halted then x.released .idle else x
  let cells := s.cellsOfPair k
  let s := (s.updEng (2 * k) idle).updEng (2 * k + 1) idle
  let s := cells.foldl (fun s c => s.toSafe c .held) s
  (s.refreshPair k).hoEnd 0x3A

/-- The release of a split or merge of pair k (R232, R233). -/
def State.releasePair (s : State) (k : Nat) : State :=
  let halted := fun (e : Nat) => (s.eng e).role == .halted
  if halted (2 * k) && halted (2 * k + 1) then (if s.ho.kind = .split then s.doSplit k else s.doMerge k)
  else if halted (2 * k) || halted (2 * k + 1) then s.dropPair k
  else s

/-- HANDOVER_END: of an exchange or move, X or H plus the longer of the two cycles has passed (R297, R298); of a split or merge, both
engines are released, within 3 µs of H (R232, R233). -/
def execHandoverEnd (s : State) : Host.Outcome State Fault Refusal :=
  let c := s.ho.cell
  let x := s.cell c
  if s.ho.step = .running ∧ (s.ho.kind = .split ∨ s.ho.kind = .merge) then doneSettled (s.releasePair s.ho.pair)
  else if s.inHandCycle c then
    match x.ver, x.nver with
    | some w, some v =>
      if s.past s.ho.x.toNat (max v.cycle w.cycle) then doneSettled (s.endCycle c v w) else .next s
    | _, _ => .next s
  else .next s

/-- TCMP_HANDOVER: ACT 0x8, the instant H of a move, a split or a merge (R97, R232, R233, R303). -/
def execTcmpHandover (n : Fin 256) (s : State) : Host.Outcome State Fault Refusal :=
  let use := (s.chan n.val).use
  doneSettled (s.fireIf n.val 8 (fun s =>
    let s := s.updChan n.val (fun h => { h with use := .none })
    match use with
    | .cell c => if s.handingOver c && s.ho.step == .waiting then s.handInstant c else s
    | .pair k =>
      if s.ho.step = .waiting ∧ s.ho.pair = k ∧ s.ho.kind = .split then s.haltPair k
      else if s.ho.step = .waiting ∧ s.ho.pair = k ∧ s.ho.kind = .merge then s.beginMerge k
      else s
    | _ => s))

/-! ### Restart (R282, R306, R405) -/

/-- CELL_RESTART: a HELD cell whose engine kind is whole is loaded again, in its committed version (R225, R282, R306). -/
def execCellRestart (q : Fin 64) (s : State) : Host.Outcome State Fault Refusal :=
  if !s.controlFree then .next s
  else doneSettled (s.runCmd q.val 0x24 .maint (fun s d =>
    let c := fld (d.p 0) 9 0
    let x := s.cell c
    if fld (d.p 0) 31 10 ≠ 0 then s.complete q.val d { status := 0x02 }
    else if x.st ≠ .held ∨ x.dEng = true ∨ s.placeUp x.eng x.onP = false then s.complete q.val d { status := 0x30 }
    else
      let img := if (s.committed.cell c).isSome then s.committed else s.cfg
      match img.cell c, x.ver with
      | some v, some w =>
        let t := s.freeAreas w (x.eng / 4) x.cblk x.sblk
        let t := t.updCell c (fun x => { x with st := .loading })
        match t.findPlace v (x.eng / 4) false with
        | none => s.complete q.val d { status := 0x32 }
        | some pl =>
          if !s.ownershipOk c v then s.complete q.val d { status := 0x33 }
          else
            let t := (t.adopt c v img).updCell c (fun x => { x with st := .held })
            let t := (t.wakeSingle x.eng x.onP).loadCell c v x.eng x.onP pl.1 pl.2.1 pl.2.2
            let tag := s.sessionTag q.val d.sess
            let t := t.log { kind := 12, role := tag.1, handle := tag.2, cell := some c, oldSig := w.sig, newSig := v.sig,
                             bankSeq := s.winSeq, site := s.cellSite c }
            t.complete q.val d {}
      | _, _ => s.complete q.val d { status := 0x30 }))

end Sys2Proof.Machine
end

