-- ==== Sys2Proof/Machine/Outputs.lean ====
section
/-! DEFINITION. The commands of the safe outputs, the test-pulse sources and the field banks (R146 to R187), and the
check of the Lids' masks (R201). -/

namespace Sys2Proof.Machine

/-- The combined command of an output is off: both elements turn off, at once and without tokens (R149, R150). -/
def execOutputTurnOff (o : Fin 64) (s : State) : Host.Outcome State Fault Refusal :=
  let s := s.settle
  let r := s.out o.val
  let s := s.when (!(s.stays o.val .a) && (r.a.on || r.a.waiting)) (fun s => s.updEl o.val .a (fun e => e.obey false s.now))
  let s := s.when (!(s.stays o.val .b) && (r.b.on || r.b.waiting)) (fun s => s.updEl o.val .b (fun e => e.obey false s.now))
  doneSettled s

/-- The combined command of an output has come on: each element asks for its tokens and turns on when they are granted
(R149, R150, R455). -/
def execOutputTurnOn (o : Fin 64) (s : State) : Host.Outcome State Fault Refusal :=
  let s := s.settle
  doneSettled ((s.turnOnEl o.val .a).turnOnEl o.val .b)

/-- An output has stayed in current limit longer than LIMT: OVERLOAD (R151, R174). -/
def execCurrentLimitExpiry (o : Fin 64) (s : State) : Host.Outcome State Fault Refusal :=
  let due := match (s.out o.val).limAt with | none => false | some t => s.past t (s.outRec o.val).limt
  if (s.out o.val).conducts && due then doneSettled (s.raiseOut o.val 7) else doneSettled s

/-- A junction reaches its thermal shutdown threshold: the element is off and THERMAL latches, or the source is held low
with TP_THERMAL (R151, R159, R174). -/
def execThermalShutdown (j : Junction) (s : State) : Host.Outcome State Fault Refusal :=
  match j with
  | .elem o x => doneSettled ((s.updEl o.val x (fun e => { e with hot := true })).raiseOut o.val 8 x)
  | .tp t => doneSettled (s.raiseTp t.val 4)

/-- A junction falls below its release threshold: THERMAL clears once neither element of the output is hot, TP_THERMAL clears
(R159, R169). -/
def execThermalRelease (j : Junction) (s : State) : Host.Outcome State Fault Refusal :=
  match j with
  | .elem o x =>
    let s := s.updEl o.val x (fun e => { e with hot := false })
    doneSettled (s.when ((s.out o.val).code == 8 && !((s.out o.val).el x.other).hot) (fun s => s.clearOut o.val))
  | .tp t => if (s.tp t.val).code = 4 then doneSettled (s.clearTp t.val) else doneSettled s

/-- A half's report of its measurements: its temperature, VFb as half A measures it (R186), and the 100 ms average of its bank's
current: above 6.5 A OVL_EVT sets and nothing switches (R152). -/
def execBankCurrentAverage (b : Fin 4) (h : AB) (r : BankReport) (s : State) : Host.Outcome State Fault Refusal :=
  if s.halfOut b.val h then doneSettled s
  else
    let s := s.updHalf b.val h (fun f => { f with temp := r.temp })
    let s := s.when (decide (h = .a)) (fun s => s.updBank b.val (fun k => { k with meas := r.vf }))
    doneSettled (s.when (decide (r.milliamps > 6500)) (fun s => s.bankEvt b.val 3))

/-- The inputs that output o feeds may end their hold after loading (R136). -/
def State.releaseFed (s : State) (o : Nat) : State :=
  (bankInputs (o / 16)).foldl (fun s n =>
    s.when ((s.inRec n).kind == 3 && (s.inRec n).src == o % 16) (fun s => (s.fedRelease n).afterQual n)) s

/-- The place of the present instant in the slots of element x of output o, by its half's own table: element B's lie half a period
after element A's (R157, R160). -/
def State.slotPhase (s : State) (o : Nat) (x : AB) : Option Nat :=
  let c := s.outRec o
  let ofs := match x with | .a => c.ofs | .b => c.ofs + c.opp / 2
  s.phaseOf (s.half (o / 16) x).sched ofs c.opp

/-- A scheduled off-pulse of an element begins at its place in the schedule, between 100 ns and 160 ns after the nominal instant,
and only while the output is on and the other element conducts (R157, R160). The inputs that the output feeds may end their hold
after loading (R136). -/
def execElementOffPulse (o : Fin 64) (x : AB) (s : State) : Host.Outcome State Fault Refusal :=
  if (s.outRec o.val).mode = 1 ∧ edgeDue (s.slotPhase o.val x) 0 = true ∧ (s.out o.val).conducts ∧
      (s.half (o.val / 16) x).silent = false then
    let start := s.now - (s.slotPhase o.val x).getD 0
    doneSettled ((s.updEl o.val x (fun e => { e with on := false, test := .pulse, testAt := start })).releaseFed o.val)
  else doneSettled (s.releaseFed o.val)

/-- The element whose off-pulse runs, or was cut by a turn-off in this tick (R168). -/
def State.pulsed (s : State) (o : Nat) : Option AB :=
  let r := s.out o
  let runs := fun (e : Element) => e.test == .pulse || e.cutAt == some s.now
  if runs r.a then some .a else if runs r.b then some .b else none

/-- A discarded test of an element: the third in a row is TEST_FAIL (R181). -/
def State.discardTest (s : State) (o : Nat) (x : AB) : State :=
  let s := s.updEl o x (fun e => { e with discard := e.discard + 1 })
  s.when (decide (((s.out o).el x).discard ≥ 3)) (fun s => (s.updEl o x (fun e => { e with discard := 0 })).raiseOut o 9 x)

/-- An element returns at the end of its off-pulse where its command is on: a scheduled edge, which waits for nothing (R150). -/
def State.returnEl (s : State) (o : Nat) (x : AB) : State :=
  s.when (s.stays o x) (fun s => s.updEl o x (fun e => { e with on := true }))

/-- The end of a pulse, OPW after its start (R160), or the turn-off that cut it in this tick: both halves judge N and the ball by
their readings of the last 5 µs (R162, R163). A sample of a dip is discarded (R181). A pass lets the element return; a failure
leaves both elements off for the off-check; differing verdicts are RB_DISAGREE (R167); the sample may refine another output's
EXT_HIGH (R164). -/
def execPulseVerdict (o : Fin 64) (r : PulseReadings) (fallen : BitVec 16) (s : State) : Host.Outcome State Fault Refusal :=
  match s.pulsed o.val with
  | none => doneSettled s
  | some x =>
    let e := (s.out o.val).el x
    let b := o.val / 16
    if e.test = .pulse ∧ s.past e.testAt ((s.outRec o.val).opw + 100) = false then doneSettled s
    else
      let s := s.updEl o.val x (fun e => { e with test := .none, cutAt := none })
      if s.dipped b .a || s.dipped b .b then doneSettled ((s.discardTest o.val x).returnEl o.val x)
      else
        let fa := foldReadings r.a
        let fb := foldReadings r.b
        let pa := pulsePass x fa
        let pb := pulsePass x fb
        let s := (s.noteReadings o.val fa fb).updEl o.val x (fun e => { e with discard := 0 })
        let s := s.updOut o.val (fun r => { r with pulseAt := s.now })
        let s :=
          if pa && pb then s.returnEl o.val x
          else if pa != pb then s.raiseOut o.val 10
          else
            s.updOut o.val (fun r =>
              { r with a := { r.a with on := false, barred := true }, b := { r.b with on := false, barred := true },
                       failX := some (x, fa, fb), offAt := s.now })
        doneSettled (s.crossRefine b o.val fallen)

/-- The off-check 20 µs after a failed verdict (R163): each half's reading names a code, and different codes are
RB_DISAGREE (R167). A reading of a dip is discarded, and the check is made again (R181). -/
def execOffCheck (o : Fin 64) (ra rb : Reading) (s : State) : Host.Outcome State Fault Refusal :=
  match (s.out o.val).failX with
  | none => doneSettled s
  | some (x, fa, fb) =>
    if s.past (s.out o.val).offAt (us 20) && !s.dipped (o.val / 16) .a && !s.dipped (o.val / 16) .b then
      let s := (s.noteReadings o.val ra rb).updOut o.val (fun r => { r with failX := none })
      doneSettled (s.verdict o.val (offCode x fa ra) (offCode x fb rb) x)
    else doneSettled s

/-- A dark-test probe of an element may begin (R165): a safety output that is off, with DARK, in the slot of the element's off-pulse
(R161); skipped while the output holds EXT_HIGH or CROSS_SHORT, and for element B while N reads high. -/
def State.probeReady (s : State) (o : Nat) (x : AB) : Bool :=
  let c := s.outRec o
  let r := s.out o
  let h := s.half (o / 16) x
  let skip := r.code == 5 || r.code == 6 || (decide (x = .b) && (r.nA == .high || r.nB == .high))
  decide (c.mode = 1) && c.dark && r.dark && r.a.test == .none && r.b.test == .none && edgeDue (s.slotPhase o x) 0 && !skip &&
    !h.silent && !h.quiet && !h.vfLow && !h.vfHigh && !s.halfOut (o / 16) x && !s.elOut o x

/-- A dark-test probe (R165). With no readings it begins: the element is switched on alone. With readings it ends, 20 µs later or
as soon as the ball does not read low, and both halves judge it; a turn-on commanded meanwhile takes its verdict away and then
proceeds (R168), a dip discards it (R181), and its sample may refine another output's EXT_HIGH (R164). -/
def execDarkTestProbe (o : Fin 64) (x : AB) (readings : Option (Reading × Reading)) (fallen : BitVec 16) (s : State) :
    Host.Outcome State Fault Refusal :=
  match readings with
  | none =>
    if s.probeReady o.val x then doneSettled (s.updEl o.val x (fun e => { e with test := .probe, testAt := s.now }))
    else doneSettled s
  | some (ra, rb) =>
    let e := (s.out o.val).el x
    let b := o.val / 16
    if e.test = .probe ∧ (s.past e.testAt (us 20) || ra.ball != .low || rb.ball != .low) = true then
      let s := s.updEl o.val x (fun e => { e with test := .none, late := false })
      if e.late then doneSettled (s.turnOnEl o.val x)
      else if s.dipped b .a || s.dipped b .b then doneSettled (s.discardTest o.val x)
      else
        let s := (s.updEl o.val x (fun e => { e with discard := 0 })).verdict o.val (probeCode x ra) (probeCode x rb) x
        doneSettled (s.crossRefine b o.val fallen)
    else doneSettled s

/-- A continuous reading that has stood for 20 µs (R166): what it shows is kept, with the current limit, and a disagreement
latches its code. One taken in a dip is discarded (R181). -/
def execContinuousOutputCheck (o : Fin 64) (h : AB) (r : Reading) (limiting : Bool) (s : State) :
    Host.Outcome State Fault Refusal :=
  if s.dipped (o.val / 16) h then doneSettled s
  else
    let code := s.continuousCode o.val r limiting
    let s := s.noteReading o.val h r
    let s := s.updOut o.val (fun u => { u with limAt := if limiting && u.conducts then some (u.limAt.getD s.now) else none })
    doneSettled (s.when (code != 0) (fun s => s.raiseOut o.val code))

/-- A half's report reaches the core side on its control lane up (R42, R167): a CVU may fold it (R498), and differing verdicts of the
two halves on one check are RB_DISAGREE. -/
def State.laneReport (s : State) (o : Nat) (h : AB) (verdict : Byte) (raw : List Byte) : State :=
  let b := o / 16
  let lane := 2 * h.n + 1
  let s := s.cvuItem 2 b lane 0 (BitVec.ofNat 32 (siteBank b 2 2 lane + 4096 * s.modAddr)) raw
  let s := s.updOut o (fun r => match h with | .a => { r with verA := some verdict } | .b => { r with verB := some verdict })
  match (s.out o).verA, (s.out o).verB with
  | some va, some vb =>
    let s := s.updOut o (fun r => { r with verA := none, verB := none })
    s.when (va != vb) (fun s => s.raiseOut o 10)
  | _, _ => s

/-- No heartbeat reaches the half: it is silent, the core side is lost, or more than 20 µs have passed since the last valid
heartbeat (R175, R176). -/
def State.hbMissing (s : State) (b : Nat) (h : AB) : Bool :=
  let f := s.half b h
  f.silent || !s.coreUp || (match f.lastHb with | none => false | some t => decide (s.since t > us 20))

/-- The reports that a half has held back leave, oldest first (R178). -/
def State.sendReports (s : State) (b : Nat) (h : AB) : State :=
  let l := (s.half b h).buffered
  let s := s.updHalf b h (fun f => { f with buffered := [] })
  l.foldl (fun s r => s.laneReport r.o h r.verdict r.raw) s

/-- A half has a report for its control lane up (R42, R167): while no heartbeat reaches it, it holds back up to 16, and drops and
counts later ones (R176). A half out of service reports nothing. -/
def execControlLaneReport (o : Fin 64) (h : AB) (verdict : Byte) (raw : List Byte) (s : State) :
    Host.Outcome State Fault Refusal :=
  let b := o.val / 16
  if s.halfOut b h then doneSettled s
  else if s.hbMissing b h then
    doneSettled (s.updHalf b h (fun f =>
      if f.buffered.length < 16 then { f with buffered := f.buffered ++ [{ o := o.val, verdict := verdict, raw := raw }] }
      else { f with dropped := satInc f.dropped }))
  else doneSettled (s.laneReport o.val h verdict raw)

/-- A word of an output-element lane that is missing or fails its check: the second in a row switches the element off
with LANE_CHECK (R170). -/
def State.elLaneBad (s : State) (o : Nat) (x : AB) : State :=
  let s := s.updEl o x (fun e => { e with laneBad := min 2 (e.laneBad + 1), laneGood := 0 })
  s.when (decide (((s.out o).el x).laneBad ≥ 2)) (fun s =>
    (s.updEl o x (fun e => { e with laneOff := true })).raiseOut o 11 x)

/-- A good word of an output-element lane: 8 in a row make the lane good again, and LANE_CHECK clears once neither lane is bad
(R169). -/
def State.elLaneGood (s : State) (o : Nat) (x : AB) : State :=
  let s := s.updEl o x (fun e =>
    let n := min 8 (e.laneGood + 1)
    { e with laneBad := 0, laneGood := n, laneOff := e.laneOff && decide (n < 8) })
  s.when ((s.out o).code == 11 && !(s.out o).a.laneOff && !(s.out o).b.laneOff) (fun s => s.clearOut o)

/-- A status word of an output-element lane arrives (R170, R498). -/
def execOutputLaneStatusWord (o : Fin 64) (x : AB) (w : Word) (ok : Bool) (s : State) : Host.Outcome State Fault Refusal :=
  let s := s.cvuItem 1 (o.val / 16) (2 * (o.val % 16) + x.n) 0 (BitVec.ofNat 32 (siteElementLane o.val x + 4096 * s.modAddr)) (bytes4 w)
  doneSettled (if ok then s.elLaneGood o.val x else s.elLaneBad o.val x)

/-- A status word of an output-element lane does not arrive (R170). -/
def execOutputLaneWordMissing (o : Fin 64) (x : AB) (s : State) : Host.Outcome State Fault Refusal :=
  doneSettled (s.elLaneBad o.val x)

/-- A standard output's ball has read so for 20 µs: where it disagrees with the output's command, LIMT after the last change of the
command, STD_MISMATCH (R169, R174). -/
def execStdMismatch (r : BallReading) (s : State) : Host.Outcome State Fault Refusal :=
  let o := r.out.val
  let c := s.outRec o
  let y := s.out o
  let want : Lvl := if s.stays o .a && s.stays o .b then .high else .low
  if c.mode = 2 ∧ r.ball ≠ want ∧ s.past y.onAt (c.limt + us 20) = true ∧ s.past y.offAt (c.limt + us 20) = true then
    doneSettled (s.raiseOut o 16)
  else doneSettled s

/-- The ball of a cross-short's other party has been low for 1 s with that party off. -/
def State.partnerLow (s : State) (p : Option Nat) : Bool :=
  let held := fun (t : Option Nat) => match t with | none => false | some t => s.past t (secs 1)
  match p with
  | none => true
  | some p => if p < 64 then held (s.out p).lowAt else held (s.tp (p - 64)).lowAt

/-- The clearing condition of an output's code has held for its time (R169): EXT_HIGH, CROSS_SHORT and OVERLOAD clear
here, STD_MISMATCH once the ball agrees; the other codes clear with their own events. -/
def execOutputCodeClear (o : Fin 64) (s : State) : Host.Outcome State Fault Refusal :=
  let r := s.out o.val
  let low := match r.lowAt with | none => false | some t => s.past t (secs 1)
  let ok := match r.code.toNat with
    | 5 => r.dark && low
    | 6 => r.dark && low && s.partnerLow r.partner
    | 7 => !r.conducts && s.past r.offAt (ms 100)
    | 16 => let want : Lvl := if r.conducts then .high else .low; r.rbA == want && r.rbB == want
    | _ => false
  if ok then
    doneSettled (if r.code = 16 then s.updOut o.val (fun r => { r with code := 0 }) else s.clearOut o.val)
  else doneSettled s

/-- The core side has sent the heartbeats due to a half up to this instant, one every 20 µs with its 8-bit sequence number
(R175). -/
def State.sendHb (s : State) (b : Nat) (h : AB) : State :=
  if s.coreUp then
    let n := s.since (s.half b h).sentAt / us 20
    s.updHalf b h (fun f => { f with sent := f.sent + BitVec.ofNat 8 n, sentAt := f.sentAt + n * us 20 })
  else s

/-- A valid heartbeat restarts the half's silence timer, and what its standard outputs show is kept for SAFE = hold; a half that has
not expired lets go of the reports it held back meanwhile (R176, R177). -/
def State.validHb (s : State) (b : Nat) (h : AB) : State :=
  let s := s.updHalf b h (fun f => { f with lastHb := some s.now })
  let s := (bankOutputs b).foldl (fun s o =>
    s.when ((s.outRec o).mode == 2) (fun s => s.updEl o h (fun e => { e with hbOn := e.on }))) s
  s.when (!(s.half b h).silent) (fun s => s.sendReports b h)

/-- A half resynchronises (R178): its schedule is the bank's again, its buffered reports leave, and SIL_EXPIRED clears where the
other half is not silent. -/
def State.resync (s : State) (b : Nat) (h : AB) : State :=
  let s := s.updHalf b h (fun f => { f with silent := false, sched := (s.bank b).sched })
  let s := s.sendReports b h
  let s := s.when (!(s.half b h.other).silent) (fun s => s.clearBankOut b 12)
  s.bankEvt b 4

/-- A heartbeat reaches a half (R175, R176, R178): one that passes its check becomes the reference with the TB it carries, and is
valid where it follows the one before; 8 valid ones in a row resynchronise a silent half. -/
def execHeartbeat (b : Fin 4) (h : AB) (w : HbWord) (ok : Bool) (s : State) : Host.Outcome State Fault Refusal :=
  let s := s.sendHb b.val h
  let f := s.half b.val h
  if s.halfOut b.val h then doneSettled s
  else if !ok then doneSettled (s.updHalf b.val h (fun f => { f with run := 0 }))
  else
    let valid := f.ref == some (w.seq - 1)
    let s := s.updHalf b.val h (fun f =>
      { f with ref := some w.seq, hbTb := w.tb, run := if valid then min 8 (f.run + 1) else 0 })
    let s := s.when valid (fun s => s.validHb b.val h)
    doneSettled (s.when (f.silent && decide ((s.half b.val h).run ≥ 8)) (fun s => s.resync b.val h))

/-- The silence timer of a half may have expired: 0.9 × T_SIL have passed since its last valid heartbeat (R176). Where the core side
is lost, or the half has seen no valid heartbeat, the half's own oscillator alone says so (R25). -/
def State.silDue (s : State) (b : Nat) (h : AB) : Bool :=
  !s.coreUp || (match (s.half b h).lastHb with | none => true | some t => s.past t (s.tSil b * 9 / 10))

/-- The elements that one half's expiry finds on an output: a code that holds an element of a standard output off is kept beside
SIL_EXPIRED, and the half's element takes its silence state (R177). -/
def State.expireOut (s : State) (o : Nat) (h : AB) : State :=
  let c := s.outRec o
  let r := s.out o
  let s := s.when (c.mode == 2) (fun s =>
    let s := (s.updEl o .a (fun e => { e with heldOff := r.stdOff .a })).updEl o .b (fun e => { e with heldOff := r.stdOff .b })
    s.updEl o h (fun e =>
      let v := silenceKeep c.safe (r.stdOff h) e.hbOn
      { e with keep := some v, on := v && s.drives o h }))
  s.raiseOut o 12

/-- The silence timer of a half expires (R177): SIL_EXPIRED on every output of the bank, each element of a standard output
in its programmed safe state, the half's tests stopped and its tokens returned (R460). -/
def execSilExpired (b : Fin 4) (h : AB) (s : State) : Host.Outcome State Fault Refusal :=
  let f := s.half b.val h
  if f.silent || f.quiet || s.halfOut b.val h || !s.silDue b.val h then doneSettled s
  else
    let s := (bankOutputs b.val).foldl (fun s o => s.expireOut o h) s
    let s := s.updHalf b.val h (fun f => { f with silent := true, run := 0 })
    let s := (s.stopTests b.val h).releaseHalf b.val h
    doneSettled (s.bankEvt b.val 2)

/-- A supply condition of a half (R180): every element it drives is off and its tests stop, its sources low, the code on every
output and source of the bank, VF_LOW on the bank's inputs. -/
def State.supplyFault (s : State) (b : Nat) (h : AB) (outCode : Nat) : State :=
  let s := (s.stopTests b h).bankEvt b 0
  let s := s.raiseBankOut b outCode
  let s := s.raiseBankTp b 6 (fun _ => true)
  s.raiseBankIn b 11 (fun _ => true)

/-- VF has been below the low threshold for 10 µs (R180). -/
def execVfLow (b : Fin 4) (h : AB) (s : State) : Host.Outcome State Fault Refusal :=
  if s.halfOut b.val h then doneSettled s
  else doneSettled ((s.updHalf b.val h (fun f => { f with vfLow := true })).supplyFault b.val h 13)

/-- VF has been above the high threshold for 10 µs (R180). -/
def execVfHigh (b : Fin 4) (h : AB) (s : State) : Host.Outcome State Fault Refusal :=
  if s.halfOut b.val h then doneSettled s
  else doneSettled ((s.updHalf b.val h (fun f => { f with vfHigh := true })).supplyFault b.val h 14)

/-- A dip of VF shorter than 10 µs: DIP_EVT sets, nothing switches, and the half discards the samples and checks of the next 50 µs
(R168, R181). -/
def execVfDip (b : Fin 4) (h : AB) (s : State) : Host.Outcome State Fault Refusal :=
  if s.halfOut b.val h then doneSettled s
  else doneSettled ((s.updHalf b.val h (fun f => { f with dipAt := some s.now })).bankEvt b.val 1)

/-- VF has held within its recovery window for 10 ms (R180, R182): a bank that comes up now runs its start-up element test and
enters service (R184, R438), the codes clear, the sources resume at their next period, and a half that the supply had reset is
back in service. -/
def execVfRecovery (r : BankUp) (s : State) : Host.Outcome State Fault Refusal :=
  let b := r.bank.val
  let first := !(s.bank b).vf
  let s := s.updBank b (fun k => { k with vf := true })
  let back := fun (h : AB) (s : State) =>
    let down := s.halfOut b h && (s.half b h).vfLow
    (s.updHalf b h (fun f => { f with vfLow := false, vfHigh := false })).when down (fun s => s.halfBack b h)
  let s := back .b (back .a s)
  let s := (s.clearBankOut b 13).clearBankOut b 14
  let s := s.clearBankTp b 6 (fun _ => true)
  let s := s.when first (fun s => s.bankTests b r.elements r.sources)
  doneSettled (s.requalifyBank b)

/-- VF falls below a half's brown-out threshold: the half resets, its gate drive is lost, and it is out of service until
VF recovers (R24, R180, R499). VF_EVT sets where the half had not yet seen VF_LOW; an expired half stays silent until it
resynchronises (R186). -/
def execHalfBrownOut (b : Fin 4) (h : AB) (s : State) : Host.Outcome State Fault Refusal :=
  let f := s.half b.val h
  let s := s.when (!f.vfLow && !f.vfHigh) (fun s => s.bankEvt b.val 0)
  let s := s.updHalf b.val h (fun f =>
    { dropped := f.dropped, vfLow := true, silent := f.silent, temp := f.temp, sent := f.sent, sentAt := f.sentAt })
  doneSettled (s.halfDown b.val h)

/-- A pulsed source starts or ends its scheduled off-pulse, between 100 ns and 160 ns after the nominal instant by its half's own
table; a silent half's table is no longer aligned to TB (R157, R177). An end that comes later still ends the pulse. -/
def execTpSourceOffPulse (t : Fin 32) (start : Bool) (s : State) : Host.Outcome State Fault Refusal :=
  let c := s.tpRec t.val
  let f := s.half (t.val / 8) (sourceHalf t.val)
  let phase := s.phaseOf f.sched c.ofs c.tpp
  let u := s.tp t.val
  if c.mode ≠ 1 ∨ f.sched.isNone = true ∨ start = u.pulse then doneSettled s
  else if start then
    if f.silent || edgeDue phase 0 then
      doneSettled (s.updTp t.val (fun r => { r with pulse := true, pulseAt := if f.silent then s.now else s.now - phase.getD 0 }))
    else doneSettled s
  else if s.past u.pulseAt (c.tpw + 100) then doneSettled (s.updTp t.val (fun r => { r with pulse := false }))
  else doneSettled s

/-- A source's readback in an off-pulse, in its last 5 µs (R159): the ball must be low, and a pass after the steps of a clearing event
clears its code. The falling balls may refine an output's EXT_HIGH (R164). -/
def State.tpPulseRead (s : State) (t : Nat) (ball : Lvl) (fallen : BitVec 16) : State :=
  let r := s.tp t
  let s := if ball ≠ .low then s.raiseTp t 1
           else s.when (r.armClr && (r.code == 1 || r.code == 5)) (fun s => s.clearTp t)
  s.crossRefine (t / 8) (64 + t) fallen

/-- A source's readback while it is on (R159): a ball that is not high outside current limit is TP_STUCK_LOW; a pass after a unit
reset clears that code, a failure puts the source out of service again (R12). -/
def State.tpOnRead (s : State) (t : Nat) (ball : Lvl) (limiting : Bool) : State :=
  let s := s.updTp t (fun r => { r with limAt := if limiting then some (r.limAt.getD s.now) else none })
  if (s.tp t).code = 2 then
    if ball = .high then s.clearTp t
    else if limiting then s
    else (s.updTp t (fun r => { r with armClr := false })).takeOut (siteSource t) 2
  else s.when (ball != .high && !limiting) (fun s => s.raiseTp t 2)

/-- A source's readback of its ball (R159): in the last 5 µs of an off-pulse, and every 20 µs while it is on. A held source's
clearing events are followed. A reading of a dip is discarded (R181). -/
def execTpSourceReadback (t : Fin 32) (x : TpReading) (s : State) : Host.Outcome State Fault Refusal :=
  let on := s.tpOn t.val
  let r := s.tp t.val
  let early := r.pulse && !s.past r.pulseAt ((s.tpRec t.val).tpw + 100 - us 5)
  if s.dipped (t.val / 8) (sourceHalf t.val) || early then doneSettled s
  else
    let s := s.updTp t.val (fun r =>
      { r with high := x.ball == Lvl.high,
               lowAt := if x.ball = .low && !on then some (r.lowAt.getD s.now) else none })
    if r.pulse then doneSettled (s.tpPulseRead t.val x.ball x.fallen)
    else if on then doneSettled (s.tpOnRead t.val x.ball x.limiting)
    else
      let held := fun (y : Option Nat) => match y with | none => false | some a => s.past a (secs 1)
      let outLow := match r.partner with
        | none => true
        | some o => held (s.out o).lowAt
      doneSettled (s.when (held (s.tp t.val).lowAt && (r.code == 1 || (r.code == 5 && outLow)))
        (fun s => s.updTp t.val (fun r => { r with armClr := true })))

/-- A source has been in current limit for 1 ms: it is switched off, held low and latches TP_OVERLOAD (R156). -/
def execTpOverload (t : Fin 32) (s : State) : Host.Outcome State Fault Refusal :=
  let due := match (s.tp t.val).limAt with | none => false | some a => s.past a (ms 1)
  if s.tpOn t.val && due then doneSettled (s.raiseTp t.val 3) else doneSettled s

/-- A retry of an overloaded source, once every 1 s (R156): it asks for tokens as a turn-on does; with tokens and 1 ms below the
limit it returns to its schedule. Its tokens go back 20 µs after its start (R454). -/
def execTpSourceRetry (t : Fin 32) (good : Bool) (s : State) : Host.Outcome State Fault Refusal :=
  let d := t.val / 8 + 1
  let r := s.tp t.val
  if r.code ≠ 3 || r.waiting || (!r.retrying && !s.past r.retryAt (secs 1)) then doneSettled s
  else
    let (ok, s) := if r.retrying then (true, s)
      else (s.updTp t.val (fun r => { r with retryAt := s.now })).request d (siteSource t.val) s.tpCost
    if ok then doneSettled ((s.updTp t.val (fun r => { r with retrying := false })).when good (fun s => s.clearTp t.val))
    else doneSettled (s.updTp t.val (fun r => { r with waiting := true }))

/-- A Lid's mask memory fails its CRC-32C for an element: CHK_EVT, a record, and the Lid is faulty (R201, R202). -/
def execLidMaskCheck (l : AB) (o : Fin 64) (s : State) : Host.Outcome State Fault Refusal :=
  let s := s.lidEvt 1
  let s := s.record { src := 7, code := 2, site := siteSpine 0 3 l.n, d6 := BitVec.ofNat 32 o.val, d7 := BitVec.ofNat 32 l.n }
  let faulty := match l with | .a => s.lid.faultA | .b => s.lid.faultB
  doneSettled (s.when (!faulty) (fun s => s.lidFaulty l))

end Sys2Proof.Machine
end

