-- ==== Sys2Proof/Machine/Supply.lean ====
section
/-! DEFINITION. The Ladle's own events (R453 to R462): grants, overdraws, returns, refill, the audit, and writes of its
configuration. -/

namespace Sys2Proof.Machine

/-- What a site names (R34, R35, R37): an element of an output, a test-pulse source, the BIST controller, a region. -/
inductive SiteKind
  | element (o : Nat) (x : AB)
  | source (t : Nat)
  | bist
  | region (q : Nat)
  | other
deriving DecidableEq, Repr

/-- The kind of a site, M aside. -/
def siteKind (site : Nat) : SiteKind :=
  let d := site / 512 % 8
  let q := site / 128 % 4
  let c := site / 32 % 4
  let u := site % 32
  if d ≥ 4 ∧ c = 1 ∧ q ≤ 1 then .element (16 * (d - 4) + u) (if q = 0 then .a else .b)
  else if d ≥ 4 ∧ c = 2 ∧ q ≤ 1 then .source (8 * (d - 4) + u)
  else if site = siteSpine 0 0 4 then .bist
  else if d = 0 ∧ u = 7 then .region q
  else .other

/-- A grant takes effect at the site that asked: the element starts to turn on, the source may retry, the region's switch
closes (R150, R454). A BIST run begins with its own command. -/
def State.granted (s : State) (site : Nat) : State :=
  match siteKind site with
  | .element o x => s.when ((s.out o).el x).waiting (fun s => s.startOn o x)
  | .source t => s.updTp t (fun r => { r with waiting := false, retrying := true })
  | .region q => { s with regions := setBit s.regions q true }
  | _ => s

/-- The first waiting request of a domain is granted and leaves the queue. -/
def State.grantFirst (s : State) (d : Nat) : State :=
  match (s.bucket d).queue with
  | [] => s
  | t :: rest =>
    let b := { s.bucket d with queue := rest }
    (s.setBucket d (b.grant { t with at_ := s.now })).granted t.site

/-- LADLE_GRANT: the first waiting request, once L reaches its cost (R455). -/
def execLadleGrant (d : Fin 5) (s : State) : Host.Outcome State Fault Refusal :=
  match (s.bucket d.val).queue with
  | [] => .next s
  | t :: _ => if (t.cost : Int) ≤ (s.bucket d.val).level then doneSettled (s.grantFirst d.val) else .next s

/-- LADLE_OVERDRAW: a turn-on that has waited 50 µs is granted whatever L is; with L at its cost it is an ordinary grant
(R458, R460). -/
def execLadleOverdraw (d : Fin 5) (s : State) : Host.Outcome State Fault Refusal :=
  match (s.bucket d.val).queue with
  | [] => .next s
  | t :: _ =>
    if d.val ≠ 0 ∧ s.past t.at_ 50000 = true then
      if (t.cost : Int) ≤ (s.bucket d.val).level then doneSettled (s.grantFirst d.val)
      else
        let s := s.grantFirst d.val
        doneSettled ({ s with ladle := { s.ladle with overN := satInc s.ladle.overN } }.ladleEvt 0)
    else .next s

/-- The tokens of a turn-on of element x of output o are due back: 20 µs after its start of gate turn-on, for element B of a
safety output after the later start of both (R454). -/
def State.turnOnOver (s : State) (o : Nat) (x : AB) : Bool :=
  let r := s.out o
  s.past (r.el x).startAt 20000 &&
    (x == .a || (s.outRec o).mode == 2 || (!r.a.waiting && s.past r.a.startAt 20000))

/-- The tokens of an event are due back: 20 µs after its start in a VF domain, 200 µs after its grant for a region wake (R454). A
BIST run returns them when it ends or pauses. -/
def State.returnDue (s : State) (d site : Nat) : Bool :=
  match (s.bucket d).grants.find? (fun t => t.site == site) with
  | none => false
  | some t =>
    if d = 0 then (match siteKind site with | .region _ => s.past t.at_ 200000 | _ => !s.bist.active || s.bist.paused)
    else match siteKind site with
      | .element o x => s.turnOnOver o x
      | _ => s.past t.at_ 20000

/-- LADLE_RETURN (R454, R456). -/
def execLadleReturn (d : Fin 5) (site : Half) (s : State) : Host.Outcome State Fault Refusal :=
  if s.returnDue d.val site.toNat then doneSettled (s.giveBack d.val site.toNat) else .next s

/-- LADLE_REFILL: a whole token moves from S to L (R456). -/
def execLadleRefill (d : Fin 5) (s : State) : Host.Outcome State Fault Refusal :=
  doneSettled (s.setBucket d.val (s.bucket d.val).refill)

/-- The Ladle's own holdings for one half of a bank (R459). -/
def State.halfHolds (s : State) (b : Nat) (h : AB) : Nat :=
  (((s.bucket (b + 1)).grants.filter (fun t => t.site / 512 == 4 + b && t.site / 128 % 4 == h.n)).map (·.cost)).sum

/-- A domain rebuilt from both halves' reports (R459). -/
def Bucket.rebuild (b : Bucket) (reported : Nat) : Bucket :=
  let h := b.resv + reported
  { b with held := h, spent := 0, level := (b.size : Int) - h, acc := 0 }

/-- LADLE_AUDIT: the reports of both halves against the Ladle's books, with what is in flight (R459). -/
def execLadleAudit (b : Fin 4) (repA repB flightA flightB backA backB : Half) (s : State) :
    Host.Outcome State Fault Refusal :=
  let d := b.val + 1
  let okA := s.halfHolds b.val .a + backA.toNat == repA.toNat + flightA.toNat
  let okB := s.halfHolds b.val .b + backB.toNat == repB.toNat + flightB.toNat
  if okA && okB then .next s
  else
    let s := (s.ladleEvt 1).record { src := 12, code := 4, site := siteSpine 0 0 3, d6 := BitVec.ofNat 32 d }
    doneSettled (s.setBucket d ((s.bucket d).rebuild (repA.toNat + repB.toNat + flightA.toNat + flightB.toNat)))

/-- A write to a register that SYS_LOCK protects: ignored with LOCKWR_EVT once LOCK is set (R493, R495). -/
def State.lockedWrite (s : State) (f : State → State) : State :=
  if s.sys.lock then s.sysEvt 3 else f s

/-- LADLE_CFG_d (R460, R462). -/
def State.writeLadleCfg (s : State) (d : Nat) (v : Word) : State :=
  let size := fld v 15 0
  let rate := fld v 31 16
  s.lockedWrite (fun s =>
    if size = 0 ∨ size > 32767 ∨ rate = 0 then s.ladleEvt 2 else s.setBucket d ((s.bucket d).configure size rate))

/-- LADLE_CFG_WRITE (R460, R462). -/
def execLadleCfgWrite (d : Fin 5) (v : Word) (s : State) : Host.Outcome State Fault Refusal :=
  doneSettled (s.hostWrite.writeLadleCfg d.val v)

end Sys2Proof.Machine
end

