-- ==== Sys2Proof/Machine/Bist.lean ====
section
/-! DEFINITION. Built-in self-test and repair (R472 to R487), the resets of UNIT_RESET (R469, R470), and the TAP (R484,
R525). -/

namespace Sys2Proof.Machine

/-! ### Conditions and events -/

/-- Conditions of a BIST run that a field shows: PLL, REFCLK, junction below 115 °C, VSYS (R473). -/
def State.condsNow (s : State) : Bool :=
  s.clk.pllLock && s.clk.refOk && decide (s.pwr.mTemp.toNat < 179) && !s.pwr.ot && s.pwr.vsysOk && s.bist.conds

/-- A bit of BIST_STAT [21:16] sets: 0 FAIL, 1 REPAIR, 2 FUSE, 3 INCOMPLETE, 4 COND, 5 BADCFG. -/
def State.bistEvt (s : State) (i : Nat) : State :=
  { s with bist := { s.bist with evt := setBit s.bist.evt i true } }.mark 0x2004 (16 + i)

/-- A failure joins the result data, the newest first, at most 128 (R478). -/
def State.bistEntry (s : State) (site code : Nat) (repaired fused : Bool) (detail : Word) : State :=
  { s with bist := { s.bist with
      fails := ((BitVec.ofNat 16 (site + 4096 * s.modAddr), BitVec.ofNat 8 code, repaired, fused, detail) :: s.bist.fails).take 128 } }

/-! ### Units that fail (R12, R17, R20, R230, R478) -/

/-- A cluster memory goes out of service with the four engines of its cluster; their cells go to their safe state (R17). -/
def State.clusterOut (s : State) (c code : Nat) : State :=
  let seq := s.lastSeq
  let s := s.takeOut (siteCluster c 4) code
  let cells := s.cellsOfPair (2 * c) ++ s.cellsOfPair (2 * c + 1)
  let s := (s.cancelSplit (2 * c)).cancelSplit (2 * c + 1)
  let s := cells.foldl (fun s n => (s.abandon n 0x3A).toSafe n .held) s
  let s := s.each 4 (fun s i => s.engineOut (4 * c + i) seq)
  (s.refreshPair (2 * c)).refreshPair (2 * c + 1)

/-- A region is isolated for a fault: its cells go to their safe state at once, and it stays isolated until a region reset
passes (R20, R483). -/
def State.isolate (s : State) (q code : Nat) : State :=
  let s := s.abandonRun q
  let s := s.takeOut (siteRegion q) code
  let s := s.each 8 (fun s i =>
    let k := 8 * q + i
    let s := s.cancelSplit k
    let s := (s.cellsOfPair k).foldl (fun s n => (s.abandon n 0x3A).toSafe n .held) s
    let stop := fun (x : Engine) => x.released (if x.role = .out then .out else .idle)
    ((s.updEng (2 * k) stop).updEng (2 * k + 1) stop).refreshPair k)
  { s with regions := setBit s.regions q false, perm := { s.perm with due := s.perm.due.filter (fun d => d.eng / 16 != q) } }

/-- An engine whose logic test fails goes out of service (R472, R474). -/
def State.engineLogicFail (s : State) (e : Nat) : State :=
  (s.engineOut e s.lastSeq).refreshPair (e / 2)

/-- The consequence of a BIST code at a site (R478, R482). `fuse` asks for a permanent repair, which S8 of a start-up makes: it needs a
free entry of 32 and HOLD_OK; without a free entry the repair stays soft and FUSE_FAIL is reported (R481). -/
def State.bistConsequence (s : State) (fuse : Bool) (i : BistItem) : State :=
  let site := i.site.toNat % 4096
  let c := site / 32 % 16
  let u := site % 32
  match i.code.toNat with
  | 1 =>
    let s := (s.bistEvt 1).updClu c (fun m => { m with spares := BitVec.ofNat 8 (min 24 (m.spares.toNat + 1)) })
    if !fuse then s
    else if (s.clu c).fuses.toNat ≥ 32 then
      ((s.bistEvt 2).bistEntry site 10 false false i.detail).record { src := 13, code := 10, site := site, d6 := i.detail }
    else if s.pwr.holdOk then (s.bistEvt 2).updClu c (fun m => { m with fuses := m.fuses + 1 })
    else s
  | 2 => { s with bist := { s.bist with unrep := setBit s.bist.unrep (c / 4) true } }
  | 3 => s.clusterOut c 3
  | 4 =>
    if site / 512 ≠ 0 then s.takeOut site 4
    else if u < 4 then s.engineLogicFail (4 * c + u)
    else if u = 4 then s.clusterOut c 4
    else if u = 5 then s.comparatorFault (2 * c)
    else if u = 7 then s.isolate (site / 128) 4
    else s.takeOut site 4
  | 5 => s.clusterOut c 5
  | 6 =>
    let blk := i.detail.toNat % 256
    (s.updClu c (fun m => { m with own := Tab.upd {} m.own blk (fun o => { o with badPar := true }) })).ownerParity c blk
  | _ => s

/-- A report names the fabric and switch of region q as failed. -/
def itemIsolates (i : BistItem) (q : Nat) : Bool := i.code == 4 && i.site.toNat % 4096 == siteRegion q

/-- An engine that carries cells is not logic-tested in service, so a run reports nothing of its logic (R474). -/
def State.guarded (s : State) (site code : Nat) : Bool :=
  code == 4 && decide (site / 512 = 0) && decide (site % 32 < 4) && (s.eng (4 * (site / 32 % 16) + site % 32)).role != .idle

/-- What a run or a start-up test reports of one unit of region q: an entry of the result data, events, a record and the
consequence (R478). A site that is no unit of the region is no report (R38). Where the region itself is switched off in the same
command, `off`, its units raise no fault of their own, and the record stands at the level of the region (R30). -/
def State.bistItem (s : State) (q : Nat) (startup off : Bool) (i : BistItem) : State :=
  let code := i.code.toNat
  let site := i.site.toNat % 4096
  if code = 0 ∨ site / 128 ≠ q ∨ unitValid site = false ∨ (!startup && s.guarded site code) = true then s
  else
    let fuse := i.fuse && startup
    let fused := fuse && code == 1 && s.pwr.holdOk && decide ((s.clu (site / 32 % 16)).fuses.toNat < 32)
    let s := s.bistEntry site code (code == 1) fused i.detail
    let s := s.when (code != 8 && code != 9) (fun s => s.bistEvt 0)
    if off && !itemIsolates i q then s
    else
      let s := s.record { src := 13, code := code, site := site, d6 := i.detail, startup := startup, level := if itemIsolates i q then 2 else 0 }
      s.bistConsequence fuse i

/-- The reports of one run on region q. -/
def State.bistItems (s : State) (q : Nat) (startup : Bool) (l : List BistItem) : State :=
  let off := l.any (fun i => itemIsolates i q)
  l.foldl (fun s i => s.bistItem q startup off i) s

/-- The outcome of a run by what it reports: 1 pass, 2 pass with repair, 3 fail (R478). -/
def bistOutcome (l : List BistItem) : BitVec 2 :=
  if l.any (fun i => i.code != 0 && i.code != 1 && i.code != 8 && i.code != 9) then 3
  else if l.any (fun i => i.code == 1) then 2 else 1

/-- The summary of a region, the spine or the store die after a complete run (R478). -/
def State.bistRan (s : State) (i : Nat) (outcome : BitVec 2) : State :=
  let put := fun (b : BistSum) => { b with outcome := outcome, last := s.tb.tb.extractLsb' 0 32, runs := b.runs + 1, incompl := 0 }
  { s with bist := { s.bist with sums := Tab.upd {} s.bist.sums i put } }

/-! ### In-service runs (R473 to R477) -/

/-- The next region in rotation that is powered and in service (R474). -/
def State.nextRegion (s : State) : Option Nat :=
  ((List.range 4).map (fun i => (s.bist.rot + i) % 4)).find? s.regionUp

/-- An in-service run is due: BG_PER minutes after the last one began, or after service did; one that a lapse discarded, 10 ms after
the lapse (R473, R474). -/
def State.runDue (s : State) : Bool :=
  if s.bist.again then s.past s.bist.lapseAt (ms 10) else s.past s.bist.runAt (secs (60 * s.bist.per.toNat))

/-- BIST_RUN_START (R454, R473, R474): when a run is due and the conditions hold, the next region in rotation; the run begins once it
holds its 15 VSYS tokens. -/
def execBistRunStart (s : State) : Host.Outcome State Fault Refusal :=
  let site := siteSpine 0 0 4
  let begin := fun (s : State) (q : Nat) => { s with bist := { s.bist with
    active := true, paused := false, again := false, region := BitVec.ofNat 2 q, pct := 0, skipped := 0, rot := (q + 1) % 4,
    runAt := s.now } }
  let conds := { s with bist := { s.bist with conds := true } }.condsNow
  let s := s.when s.runDue (fun s => { s with bist := { s.bist with conds := true } })
  if s.pwr.phase ≠ .service ∨ s.bist.active = true ∨ s.runDue = false ∨ conds = false then doneSettled s
  else match s.nextRegion with
    | none => doneSettled s
    | some q =>
      if s.holds 0 site then doneSettled (begin s q)
      else if (s.bucket 0).queue.any (fun t => t.site == site) then doneSettled s
      else
        let (ok, s) := s.request 0 site 15
        doneSettled (if ok then begin s q else s)

/-- The reports of the run that has ended in this tick, its summary, and its tokens (R474, R478). -/
def State.reportRun (s : State) : State :=
  match s.bist.ended with
  | none => s
  | some items =>
    let q := s.bist.region.toNat
    let s := s.endRun
    let s := (s.bistItems q false items).bistRan q (bistOutcome items)
    { s with bist := { s.bist with pct := 100 } }.settle

/-- BIST_RUN_END (R474, R478): the run has made its last test. It reports as the tick ends, and no cell-control command
starts before that (R485); a lapse or an isolation of the same tick discards it. -/
def execBistRunEnd (items : List BistItem) (s : State) : Host.Outcome State Fault Refusal :=
  if s.bist.active && !s.bist.paused then doneSettled { s with bist := { s.bist with ended := some items } }
  else .next s

/-- BIST_CONDITION_LAPSE (R473): the run is discarded and begins again, on the same region, once the conditions have held. -/
def execBistConditionLapse (s : State) : Host.Outcome State Fault Refusal :=
  let s := s.when s.condsNow (fun s => { s with bist := { s.bist with conds := false } })
  if s.bist.active then
    let s := s.endRun.bistEvt 4
    doneSettled { s with bist := { s.bist with again := true, lapseAt := s.now, rot := s.bist.region.toNat } }
  else doneSettled s

/-- ROW_TEST_TIMEOUT (R475): the row is restored and counted as not tested. -/
def execRowTestTimeout (s : State) : Host.Outcome State Fault Refusal :=
  if s.bist.active && !s.bist.paused then doneSettled { s with bist := { s.bist with skipped := s.bist.skipped + 1 } } else .next s

/-- BIST_RUN_TIMEOUT (R477): 60 s after it began the run is abandoned and reported as INCOMPLETE; the third in a row is recorded. -/
def execBistRunTimeout (s : State) : Host.Outcome State Fault Refusal :=
  if s.bist.active && s.past s.bist.runAt (secs 60) then
    let q := s.bist.region.toNat
    let s := s.endRun
    let n := (Tab.get {} s.bist.sums q).incompl
    let s := { s with bist := { s.bist with sums := Tab.upd {} s.bist.sums q (fun b => { b with incompl := satInc n }) } }
    let s := s.bistEntry (siteRegion q) 8 false false 0
    doneSettled (s.when (n == 2) (fun s => (s.bistEvt 3).record { src := 13, code := 8, site := siteRegion q }))
  else .next s

/-! ### UNIT_RESET (R18, R20, R31, R185, R469, R470) -/

/-- What a UNIT_RESET names. -/
inductive Target
  | engine (e : Nat)
  | memory (c : Nat)
  | input (n : Nat)
  | element (o : Nat) (x : AB)
  | source (t : Nat)
  | region (q : Nat)
  | bank (b : Nat)
  | store
  | noReset
  | invalid
deriving DecidableEq, Repr

/-- The target of a site reference on this module (R38, R39, R469). -/
def State.targetOf (s : State) (w : Word) : Target :=
  match s.siteRef w with
  | none => .invalid
  | some (site, level) =>
    let d := site / 512
    let c := site / 32 % 16
    let u := site % 32
    match level with
    | 0 =>
      if d = 0 then (if u < 4 then .engine (4 * c + u) else if u = 4 then .memory c else .noReset)
      else if d ≥ 4 ∧ site / 128 % 4 ≤ 1 then
        (match site / 32 % 4 with
         | 0 => .input (32 * (d - 4) + u)
         | 1 => .element (16 * (d - 4) + u) (if site / 128 % 4 = 0 then .a else .b)
         | 2 => .source (8 * (d - 4) + u)
         | _ => .noReset)
      else .noReset
    | 2 => if d = 0 then .region (site / 128) else .noReset
    | 3 => if d ≥ 4 then .bank (d - 4) else if d = 3 then .store else .noReset
    | _ => .noReset

/-- An engine is held in reset: IDLE or out of service (R14). -/
def State.inReset (s : State) (e : Nat) : Bool := (s.eng e).role == .idle || (s.eng e).role == .out

/-- A cell is scheduled on an engine, as a single or on its pair. -/
def State.scheduled (s : State) (e : Nat) : Bool :=
  s.cellsAt e false != [] || s.cellsAt (e / 2 * 2) true != []

/-- The refusal of a UNIT_RESET, or 0 (R18, R20, R185, R470). -/
def State.resetCode (s : State) (t : Target) : Nat :=
  match t with
  | .invalid => 0x20
  | .noReset => 0x02
  | .engine e => if s.inReset e && !s.scheduled e then 0 else 0x30
  | .memory c => if (List.range 4).all (fun i => s.inReset (4 * c + i) && !s.scheduled (4 * c + i)) then 0 else 0x30
  | .region q => if (List.range 16).all (fun i => !s.scheduled (16 * q + i)) then 0 else 0x30
  | .element o _ => if (s.out o).a.on || (s.out o).b.on then 0x3D else 0
  | .bank b => if (bankOutputs b).any (fun o => (s.out o).a.on || (s.out o).b.on) then 0x3D else 0
  | .store => if s.store.holder.isSome then 0x31 else 0
  | _ => 0

/-- A cluster memory after its reset: blocks unallocated, soft repair loaded again from the fuse entries, fuses kept (R469, R479). -/
def Cluster.cleared (m : Cluster) : Cluster :=
  { fuses := m.fuses, spares := BitVec.ofNat 8 (min 24 m.fuses.toNat), ce := m.ce, ue := m.ue, scrub := m.scrub }

/-- The other units that must work for engine e to come back: its memory and comparator set (R17, R230). -/
def State.clusterSound (s : State) (c : Nat) : Bool := !s.isOut (siteCluster c 4) && !s.isOut (siteCluster c 5)

/-- An engine after its reset and self-test: IDLE where it passes, otherwise OUT (R227, R469). -/
def State.resetEngine (s : State) (e : Nat) (ok : Bool) : State :=
  if ok then
    let s := s.putBack (siteEngine e)
    (s.updEng e (fun _ => { role := .idle, tested := s.now })).refreshPair (e / 2)
  else
    let s := s.selfTestFail e
    (s.engineOut e s.lastSeq).refreshPair (e / 2)

/-- The wake of a region: its 20 VSYS tokens, asked for ahead of every BIST request, until 200 µs after its switch has closed
(R454, R455). -/
def State.wakeRegion (s : State) (q : Nat) : State :=
  ((s.waitFor 0 20).requestFirst 0 (siteRegion q) 20).2.giveBack 0 (siteRegion q)

/-- A BIST run of a start-up or a region reset begins on region q with its 15 VSYS tokens (R454, R455). -/
def State.beginTest (s : State) (q : Nat) : State := ((s.waitFor 0 15).request 0 (siteRegion q) 15).2

/-- It ends, and its tokens return. -/
def State.endTest (s : State) (q : Nat) : State := s.giveBack 0 (siteRegion q)

/-- A region after its reset: woken, tested, its engines IDLE; or isolated still (R469, R482, R483). A run in progress on another
region returns its tokens to a wake that waits, and takes them again after it (R455). -/
def State.resetRegion (s : State) (q : Nat) (ok : Bool) : State :=
  let run := siteSpine 0 0 4
  let yields := s.bist.active && !s.bist.paused && s.bist.region.toNat != q && decide ((s.bucket 0).level < 20)
  let s := (s.abandonRun q).when yields (fun s => (s.ladleEvt 3).giveBack 0 run)
  let s := s.wakeRegion q
  let s := s.when yields (fun s => ((s.waitFor 0 15).request 0 run 15).2)
  let s := (s.beginTest q).endTest q
  let s := { s with bist := { s.bist with unrep := setBit s.bist.unrep q false } }
  let s := s.each 4 (fun s i => s.updClu (4 * q + i) Cluster.cleared)
  if ok then
    let s := { s.putBack (siteRegion q) with regions := setBit s.regions q true }
    let s := s.each 4 (fun s i => s.each 3 (fun s u => s.putBack (siteCluster (4 * q + i) (4 + u))))
    let s := s.each 16 (fun s i =>
      ((s.putBack (siteEngine (16 * q + i))).updEng (16 * q + i) (fun _ => { role := .idle, tested := s.now })).loadRuntime (16 * q + i))
    let s := s.each 8 (fun s i => (s.updEPair (8 * q + i) (fun p => { p with formed := false, l := none, f := none })).refreshPair (8 * q + i))
    s.bistRan q 1
  else ({ s.takeOut (siteRegion q) 4 with regions := setBit s.regions q false }).bistRan q 3

/-- A bank after the reset of its dies and its start-up test: every element off, outputs to return under R171; a bank that fails
is out of service with one record at the level of the die (R29, R183, R184, R469). -/
def State.resetBank (s : State) (b : Nat) (ok : Bool) (els : List ElTest) (tps : List TpTest) : State :=
  let s := (s.releaseHalf b .a).releaseHalf b .b
  let s := (bankOutputs b).foldl (fun s o => s.updOut o (fun r => { count := r.count, level := r.level, rearm := (s.outRec o).mode == 1 })) s
  let s := (bankSources b).foldl (fun s t => s.updTp t (fun r => { count := r.count })) s
  let fresh := fun (h : AB) (s : State) => s.updHalf b h (fun f =>
    { dropped := f.dropped, vfLow := f.vfLow, vfHigh := f.vfHigh, temp := f.temp, sent := f.sent, sentAt := f.sentAt })
  let s := fresh .b (fresh .a s)
  if ok then
    let s := (s.halfBack b .a).halfBack b .b
    let s := (bankOutputs b).foldl (fun s o => (s.putBack (siteElement o .a)).putBack (siteElement o .b)) s
    ((bankSources b).foldl (fun s t => s.putBack (siteSource t)) s).bankTests b els tps
  else
    ((s.halfDown b .a (quiet := true)).halfDown b .b (quiet := true)).record
      { src := 2, code := 15, site := siteBank b 0 0 0, level := 3 }

/-- The codes of a retest of element x of output o (R184, R185): those of its readings; without readings a failed test is
TEST_FAIL (DESIGN CHOICE). -/
def retestCodes (o : Nat) (x : AB) (pass : Bool) (els : List ElTest) : List (Nat × AB) :=
  match els.find? (fun t => t.o.val == o) with
  | some t => elTestCodes t
  | none => if pass then [] else [(9, x)]

/-- An element after its retest: back in service with the output's code cleared once both elements are in service, or out of
service with the new code (R169, R185). -/
def State.resetElement (s : State) (o : Nat) (x : AB) (codes : List (Nat × AB)) : State :=
  if codes = [] then
    let s := s.putBack (siteElement o x)
    let code := (s.out o).code.toNat
    let elementCode := code == 1 || code == 2 || code == 3 || code == 4 || code == 9 || code == 10
    s.when (elementCode && !s.elOut o x.other) (fun s => (s.clearOut o).recover o)
  else (codes.foldl (fun s c => s.raiseOut o c.1 c.2) s).takeOut (siteElement o x) (codes.head?.map (·.1) |>.getD 9)

/-- A source after its unit reset and its test off-pulse (R159, R184, R469): a pass lets the on-reading that clears TP_STUCK_LOW
follow, a failure is a code of its own. -/
def State.resetSource (s : State) (t : Nat) (code : Nat) : State :=
  if code = 0 then (s.putBack (siteSource t)).updTp t (fun r => { r with armClr := r.code == 2 || r.armClr })
  else s.raiseTp t code

/-- The code of a source's test off-pulse: that of its readings; without readings a failed test is TP_STUCK_LOW (DESIGN CHOICE). -/
def retestTp (t : Nat) (pass : Bool) (tps : List TpTest) : Nat :=
  match tps.find? (fun x => x.t.val == t) with
  | some x => tpTestCode x
  | none => if pass then 0 else 2

/-- The reset of a target and what its test makes of it (R469). -/
def State.resetTarget (s : State) (t : Target) (pass : Bool) (els : List ElTest) (tps : List TpTest) : State :=
  match t with
  | .engine e => s.resetEngine e (pass && s.clusterSound (e / 4))
  | .memory c =>
    let s := s.updClu c Cluster.cleared
    if pass then (s.putBack (siteCluster c 4)).each 4 (fun s i => s.loadRuntime (4 * c + i)) else s.clusterOut c 3
  | .input n =>
    let s := s.updInp n (fun i => { i with armClr := i.code == 9 || i.armClr })
    let s := s.when pass (fun s => s.putBack (siteInput n))
    (s.when (pass && (s.inp n).code == 9) (fun s => s.clearIn n)).afterQual n
  | .element o x => s.resetElement o x (retestCodes o x pass els)
  | .source t => s.resetSource t (retestTp t pass tps)
  | .region q => s.resetRegion q pass
  | .bank b => s.resetBank b pass els tps
  | .store => if pass then s else { s with store := { s.store with lost := true } }.record { src := 15, code := 4, site := siteStore 0, level := 3 }
  | _ => s

/-- Whether the reset's test passes as a whole: an engine also needs its memory and comparator set (R17, R230), an element and a
source pass by their readings. -/
def State.resetPasses (s : State) (t : Target) (pass : Bool) (els : List ElTest) (tps : List TpTest) : Bool :=
  match t with
  | .engine e => pass && s.clusterSound (e / 4)
  | .element o x => retestCodes o x pass els == []
  | .source t => retestTp t pass tps == 0
  | _ => pass

/-- The region of a unit that UNIT_RESET names at level 0, for the units of a region. -/
def Target.regionOf : Target → Option Nat
  | .engine e => some (e / 16)
  | .memory c => some (c / 4)
  | _ => none

/-- A UNIT_RESET ends: the change-log entry, with M in its site, and the completion (R430, R470). -/
def State.resetEnds (s : State) (q : Nat) (d : Desc) (ok : Bool) : State :=
  let w := d.p 0
  let tag := s.sessionTag q d.sess
  let level := fld w 18 16
  let s := s.log { kind := 0x0D, role := tag.1, handle := tag.2, site := levelMask level (fld w 15 0), level := level,
                   d12 := if ok then 1 else 0 }
  s.complete q d { status := if ok then 0 else 0x3E }

/-- A unit of a target is in service. -/
def State.targetUp (s : State) : Target → Bool
  | .engine e => !s.isOut (siteEngine e)
  | .memory c => !s.isOut (siteCluster c 4)
  | _ => true

/-- Commands of the queue pairs whose reset the reset of region r has absorbed complete with what it made of their units (R29). -/
def State.endAbsorbed (s : State) (r : Nat) : State :=
  s.each 64 (fun s q =>
    ((s.qp q).cmds.filter (fun d => d.ran && d.opc == 0x25 && (s.targetOf (d.p 0)).regionOf == some r)).foldl
      (fun s d => s.resetEnds q d (s.regionUp r && s.targetUp (s.targetOf (d.p 0)))) s)

/-- UNIT_RESET (R29, R470): the row carries what the unit's test finds, for elements and sources by the readings of R184. A
reset of an engine or a memory whose region is held in reset is absorbed: it completes when the reset of the region ends. -/
def execUnitReset (q : Fin 64) (x : Retest) (s : State) : Host.Outcome State Fault Refusal :=
  doneSettled (s.runCmd q.val 0x25 .maint (fun s d =>
    let w := d.p 0
    let t := s.targetOf w
    if fld w 31 19 ≠ 0 then s.complete q.val d { status := 0x02 }
    else
      let code := s.resetCode t
      if code ≠ 0 then s.complete q.val d { status := code }
      else if t.regionOf.any (fun r => !s.regionUp r) then s.markRan q.val d
      else
        let s' := s.resetTarget t x.pass x.elements x.sources
        let s' := s'.resetEnds q.val d (s.resetPasses t x.pass x.elements x.sources)
        match t with
        | .region r => s'.endAbsorbed r
        | _ => s'))

/-! ### The TAP (R484, R525, R528) -/

/-- A TAP instruction takes hold, or is refused and reported over JTAG (R484, R525). -/
def State.tapTakes (s : State) (ok : Bool) (i : BitVec 3) : State :=
  if ok then { s with bist := { s.bist with tap := i } }.emit (.tap true) else s.emit (.tap false)

/-- TAP_RESET: BYPASS; BOOT_HOLD stays in force (R525, R528). -/
def execTapReset (s : State) : Host.Outcome State Fault Refusal :=
  doneSettled { s with bist := { s.bist with tap := 0 } }

/-- BYPASS: at any time (R525). -/
def execBypass (s : State) : Host.Outcome State Fault Refusal := doneSettled (s.tapTakes true 0)

/-- SAMPLE/PRELOAD: at any time (R525). -/
def execSamplePreload (s : State) : Host.Outcome State Fault Refusal := doneSettled (s.tapTakes true 1)

/-- EXTEST: only with BOOT_HOLD in force (R525). -/
def execExtest (s : State) : Host.Outcome State Fault Refusal := doneSettled (s.tapTakes s.bist.inHold 2)

/-- CLAMP: only with BOOT_HOLD in force (R525). -/
def execClamp (s : State) : Host.Outcome State Fault Refusal := doneSettled (s.tapTakes s.bist.inHold 3)

/-- BOOT_HOLD: only while RSTN is low; the next start-up stops after S9 (R484). -/
def execBootHold (s : State) : Host.Outcome State Fault Refusal :=
  if s.pwr.rstn then doneSettled (s.tapTakes false 4)
  else doneSettled ({ s with bist := { s.bist with hold := true } }.tapTakes true 4)

/-- SCAN_EN (R484): sessions close with reason 3, the credential state of the spine is cleared and read back, and only then
are the scan chains connected. -/
def execScanEn (readBackZero : Bool) (s : State) : Host.Outcome State Fault Refusal :=
  if !s.bist.inHold then doneSettled (s.tapTakes false 5)
  else
    let s := s.closeSessions 3
    let stop := fun (x : RoleS) => { x with chk := none, sess := none }
    let s := (s.updRole .maintenance stop).updRole .safetyEngineer stop
    if readBackZero then
      doneSettled ({ s with bist := { s.bist with cleared := true, scan := true } }.tapTakes true 5)
    else doneSettled (s.tapTakes true 5)

end Sys2Proof.Machine
end

