-- ==== Sys2Proof/Machine/Booleans.lean ====
section
/-! DEFINITION. Damuno's boolean unit: major 0x01 by fn (R252). -/

namespace Sys2Proof.Machine

/-- An instruction that writes kd from the engine's registers. -/
def insK (rd : Nat) (f : Engine → Bool) : Ins := { act := fun x => .step (x.setK rd (f x)) }
/-- A form on three boolean registers. -/
def boolK (rd rs rt : Nat) (f : Bool → Bool → Bool) : Ins := insK rd (fun x => f (x.kr rs) (x.kr rt))
/-- A comparison of two general registers into a boolean register. -/
def boolG (rd rs rt : Nat) (f : Word → Word → Bool) : Ins := insK rd (fun x => f (x.gr rs) (x.gr rt))

/-- KAND (R252). -/
def execKand (e : Fin 64) (rd rs rt : Fin 32) (s : State) : Host.Outcome State Fault Refusal :=
  doneSettled (s.issue e.val (boolK rd.val rs.val rt.val (fun a b => a && b)))
/-- KOR (R252). -/
def execKor (e : Fin 64) (rd rs rt : Fin 32) (s : State) : Host.Outcome State Fault Refusal :=
  doneSettled (s.issue e.val (boolK rd.val rs.val rt.val (fun a b => a || b)))
/-- KXOR (R252). -/
def execKxor (e : Fin 64) (rd rs rt : Fin 32) (s : State) : Host.Outcome State Fault Refusal :=
  doneSettled (s.issue e.val (boolK rd.val rs.val rt.val (fun a b => a != b)))
/-- KANDN (R252). -/
def execKandn (e : Fin 64) (rd rs rt : Fin 32) (s : State) : Host.Outcome State Fault Refusal :=
  doneSettled (s.issue e.val (boolK rd.val rs.val rt.val (fun a b => a && !b)))
/-- KORN (R252). -/
def execKorn (e : Fin 64) (rd rs rt : Fin 32) (s : State) : Host.Outcome State Fault Refusal :=
  doneSettled (s.issue e.val (boolK rd.val rs.val rt.val (fun a b => a || !b)))
/-- KNOT (R252). -/
def execKnot (e : Fin 64) (rd rs : Fin 32) (s : State) : Host.Outcome State Fault Refusal :=
  doneSettled (s.issue e.val (insK rd.val (fun x => !x.kr rs.val)))
/-- KMOV (R252). -/
def execKmov (e : Fin 64) (rd rs : Fin 32) (s : State) : Host.Outcome State Fault Refusal :=
  doneSettled (s.issue e.val (insK rd.val (fun x => x.kr rs.val)))
/-- KEQ (R252). -/
def execKeq (e : Fin 64) (rd rs rt : Fin 32) (s : State) : Host.Outcome State Fault Refusal :=
  doneSettled (s.issue e.val (boolG rd.val rs.val rt.val (fun a b => a == b)))
/-- KNE (R252). -/
def execKne (e : Fin 64) (rd rs rt : Fin 32) (s : State) : Host.Outcome State Fault Refusal :=
  doneSettled (s.issue e.val (boolG rd.val rs.val rt.val (fun a b => a != b)))
/-- KLT (R252). -/
def execKlt (e : Fin 64) (rd rs rt : Fin 32) (s : State) : Host.Outcome State Fault Refusal :=
  doneSettled (s.issue e.val (boolG rd.val rs.val rt.val (fun a b => a.slt b)))
/-- KLTU (R252). -/
def execKltu (e : Fin 64) (rd rs rt : Fin 32) (s : State) : Host.Outcome State Fault Refusal :=
  doneSettled (s.issue e.val (boolG rd.val rs.val rt.val (fun a b => a.ult b)))
/-- KGE (R252). -/
def execKge (e : Fin 64) (rd rs rt : Fin 32) (s : State) : Host.Outcome State Fault Refusal :=
  doneSettled (s.issue e.val (boolG rd.val rs.val rt.val (fun a b => !a.slt b)))
/-- KGEU (R252). -/
def execKgeu (e : Fin 64) (rd rs rt : Fin 32) (s : State) : Host.Outcome State Fault Refusal :=
  doneSettled (s.issue e.val (boolG rd.val rs.val rt.val (fun a b => !a.ult b)))
/-- KBIT (R252). -/
def execKbit (e : Fin 64) (rd rs rt : Fin 32) (s : State) : Host.Outcome State Fault Refusal :=
  doneSettled (s.issue e.val (boolG rd.val rs.val rt.val (fun a b => bit a (b.toNat % 32))))
/-- GFK (R252). -/
def execGfk (e : Fin 64) (rd rs : Fin 32) (s : State) : Host.Outcome State Fault Refusal :=
  doneSettled (s.issue e.val { act := fun x => .step (x.setG rd.val (ofBool (x.kr rs.val))) })
/-- KFG (R252). -/
def execKfg (e : Fin 64) (rd rs : Fin 32) (s : State) : Host.Outcome State Fault Refusal :=
  doneSettled (s.issue e.val (insK rd.val (fun x => x.gr rs.val != 0)))

end Sys2Proof.Machine
end

