-- ==== Sys2Proof/Machine/Branches.lean ====
section
/-! DEFINITION. Damuno's branches, jumps and hardware loop (R250, R254 to R261). -/

namespace Sys2Proof.Machine

/-- A B form taken on a condition. -/
def insB (off : Half) (cond : Engine → Bool) : Ins :=
  { barred := true, branch := true,
    act := fun x => .branch x (if cond x then some (targetB x.pc off) else none) true }

/-- LOOP: its illegal cases (R249, R258, R259). -/
def loopBad (imm : Bool) (rs cnt last : Nat) (x : Engine) : Bool :=
  let le := x.pc + BitVec.ofNat 32 (4 * last)
  (imm && rs != 0) || (!imm && cnt != 0) || decide (last ≤ 1) || (x.la0 && x.la1) ||
    (x.la0 && !x.lp0.holds x.pc) || (x.la0 && decide (x.lp0.le.toNat ≤ le.toNat))

/-- LOOP: the next free level activated, or with a count of 0 the body skipped (R258). -/
def loopAct (imm : Bool) (rs cnt last : Nat) (x : Engine) : Act :=
  let le := x.pc + BitVec.ofNat 32 (4 * last)
  let n : Word := if imm then BitVec.ofNat 32 cnt else x.gr rs
  let lv : LoopLv := { lc := n, ls := x.pc + 4, le := le }
  if n = 0 then .jump x (le + 4)
  else if x.la0 then .jump { x with lp1 := lv, la1 := true } (x.pc + 4)
  else .jump { x with lp0 := lv, la0 := true } (x.pc + 4)

/-- BEQ (R250). -/
def execBeq (e : Fin 64) (rs rt : Fin 32) (off : Half) (s : State) : Host.Outcome State Fault Refusal :=
  doneSettled (s.issue e.val (insB off (fun x => x.gr rs.val == x.gr rt.val)))
/-- BNE (R250). -/
def execBne (e : Fin 64) (rs rt : Fin 32) (off : Half) (s : State) : Host.Outcome State Fault Refusal :=
  doneSettled (s.issue e.val (insB off (fun x => x.gr rs.val != x.gr rt.val)))
/-- BLT (R250). -/
def execBlt (e : Fin 64) (rs rt : Fin 32) (off : Half) (s : State) : Host.Outcome State Fault Refusal :=
  doneSettled (s.issue e.val (insB off (fun x => (x.gr rs.val).slt (x.gr rt.val))))
/-- BGE (R250). -/
def execBge (e : Fin 64) (rs rt : Fin 32) (off : Half) (s : State) : Host.Outcome State Fault Refusal :=
  doneSettled (s.issue e.val (insB off (fun x => !(x.gr rs.val).slt (x.gr rt.val))))
/-- BLTU (R250). -/
def execBltu (e : Fin 64) (rs rt : Fin 32) (off : Half) (s : State) : Host.Outcome State Fault Refusal :=
  doneSettled (s.issue e.val (insB off (fun x => (x.gr rs.val).ult (x.gr rt.val))))
/-- BGEU (R250). -/
def execBgeu (e : Fin 64) (rs rt : Fin 32) (off : Half) (s : State) : Host.Outcome State Fault Refusal :=
  doneSettled (s.issue e.val (insB off (fun x => !(x.gr rs.val).ult (x.gr rt.val))))
/-- BKT (R250). -/
def execBkt (e : Fin 64) (rs : Fin 32) (off : Half) (s : State) : Host.Outcome State Fault Refusal :=
  doneSettled (s.issue e.val (insB off (fun x => x.kr rs.val)))
/-- BKF (R250). -/
def execBkf (e : Fin 64) (rs : Fin 32) (off : Half) (s : State) : Host.Outcome State Fault Refusal :=
  doneSettled (s.issue e.val (insB off (fun x => !x.kr rs.val)))
/-- J (R250). -/
def execJ (e : Fin 64) (off : BitVec 26) (s : State) : Host.Outcome State Fault Refusal :=
  doneSettled (s.issue e.val
    { barred := true, branch := true, act := fun x => .branch x (some (targetJ x.pc off)) true })
/-- CALL: it ends no loop (R250, R261). -/
def execCall (e : Fin 64) (off : BitVec 26) (s : State) : Host.Outcome State Fault Refusal :=
  doneSettled (s.issue e.val
    { barred := true, branch := true,
      act := fun x => .branch (x.setG 31 (x.pc + 8)) (some (targetJ x.pc off)) false })
/-- JMPR: a target that is no multiple of 4 faults here; with a link register it ends no loop (R250, R256, R261). -/
def execJmpr (e : Fin 64) (rd rs : Fin 32) (s : State) : Host.Outcome State Fault Refusal :=
  doneSettled (s.issue e.val
    { barred := true, branch := true, bad := fun _ => rd.val == rs.val && rd.val != 0,
      act := fun x =>
        if fld (x.gr rs.val) 1 0 ≠ 0 then .trap 5 (x.gr rs.val)
        else .branch (x.setG rd.val (x.pc + 8)) (some (x.gr rs.val)) (rd.val == 0) })
/-- LOOP (R258, R259). -/
def execLoop (e : Fin 64) (imm : Bool) (rs : Fin 32) (cnt last : BitVec 10) (s : State) : Host.Outcome State Fault Refusal :=
  doneSettled (s.issue e.val
    { barred := true, bad := loopBad imm rs.val cnt.toNat last.toNat,
      act := loopAct imm rs.val cnt.toNat last.toNat })

end Sys2Proof.Machine
end

