-- ==== Sys2Proof/Machine/Inputs.lean ====
section
/-! DEFINITION. The commands of the safe inputs and the encoder interfaces (R113 to R145). -/

namespace Sys2Proof.Machine

/-- A raw level change on input n, with that of the other input of its pair where it falls in the same tick (R121). -/
def execInputEdge (n : Fin 128) (level : Bool) (partner : Option Bool) (s : State) : Host.Outcome State Fault Refusal :=
  let m := n.val / 2 * 2 + (1 - n.val % 2)
  let both := !level && partner == some false
  let s := s.rawEdge n level both
  let s := match partner with
    | some l => s.rawEdge m l both
    | none => s
  doneSettled ((s.afterQual n).supplyCheck m)

/-- A status word of an input lane that is good (R117, R143). -/
def State.laneGood (s : State) (n : Nat) : State :=
  let s := s.updInp n (fun i => { i with laneBad := 0, laneGood := min 8 (i.laneGood + 1) })
  s.afterQual n

/-- A status word of an input lane that is missing or fails its check: the second in a row is LANE_CHECK (R117). -/
def State.laneBad (s : State) (n : Nat) : State :=
  let s := s.updInp n (fun i => { i with laneBad := min 2 (i.laneBad + 1), laneGood := 0 })
  s.when (decide ((s.inp n).laneBad ≥ 2)) (fun s => (s.raiseIn n 8).afterQual n)

/-- An input lane status word arrives: a CVU may fold it, then its check counts (R117, R498). -/
def execInputLaneStatusWord (n : Fin 128) (w : Word) (ok : Bool) (s : State) : Host.Outcome State Fault Refusal :=
  let s := s.cvuItem 0 (n.val / 32) (n.val % 32) 0 (BitVec.ofNat 32 (siteInputLane n.val + 4096 * s.modAddr)) (bytes4 w)
  doneSettled (if ok then s.laneGood n else s.laneBad n)

/-- A status word of an input lane does not arrive (R117). -/
def execInputLaneWordMissing (n : Fin 128) (s : State) : Host.Outcome State Fault Refusal :=
  doneSettled (s.laneBad n)

/-- The wetting of a half's input ends, no earlier than 1.9 ms after it began (R114): hold current, a sink outside R114 is
SINK_FAULT, and the next request is served (R115, R143). -/
def execWettingEnd (h : Fin 8) (sinkOk : Bool) (s : State) : Host.Outcome State Fault Refusal :=
  match (s.wetQ h).now with
  | none => doneSettled s
  | some n =>
    if s.past (s.wetQ h).at_ 1900000 then
      let s := s.updInp n (fun i => { i with wet := (s.inRec n).sink })
      let s := s.when (!sinkOk) (fun s => (s.raiseIn n 9).afterQual n)
      match (s.wetQ h).waiting with
      | [] => doneSettled (s.updWetQ h (fun q => { q with now := none }))
      | m :: rest =>
        doneSettled ((s.updWetQ h (fun _ => { now := some m, at_ := s.now, waiting := rest })).updInp m (fun i => { i with wet := true }))
    else doneSettled s

/-- An own window begins, where the schedule has one open (R122, R124, R135). -/
def execTpWindowStart (n : Fin 128) (s : State) : Host.Outcome State Fault Refusal := doneSettled ((s.startWindow n).afterQual n)

/-- An own window that has reached its end is over (R124). -/
def execTpWindowEnd (n : Fin 128) (s : State) : Host.Outcome State Fault Refusal := doneSettled ((s.endWindow n).afterQual n)

/-- The last foreign window of source t, as channel n sees it, that is over: its start and its end (R127, R157). -/
def State.foreignWindow (s : State) (n t : Nat) : Option (Nat × Nat) :=
  let c := s.tpRec t
  let w := c.tpw + 60 + (s.inRec n).ldly
  if c.mode ≠ 1 then none
  else match s.phaseOf (s.bank (n / 32)).sched (c.ofs + 100) c.tpp with
    | none => none
    | some p => if w ≤ p then some (s.now - p, s.now - p + w) else none

/-- The foreign window of source k, as channel n sees it, has ended (R127): a drop inside it with the channel ON again is
CROSS_SHORT, with the source as the related site. -/
def execForeignWindowEnd (n : Fin 128) (k : Fin 8) (s : State) : Host.Outcome State Fault Refusal :=
  let r := s.inRec n
  let i := s.inp n
  let t := 8 * (n.val / 32) + k.val
  let inside := match i.dropAt, s.foreignWindow n t with
    | some d, some (a, b) => decide (a ≤ d) && decide (d < b)
    | _, _ => false
  if r.kind == 2 && r.src != k.val && inside then
    let s := s.updInp n (fun i => { i with crossed := true })
    doneSettled (s.when i.raw (fun s => (s.raiseIn n 4 (related := siteSource t + 4096 * s.modAddr)).afterQual n))
  else doneSettled s

/-- A held OSSD drop reaches OW without ending: the channel is OFF (R128). -/
def execOssdHoldExpiry (n : Fin 128) (s : State) : Host.Outcome State Fault Refusal :=
  if s.ossdDue n then doneSettled ((s.ossdOff n).afterQual n) else doneSettled s

/-- A channel has been ON for PMAX without a counted test (R129). -/
def execOssdNoTest (n : Fin 128) (s : State) : Host.Outcome State Fault Refusal :=
  let r := s.inRec n
  let i := s.inp n
  let due := match i.onSince with
    | none => false
    | some t => s.past t r.pmax && (match i.lastTest with | none => true | some l => s.past l r.pmax)
  if r.ossd && r.pmax != 0 && i.q && due && (s.pair (n.val / 2)).st != .off then
    doneSettled ((s.raiseIn (n.val / 2 * 2) 6 (d6 := BitVec.ofNat 32 (n.val % 2))).afterQual n)
  else doneSettled s

/-- A filter has run its time: the level is accepted (R130, R136). -/
def execFilterExpiry (n : Fin 128) (s : State) : Host.Outcome State Fault Refusal :=
  match (s.inp n).filter with
  | none => doneSettled s
  | some t =>
    if (s.inRec n).filtered && s.past t (s.filterTime n (s.inp n).raw) then doneSettled ((s.acceptFilter n).afterQual n)
    else doneSettled s

/-- A kind-4 channel with SIG 0 or 1 has been ON for 2 × OW after loading (R136). -/
def execOssdStartHoldExpiry (n : Fin 128) (s : State) : Host.Outcome State Fault Refusal :=
  match (s.inp n).onSince with
  | none => doneSettled s
  | some t =>
    if (s.inRec n).ossd && (s.inp n).hold0 && (s.inp n).raw && s.past t (2 * (s.inRec n).ow) then
      doneSettled ((s.updInp n (fun i => { i with hold0 := false, q := i.raw })).afterQual n)
    else doneSettled s

/-- A 1 ms measurement of the sink current: three below the threshold are WIRE_BREAK, three above it clear the code
(R131, R143). It is made while the raw level is OFF or the code is held, outside the input's windows. -/
def execWireBreakMeasurement (n : Fin 128) (below : Bool) (s : State) : Host.Outcome State Fault Refusal :=
  let i := s.inp n
  let due := match i.wbAt with | none => true | some t => s.past t (ms 1)
  if (s.inRec n).wb && !i.inWin && (!i.raw || i.code == 5) && due && !s.inputOut n then
    let s := s.updInp n (fun i =>
      if below then { i with wbAt := some s.now, wbLow := min 3 (i.wbLow + 1), wbHigh := 0 }
      else { i with wbAt := some s.now, wbHigh := min 3 (i.wbHigh + 1), wbLow := 0 })
    let s := s.when (decide ((s.inp n).wbLow ≥ 3)) (fun s => s.raiseIn n 5)
    let s := s.when ((s.inp n).code == 5 && decide ((s.inp n).wbHigh ≥ 3)) (fun s => s.clearIn n)
    doneSettled (s.afterQual n)
  else doneSettled s

/-- The discrepancy timer of a pair expires in WAIT_ON or WAIT_OFF (R133). -/
def execDiscTimerExpiry (p : Fin 64) (s : State) : Host.Outcome State Fault Refusal :=
  if s.discDue p then doneSettled (s.evalPair p) else doneSettled s

/-- A 20 µs probe of an input's sink, every 10 s on an input with no edge, and after a unit reset of the input: a current outside
R114 is SINK_FAULT; a passed probe after the reset clears it and puts the input back in service (R12, R143). -/
def execSinkProbe (n : Fin 128) (sinkOk : Bool) (s : State) : Host.Outcome State Fault Refusal :=
  let i := s.inp n
  let retest := i.code == 9 && i.armClr
  if !retest && !s.past i.edgeAt (secs 10) then doneSettled s
  else
    let s := s.updInp n (fun i => { i with edgeAt := s.now })
    if !sinkOk then doneSettled ((s.updInp n (fun i => { i with armClr := false })).raiseIn n 9 |>.afterQual n)
    else if retest then doneSettled (((s.clearIn n).putBack (siteInput n)).resumeInput n)
    else doneSettled (s.afterQual n)

/-- A deferred change of KIND or pairing takes effect with the pair in state OFF, with a record INPUT_APPLIED (R137). -/
def execInputApplied (p : Fin 64) (s : State) : Host.Outcome State Fault Refusal :=
  match (s.pair p).deferred with
  | none => doneSettled s
  | some (e, o, c) =>
    if (s.pair p).st = .off then
      let s := (s.updPair p (fun r => { r with deferred := none })).putInputs p.val e o
      doneSettled (s.cellRec 11 c (BitVec.ofNat 32 (siteInput (2 * p.val) + 4096 * s.modAddr)))
    else doneSettled s

/-! ### Encoders -/

/-- Movement of the count at an edge: 1 where A leads B, -1 where B leads A (R138). -/
def quadrature (a b a' b' : Bool) : Int :=
  if a != a' then (if a' != b then 1 else -1) else if b != b' then (if b' == a then 1 else -1) else 0

/-- The kind of an edge: 0 A rising, 1 A falling, 2 B rising, 3 B falling (R142). -/
def edgeKind (a a' b' : Bool) : Nat := if a != a' then (if a' then 0 else 1) else (if b' then 2 else 3)

/-- The direction flag changes when the count has moved two counts against it from its last extreme; a change starts the
period anew (R139, R140). -/
def Encoder.direct (r : Encoder) (d : Int) : Encoder :=
  let down := decide (d < 0)
  if down = r.dir then { r with back := r.back - 1 }
  else if r.back + 1 ≥ 2 then { r with dir := down, back := 0, period := 0xFFFFFFFF#32, edgeAt := [] }
  else { r with back := r.back + 1 }

/-- The period at an edge counted in the present direction (R140). -/
def Encoder.time (r : Encoder) (d : Int) (k now : Nat) : Encoder :=
  if decide (d < 0) = r.dir then
    match Tab.get none (r.edgeAt.map (fun e => (e.1, some e.2))) k with
    | none => { r with edgeAt := Tab.ins (Tab.drop r.edgeAt k) k now }
    | some t =>
      let p := (now + (2 ^ 64 - t % 2 ^ 64)) % 2 ^ 64
      { r with edgeAt := Tab.ins (Tab.drop r.edgeAt k) k now, period := BitVec.ofNat 32 (min p 0xFFFFFFFF), perAt := t }
  else r

/-- Two edges of this tick and one at t lie less than d ns apart. -/
def State.closer (s : State) (t : Option Nat) (d : Nat) : Bool :=
  match t with
  | none => false
  | some t => decide (s.since t < d)

/-- The levels of an encoder's inputs as the Colander receives them (R13, R144). -/
def State.encLines (s : State) (e : Nat) (a b : Bool) : State :=
  let put := fun (s : State) (n : Nat) (v : Bool) => s.updInp n (fun i => { i with line := v, raw := v && !s.inputOut n, edgeAt := s.now })
  put (put s (encInputA e) a) (encInputA e + 1) b

/-- An edge at encoder interface e: count, direction and period follow (R138 to R140); an implausible or too fast edge
raises its fault (R141), a selected event is captured (R142). Where A and B change together the count is not decodable:
it takes a free value. Which input of the interface takes a code is a DESIGN CHOICE: input B takes ENC_PLAUS at an edge of B
and input A otherwise, input A takes ENC_RATE at an edge of A and input B otherwise. -/
def execEncoderEdge (e : Fin 8) (a b : Bool) (s : State) : Host.Outcome State Fault Refusal :=
  let a := a && !s.inputOut (encInputA e)
  let b := b && !s.inputOut (encInputA e + 1)
  let s := s.encLines e a b
  let r := s.enc e
  let da := r.a != a
  let db := r.b != b
  if !s.encActive e || (!da && !db) then doneSettled (s.updEnc e (fun r => { r with a := a, b := b }))
  else
    let inA := encInputA e
    let together := da && db
    let plaus := together || (da && s.closer r.lastB 400) || (db && s.closer r.lastA 400)
    let rate := (da && s.closer r.lastA 1500) || (db && s.closer r.lastB 1500)
    let s := if together then
        let (w, s) := s.takeWord
        s.updEnc e (fun r => { r with count := w, edgeAt := [], period := 0xFFFFFFFF#32 })
      else
        let d := quadrature r.a r.b a b
        let k := edgeKind r.a a b
        s.updEnc e (fun r =>
          let r := ({ r with count := r.count + BitVec.ofInt 32 d }.direct d).time d k s.now
          let seen := setBit r.seen k true
          if r.rearm && seen == 0xF#4 && !plaus && !rate then { r with valid := true, rearm := false, seen := 0 }
          else { r with seen := if r.rearm then seen else r.seen })
    let s := s.updEnc e (fun r => { r with a := a, b := b, lastA := if da then some s.now else r.lastA,
                                           lastB := if db then some s.now else r.lastB })
    let cfg := Tab.get {} s.cfg.caps e
    let s := s.when (da && bit cfg.events (if a then 0 else 1)) (fun s => s.capture e (if a then 0 else 1))
    let s := s.when (db && bit cfg.events (if b then 2 else 3)) (fun s => s.capture e (if b then 2 else 3))
    let s := s.when plaus (fun s => s.encFault e 0 (if db then inA + 1 else inA))
    let s := s.when rate (fun s => s.encFault e 1 (if da then inA else inA + 1))
    doneSettled s

/-- A read of CAP_LO_e: the consumer's read returns the head's stamp, latches the rest in the reading party's latch and removes
the entry; any other read latches an entry marked invalid (R142, R144, R145, R492). DESIGN CHOICE: the code CAP_OVF, which does
not latch, leaves IN_CODE at the consumer's next read. -/
def execCapLoRead (e : Fin 8) (p : CapReader) (s : State) : Host.Outcome State Fault Refusal :=
  let mine := match p, (Tab.get {} s.cfg.caps e).consumer with
    | .host, none => true
    | .cell c, some d => c.val == d
    | _, _ => false
  let put := fun (r : Encoder) (h : Option CapE) => match p with
    | .host => { r with latch := h }
    | .cell c => { r with cellLatch := Tab.put none r.cellLatch c.val h }
  match (s.enc e).queue, mine with
  | h :: rest, true =>
    let s := s.updEnc e (fun r => { put r (some h) with queue := rest })
    let s := s.when ((s.inp (encInputA e)).code == 15) (fun s => s.clearIn (encInputA e))
    doneSettled (s.ret (h.stamp.extractLsb' 0 32) (h.stamp.extractLsb' 32 32))
  | _, _ => doneSettled ((s.updEnc e (fun r => put r none)).ret 0)

end Sys2Proof.Machine
end

