-- ==== Sys2Proof/Machine/LoadStore.lean ====
section
/-! DEFINITION. Damuno's loads, stores and output requests (R246, R247, R250, R277, R278). -/

namespace Sys2Proof.Machine

/-- A load at gs + sext(imm). -/
def insLoad (rd rs : Nat) (imm : Half) (width : Nat) (signed : Bool) : Ins :=
  { act := fun x => .load rd signed (x.gr rs + sextI imm) width }
/-- A store at gs + sext(imm). -/
def insStore (rs : Nat) (imm : Half) (width : Nat) (data : Engine → Word) (orq : Bool := false) : Ins :=
  { act := fun x => .store orq (x.gr rs + sextI imm) width (data x) }

/-- LDW (R250). -/
def execLdw (e : Fin 64) (rd rs : Fin 32) (imm : Half) (s : State) : Host.Outcome State Fault Refusal :=
  doneSettled (s.issue e.val (insLoad rd.val rs.val imm 4 false))
/-- LDH (R250). -/
def execLdh (e : Fin 64) (rd rs : Fin 32) (imm : Half) (s : State) : Host.Outcome State Fault Refusal :=
  doneSettled (s.issue e.val (insLoad rd.val rs.val imm 2 true))
/-- LDHU (R250). -/
def execLdhu (e : Fin 64) (rd rs : Fin 32) (imm : Half) (s : State) : Host.Outcome State Fault Refusal :=
  doneSettled (s.issue e.val (insLoad rd.val rs.val imm 2 false))
/-- LDB (R250). -/
def execLdb (e : Fin 64) (rd rs : Fin 32) (imm : Half) (s : State) : Host.Outcome State Fault Refusal :=
  doneSettled (s.issue e.val (insLoad rd.val rs.val imm 1 true))
/-- LDBU (R250). -/
def execLdbu (e : Fin 64) (rd rs : Fin 32) (imm : Half) (s : State) : Host.Outcome State Fault Refusal :=
  doneSettled (s.issue e.val (insLoad rd.val rs.val imm 1 false))
/-- STW (R250). -/
def execStw (e : Fin 64) (rd rs : Fin 32) (imm : Half) (s : State) : Host.Outcome State Fault Refusal :=
  doneSettled (s.issue e.val (insStore rs.val imm 4 (fun x => x.gr rd.val)))
/-- STH (R250). -/
def execSth (e : Fin 64) (rd rs : Fin 32) (imm : Half) (s : State) : Host.Outcome State Fault Refusal :=
  doneSettled (s.issue e.val (insStore rs.val imm 2 (fun x => x.gr rd.val)))
/-- STB (R250). -/
def execStb (e : Fin 64) (rd rs : Fin 32) (imm : Half) (s : State) : Host.Outcome State Fault Refusal :=
  doneSettled (s.issue e.val (insStore rs.val imm 1 (fun x => x.gr rd.val)))
/-- ORQ (R250, R277). -/
def execOrq (e : Fin 64) (rd rs : Fin 32) (imm : Half) (s : State) : Host.Outcome State Fault Refusal :=
  doneSettled (s.issue e.val (insStore rs.val imm 4 (fun x => x.gr rd.val) true))
/-- ORK (R250, R277). -/
def execOrk (e : Fin 64) (rd rs : Fin 32) (imm : Half) (s : State) : Host.Outcome State Fault Refusal :=
  doneSettled (s.issue e.val (insStore rs.val imm 4 (fun x => ofBool (x.kr rd.val)) true))

end Sys2Proof.Machine
end

