-- ==== Sys2Proof/Machine/StartUp.lean ====
section
/-! DEFINITION. What a reset leaves (R26, R491), fault stop (R467), and the start-up sequence S1 to S11 (R464 to R468) with
the choice of a bank (R416) and the loading of cells (R44, R45, R64, R136). -/

namespace Sys2Proof.Machine

/-! ### Resets -/

/-- What a reset leaves of the store: its contents, and the role records kept in them; a lockout that had not ended begins again in
full; the log's newest entry gives the lost-entry counter (R426, R427, R431). -/
def Store.kept (t : Store) : Store :=
  let role := fun (r : RoleS) => { r with sess := none, chk := none, freedAt := none,
                                          lockT := if r.locked then lockTicks (r.level - 1) else 0 }
  let quiet := fun (k : BankS) => { k with fresh := [], extent := 0 }
  { bank0 := quiet t.bank0, bank1 := quiet t.bank1, checkAt := t.checkAt, maint := role t.maint, safety := role t.safety, gen := t.gen,
    credBad := t.credBad, log := t.log, next := t.next, stby := t.stby, pendC := t.pendC,
    lostN := match t.log.getLast? with | some e => e.lost | none => 0 }

/-- A store operation in progress is cut, and the log writer's buffer is lost (R414, R433). -/
def State.cutStore (s : State) : State :=
  let s := s.when s.store.holder.isSome (fun s => s.storeDone .cut)
  { s with store := { s.store with buf := [], works := [], holder := none } }

/-- A reset of every die but the retention island and the power die's supervisors (R23, R26, R491): every register at its
reset value. TB's count, INC, which only the discipline changes (R82), the power die's causes and levels, the levels on the
input balls, the fuses, the store's contents and the TAP stay. -/
def State.cleared (s : State) : State :=
  let s := s.cutStore
  let r := State.reset
  { r with
    pending := s.pending, fresh := s.fresh, port := s.port, rd := s.rd,
    pwr := { s.pwr with evt := 0, dips := 0, fail := false },
    clk := { lfOk := s.clk.lfOk, ppm := s.clk.ppm },
    tb := { r.tb with tb := s.tb.tb, frac := s.tb.frac, inc := s.tb.inc, unset := s.tb.unset },
    ins := Tab.mapVal {} (fun i => { line := i.line }) s.ins,
    encs := Tab.mapVal {} (fun e => { a := e.a, b := e.b }) s.encs,
    mems := Tab.mapVal {} (fun m => { fuses := m.fuses, spares := BitVec.ofNat 8 (min 24 m.fuses.toNat) }) s.mems,
    hif := { perstn := s.hif.perstn },
    store := s.store.kept,
    bist := { hold := s.bist.hold, tap := s.bist.tap } }

/-- Fault stop (R467): every region held in reset, no cell loaded; `step` is the step whose failure caused it, 0 in service. -/
def State.faultStop (s : State) (step : Nat) : State :=
  let s := s.availStop
  { s with pwr := { s.pwr with phase := .faultStop }, sys := { s.sys with failStep := BitVec.ofNat 4 step, refreshA := false, refreshB := false },
           engs := [], epairs := [], regions := 0, ho := {}, lid := { s.lid with armA := 0, armB := 0, relA := 0, relB := 0 },
           cells := Tab.mapVal {} (fun x => { avail := x.avail }) s.cells }

/-- A step of the start-up has ended (R495). -/
def State.stepDone (s : State) (i : Nat) : State := { s with sys := { s.sys with done := setBit s.sys.done (i - 1) true } }

/-! ### S1 to S3 -/

/-- The causes kept by the power die are recorded once: a rail, an overtemperature, a power failure, a clock fault (R441, R444,
R447, R496). -/
def State.keptCauses (s : State) : State :=
  let p := s.pwr
  let s := match p.rail with
    | some r => s.record { src := 12, code := 1, site := sitePower 2, d6 := BitVec.ofNat 32 r.n, startup := true }
    | none => s
  let s := s.when p.otKept (fun s => s.record { src := 12, code := 2, site := sitePower 2, startup := true })
  let s := s.when p.pfKept (fun s => s.record { src := 12, code := 5, site := sitePower 1, startup := true })
  let s := s.when (p.clkKept != 0) (fun s =>
    s.record { src := 9, code := 1, site := siteSpine 0 0 2, d6 := p.clkKept.zeroExtend 32, startup := true })
  { s with pwr := { s.pwr with rail := none, otKept := false, pfKept := false, clkKept := 0 } }

/-- Spine units of the smallest working set, banks apart (R43). -/
def smallestSet (site : Nat) : Bool :=
  decide (siteSpine 0 0 0 ≤ site) && decide (site ≤ siteSpine 0 0 5) || decide (siteSpine 0 3 0 ≤ site) && decide (site ≤ siteSpine 0 3 3)

/-- The spine units among the sites that S3 reports: no other site is one (R35, R38). -/
def spineUnits (l : List Half) : List Half :=
  l.filter (fun h => h.toNat / 512 % 8 == 1 && unitValid (h.toNat % 4096))

/-- Spine units that fail S3: each is recorded and out of service alone (R12, R467, R478). -/
def State.spineFails (s : State) (l : List Half) : State :=
  ((spineUnits l).foldl (fun s h =>
    let site := h.toNat % 4096
    let s := (s.bistEntry site 7 false false 0).bistEvt 0
    (s.record { src := 13, code := 7, site := site, startup := true }).takeOut site 7) s).bistRan 4 (if spineUnits l = [] then 1 else 3)

/-- No bank has its Colander slice and lane group (R43, R467). -/
def State.noBankPath (s : State) : Bool :=
  (List.range 4).all (fun b => s.isOut (siteSpine 1 b 0) || s.isOut (siteSpine 1 b 3))

/-! ### S4, S5: Lids and banks -/

/-- A Lid that fails its injection test (R202, R203, R478). -/
def State.lidFails (s : State) (x : AB) : State :=
  let s := (s.bistEntry (siteSpine 0 3 x.n) 11 false false 0).bistEvt 0
  (s.record { src := 13, code := 11, site := siteSpine 0 3 x.n, startup := true }).lidFaulty x

/-- What the bank start-up test finds of a unit of a bank that has no test of R184: it is out of service with the code reported,
and a record flagged as start-up (R143, R183); a half takes everything of its own with it (R13). A site that is no such unit is no
report (R38). The input shows the code once its record is loaded (R136). -/
def State.fieldItem (s : State) (i : BistItem) : State :=
  let site := i.site.toNat % 4096
  let code := i.code.toNat
  let b := site / 512 - 4
  let q := site / 128 % 4
  let input := site / 32 % 4 == 0 && decide (q ≤ 1)
  if code = 0 ∨ site / 512 < 4 ∨ unitValid site = false then s
  else if q ≤ 1 ∧ site / 32 % 4 = 3 ∧ site % 32 = 3 then
    (s.halfDown b (if q = 0 then .a else .b) (quiet := true)).record { src := 2, code := 15, site := site, level := 2, startup := true }
  else
    (s.takeOut site code).record { src := if input then 1 else 13, code := code, site := site, d6 := i.detail, startup := true }

/-- Banks with VF applied enter service; any other is out of service until its VF recovers, with one record at the level of its
die (R13, R183, R438). -/
def State.startBanks (s : State) (vf : BitVec 4) : State :=
  s.each 4 (fun s b =>
    if bit vf b then s.updBank b (fun k => { k with vf := true })
    else
      let low := fun (h : AB) (s : State) => (s.updHalf b h (fun f => { f with vfLow := true })).halfDown b h (quiet := true)
      (low .b (low .a s)).record { src := 2, code := 15, site := siteBank b 0 0 0, level := 3, startup := true })

/-- The start-up tests of the banks with VF (R184). -/
def State.testBanks (s : State) (vf : BitVec 4) (els : List ElTest) (tps : List TpTest) : State :=
  s.each 4 (fun s b => s.when (bit vf b) (fun s => s.bankTests b els tps))

/-! ### S6: regions -/

/-- The wakes of Q0 to Q3 in ascending order, then the four region BIST runs in ascending order, as the Ladle grants them (R454 to
R456, R468): two run at once, and the end of each lets the next begin. DESIGN CHOICE: time passes for the Ladle only as far as a
request waits for its tokens. -/
def State.bookRegions (s : State) : State :=
  let s := s.each 4 (fun s q => s.wakeRegion q)
  let s := (s.beginTest 0).beginTest 1
  let s := (s.endTest 0).beginTest 2
  let s := (s.endTest 1).beginTest 3
  (s.endTest 2).endTest 3

/-- Regions that pass are powered and in service; any other is out of service, recorded once at the level of the region (R19, R30,
R467, R468). -/
def State.startRegions (s : State) (up : BitVec 4) (items : List BistItem) : State :=
  let s := { s.bookRegions with regions := up }
  s.each 4 (fun s q =>
    let mine := items.filter (fun i => i.site.toNat % 4096 / 128 == q)
    if bit up q then
      let s := s.each 16 (fun s e => s.updEng (16 * q + e) (fun x => { x with tested := s.now }))
      (s.bistItems q true mine).bistRan q (bistOutcome mine)
    else
      let s := mine.foldl (fun s i => s.bistItem q true true i) s
      let s := s.when (!mine.any (fun i => itemIsolates i q)) (fun s =>
        ((s.takeOut (siteRegion q) 4).bistEvt 0).record { src := 13, code := 4, site := siteRegion q, level := 2, startup := true })
      s.bistRan q 3)

/-- The boot engine: SE(16q) of the lowest region that passes, or the next one of it (R44). DESIGN CHOICE: where no engine of that
region passes there is no boot engine, no other region is looked at, and the module enters service all the same. -/
def State.bootEngine (s : State) : Option Nat :=
  match (List.range 4).find? s.regionUp with
  | none => none
  | some q => ((List.range 16).map (fun i => 16 * q + i)).find? (fun e => !s.isOut (siteEngine e))

/-! ### S7: the bank (R416) -/

/-- Order in which the banks are checked: descending SEQ, unreadable headers last, bank 0 first among equals. -/
def Store.bankOrder (t : Store) : List Bool :=
  let key := fun (b : Bool) => let k := if b then t.bank1 else t.bank0; if k.hcrcOk b then k.hdr.seq.toNat else 0
  if key true > key false then [true, false] else [false, true]

/-- Banks are checked in order up to the first valid one; each that fails is recorded, logged and skipped. -/
def State.chooseBank (s : State) : List Bool → State
  | [] => { s with store := { s.store with win := none } }
  | b :: rest =>
    let check := (s.storeBank b).failing b
    if check = 0 then { s with store := { s.store with win := some b } }
    else
      let n : Word := BitVec.ofNat 32 b.toNat
      let s := (s.storeEvt 6).record { src := 15, code := 1, site := siteStore 0, d6 := n, d7 := BitVec.ofNat 32 check, startup := true }
      (s.log { kind := 0x15, d12 := n, d13 := BitVec.ofNat 32 check }).chooseBank rest

/-- Credentials at start-up: with neither copy valid the factory records, FAILS and LEVEL 0, a record and new copies (R426). -/
def State.startCreds (s : State) : State :=
  if s.store.credBad = 3 then
    let fresh := fun (x : RoleS) => { x with cred := { x.cred with factory := true }, fails := 0, level := 0, locked := false }
    let s := (s.updRole .maintenance fresh).updRole .safetyEngineer fresh
    let s := s.record { src := 15, code := 3, site := siteStore 0, startup := true }
    s.addWork { q := 0, d := none, jobs := [.credA, .credB], code := 1, res0 := 0 }
  else s

/-! ### S10: the configuration -/

/-- The store's part of S10: the winning image is loaded; COMMIT_LOST and START entries (R418, R430, R433). -/
def State.loadConfig (s : State) : State :=
  let img := s.committed
  let lost := match s.store.pendC with
    | some q => if s.winSeq = q then none else some q
    | none => none
  let s := match lost with
    | some q => s.log { kind := 0x14, bankSeq := q }
    | none => s
  let s := { s with store := { s.store with pendC := none } }
  let s := s.log { kind := 0x11, bankSeq := s.winSeq,
                   d12 := atBit 32 0 (!s.store.stby) ||| atBit 32 1 s.store.win.isNone }
  if s.store.win.isNone then { s with sys := { s.sys with noBank := true } }
  else { s with cfg := img, loaded := true, cfgSeq := s.winSeq }

/-- The spine's tables as the configuration sets them: inputs in their safe direction (R136), owner slots, trip terms raised
and masks (R191, R193, R291), groups in STO (R321), and the schedule of each bank (R157, R158). -/
def State.loadTables (s : State) : State :=
  let s := s.each 128 (fun s n => if (s.inRec n).kind = 0 then s else s.loadInput n)
  let s := s.each 64 (fun s p => s.loadPair p)
  let s := s.cfg.cells.foldl (fun s e => s.takeSlots e.1 e.2) s
  let s := s.loadMasks
  s.each 16 (fun s g => s.when (bit (s.grpW g 0) 0) (fun s => s.updGrp g (fun _ => { st := .sto, cause := 9, reqAt := s.now })))

/-- A schedule of a bank is armed for the next minor-frame boundary (R157, R158). -/
def State.armSchedule (s : State) (b : Nat) : State :=
  match s.boundary (fun _ => true) with
  | none => s
  | some x =>
    s.arm s.freeChan (fun c => { c with lo := BitVec.ofNat 32 x, hi := BitVec.ofNat 32 (x / 2 ^ 32), act := 5, use := .bank b,
                                        cell := none, newV := false, shared := false })

/-- FiminLink begins to listen where the configuration enables it (R377). -/
def State.startRing (s : State) : State :=
  let s := s.when (s.loaded && s.cfg.flkEn && !s.isOut (siteSpine 0 0 8)) (fun s => s.setRole .listen)
  s.setReference s.modAddr

/-! ### S11: cells (R44, R45, R64) -/

/-- The unit that keeps a version from being loaded: an engine assigned to it, or a channel that it owns (R45, R64). -/
def State.missingUnit (s : State) (v : CellImg) (c : Nat) : Option Nat :=
  let engs := if v.onPair then [v.eng, v.eng + 1] else [v.eng]
  let cl := v.eng / 4
  let region := if s.regionUp (v.eng / 16) then [] else [siteRegion (v.eng / 16)]
  let units := engs.map siteEngine ++ [siteCluster cl 4, siteCluster cl 5]
  let ins := ((List.range 128).filter (fun n => v.ownIn n && s.inputOut n)).map siteInput
  let outs := v.outs.flatMap (fun o => ([AB.a, AB.b].filter (fun x => s.elOut o x || s.halfOut (o / 16) x || !s.laneUp o x)).map (siteElement o))
  let encs := ((List.range 8).filter (fun e => (Tab.get {} s.cfg.caps e).owner == some c)).map (fun e => siteSpine 1 (e / 2) (1 + e % 2))
  (region ++ units.filter s.isOut ++ ins ++ outs ++ encs.filter s.isOut).head?

/-- The engines of a place take their roles: the pair, formed by its start-up tests, or the single (R207, R228). -/
def State.takePlace (s : State) (e : Nat) (onP : Bool) : State :=
  if onP then
    if (s.eng e).role = .idle ∧ (s.eng (e + 1)).role = .idle then
      let s := (s.updEng e (fun x => x.released .leader)).updEng (e + 1) (fun x => x.released .follower)
      (s.updEPair (e / 2) (fun p => { p with formed := true })).refreshPair (e / 2)
    else s
  else s.wakeSingle e onP

/-- A cell of the configuration is loaded at its place, or stays unloaded and is reported (R45, R64, R529). -/
def State.startCell (s : State) (c : Nat) (v : CellImg) : State :=
  let s := s.updCell c (fun x => { x with eng := v.eng, onP := v.onPair })
  match s.missingUnit v c with
  | some site => s.cellRec 9 c (BitVec.ofNat 32 (site + 4096 * s.modAddr))
  | none =>
    let s := s.takePlace v.eng v.onPair
    match s.findPlace v (v.eng / 4) true with
    | some (sl, cb, sb) => s.loadCell c v v.eng v.onPair sl cb sb
    | none => s.cellRec 9 c (BitVec.ofNat 32 (siteCluster (v.eng / 4) 4 + 4096 * s.modAddr))

/-- S11 and its end: cells loaded, the module in service, schedules armed, availability counted for cells left unloaded, and
host silence judged (R69, R408, R465). -/
def State.enterService (s : State) : State :=
  let s := s.each 64 (fun s e => s.when (s.regionUp (e / 16)) (fun s => s.loadRuntime e))
  let s := s.cfg.cells.foldl (fun s e => s.startCell e.1 e.2) s
  let s := s.stepDone 11
  let s := { s with pwr := { s.pwr with phase := .service }, bist := { s.bist with runAt := s.now }, sys := { s.sys with refreshA := true, refreshB := true } }.sysEvt 2
  let s := s.availSweep
  let s := s.when s.loaded (fun s => s.each 4 (fun s b => s.armSchedule b))
  let s := s.each 64 (fun s p => s.requalify p)
  { s with hif := { s.hif with lastW := s.now } }.checkSilence

/-! ### START_UP -/

/-- S10 and S11: the configuration, then the lock; unlocked, the module waits for it (R466). -/
def State.startConfig (s : State) (lock : Bool) : State :=
  let s := { s with pwr := { s.pwr with s10At := s.now } }.loadConfig
  let s := if s.loaded then s.loadTables else s
  let s := s.startRing
  let wait := s.loaded && s.cfg.flkEn
  let s := s.when (wait && lock) (fun s => s.setLock true)
  if wait && !lock then { s with pwr := { s.pwr with phase := .waitLock } }.checkSilence
  else (s.stepDone 10).enterService

/-- The steps of R464 on what the tests find; the first failure of R467 ends in fault stop. -/
def State.startUp (s : State) (o : StartObs) : State :=
  let link := s.hif.linkUp
  let s := s.cleared
  let s := { s with hif := { s.hif with linkUp := link }, clk := { s.clk with pllLock := true, refOk := true },
                    bist := { s.bist with conds := true } }
  let s := ((s.keptCauses).stepDone 1).stepDone 2
  let s := s.spineFails o.spine
  let s := s.when (s.isOut (siteSpine 0 0 7)) (fun s => { s with hif := { s.hif with linkUp := false } })
  if (spineUnits o.spine).any (fun h => smallestSet (h.toNat % 4096)) || s.noBankPath then s.faultStop 3
  else
    let s := s.stepDone 3
    if o.lidA || o.lidB then
      let s := s.when o.lidA (fun s => s.lidFails .a)
      (s.when o.lidB (fun s => s.lidFails .b)).faultStop 4
    else
      let s : State := o.field.foldl (fun (s : State) i => s.fieldItem i) ((s.stepDone 4).startBanks o.vf)
      let s : State := (s.testBanks o.vf o.elements o.sources).stepDone 5
      let s : State := s.startRegions o.regions o.items
      if s.regions = 0 then s.faultStop 6
      else
        let s := { s with sys := { s.sys with boot := s.bootEngine } }.stepDone 6
        if o.storeLost then
          let s := { s with store := { s.store with lost := true } }.bistRan 5 3
          (s.record { src := 15, code := 4, site := siteStore 0, level := 3, startup := true }).faultStop 7
        else
          let s := ((s.bistRan 5 1).startCreds.chooseBank s.store.bankOrder).stepDone 7
          let s := (s.stepDone 8).stepDone 9
          if s.bist.hold then
            { s with pwr := { s.pwr with phase := .bootHold }, bist := { s.bist with hold := false, inHold := true },
                     store := { s.store with win := none } }.checkSilence
          else s.startConfig o.lock

/-- START_UP (R464): while a start-up is due. -/
def execStartUp (obs : StartObs) (s : State) : Host.Outcome State Fault Refusal :=
  if s.pwr.phase = .starting then doneSettled (s.startUp obs) else .next s

/-- The module has locked while S10 waits for it: the start-up goes on (R466). -/
def State.lockedLoad (s : State) : State :=
  if s.pwr.phase = .waitLock ∧ s.tb.lock = true then ((s.stepDone 10).enterService).settle else s

/-- UNLOCKED_LOAD (R466): still unlocked 10 s after S10 began, the cells are loaded without lock, with a record. -/
def execUnlockedLoad (s : State) : Host.Outcome State Fault Refusal :=
  if s.pwr.phase = .waitLock ∧ s.tb.lock = false ∧ s.past s.pwr.s10At (secs 10) = true then
    let s := s.record { src := 9, code := 4, site := siteSpine 0 0 0 }
    doneSettled ({ s with sys := { s.sys with unlocked := true } }.stepDone 10).enterService
  else .next s

end Sys2Proof.Machine
end

