-- ==== Sys2Proof/Machine/Power.lean ====
section
/-! DEFINITION. Supplies, the Trivet, RSTN, standby, the clock generator and the module debug halt (R26, R72, R73, R78, R92, R93,
R437 to R452, R471, R526, R528). -/

namespace Sys2Proof.Machine

/-- The converter runs: neither off nor in standby (R440). -/
def Phase.powered : Phase → Bool | .off | .standby => false | _ => true

/-- The spine's clocks run and its monitors report (R78). -/
def State.spineRuns (s : State) : Bool := s.pwr.phase.hostUp && !s.sys.coreLost

/-- An event bit of PWR_STAT: DIP, OV, OT, STBY_REF, HOLD (R461). -/
def State.pwrEvt (s : State) (i : Nat) : State :=
  { s with pwr := { s.pwr with evt := setBit s.pwr.evt i true } }.mark 0x0800 (16 + i)
/-- A bit of CLK_STAT [18:16] sets: 0 LOCK, 1 REF, 2 LF (R496). -/
def State.clkEvt (s : State) (i : Nat) : State :=
  { s with clk := { s.clk with evt := setBit s.clk.evt i true } }.mark 0x0400 (16 + i)

/-- A reset has acted: start-up begins, or waits for RSTN or the end of an overtemperature reset (R26, R444, R526). -/
def State.afterReset (s : State) : State :=
  { s with pwr := { s.pwr with phase := if s.pwr.rstn && !s.pwr.otHold then .starting else .reset, railsAt := s.now, holdRep := false } }

/-- A power-fail reset after which the supply is good: it acts as RSTN does and restarts (R441, R444, R447). -/
def State.powerReset (s : State) : State := ({ s.cleared with pwr := { s.cleared.pwr with start := 1 } }).afterReset

/-! ### VSYS (R437, R446 to R448) -/

/-- VSYS_START_THRESHOLD (R437, R448): the converter starts and a start-up begins; in standby only a stored wake does. -/
def execVsysStartThreshold (s : State) : Host.Outcome State Fault Refusal :=
  let t : State := { s with pwr := { s.pwr with vsysOk := true, dip := s.pwr.dip && s.pwr.fail } }
  match s.pwr.phase with
  | .off =>
    let t : State := { t with pwr := { t.pwr with start := if s.pwr.pfKept then 1 else 0 }, tb := { t.tb with lfRun := false } }
    doneSettled t.afterReset
  | .standby =>
    if s.pwr.wake then
      doneSettled ({ t with pwr := { t.pwr with wake := false }, tb := { t.tb with lfRun := false } }).afterReset
    else doneSettled t
  | _ => doneSettled t

/-- VSYS_HOLD_UP_CROSSING (R437, R446, R73): SAFE_OK goes low, the converter runs from HOLD. -/
def execVsysHoldUpCrossing (s : State) : Host.Outcome State Fault Refusal :=
  doneSettled { s with pwr := { s.pwr with vsysOk := false, dip := s.pwr.phase.powered, dipAt := if s.pwr.dip then s.pwr.dipAt else s.now } }

/-- VSYS has been below the hold-up threshold for 100 µs (R447). -/
def State.dipOver (s : State) : Bool := s.pwr.dip && !s.pwr.fail && s.past s.pwr.dipAt 100000

/-- A power failure (R447): no further store grant; the log writer stops and its buffer is lost, but for a page that is being
programmed; an erase in progress is aborted, a page program completes. -/
def State.powerFails (s : State) : State :=
  let kept := if s.store.holder = some 1 ∧ s.store.op = .program then s.store.logN else 0
  let s := { s with pwr := { s.pwr with fail := true }, store := { s.store with buf := s.store.buf.take kept } }
  s.when (s.store.op == .eraseSector || s.store.op == .eraseBlock) (fun s =>
    let s := s.storeDone .cut
    { s with store := { s.store with buf := [] } })

/-- DIP_RIDE_THROUGH (R446): the dip ended within 100 µs; one that reaches 100 µs as VSYS rises is a power failure (R460). -/
def execDipRideThrough (s : State) : Host.Outcome State Fault Refusal :=
  if s.dipOver then doneSettled { s with pwr := { s.pwr with vsysOk := true } }.powerFails
  else if s.pwr.dip && !s.pwr.fail then
    doneSettled ({ s with pwr := { s.pwr with dip := false, vsysOk := true, dips := satInc s.pwr.dips } }.pwrEvt 0)
  else .next s

/-- POWER_FAILURE (R447): VSYS has stayed below the hold-up threshold for 100 µs. -/
def execPowerFailure (s : State) : Host.Outcome State Fault Refusal :=
  if s.pwr.phase.powered && s.dipOver then doneSettled s.powerFails else .next s

/-- POWER_FAIL_RESET (R447, R448): once the store die is idle; the converter stops unless VSYS is back. -/
def execPowerFailReset (s : State) : Host.Outcome State Fault Refusal :=
  if s.pwr.fail && s.store.holder.isNone then
    let back := s.pwr.vsysOk
    let t := s.cleared
    let t : State := { t with pwr := { t.pwr with pfKept := true, dip := false, phase := .off }, tb := { t.tb with lfRun := !back } }
    doneSettled (if back then ({ t with pwr := { t.pwr with start := 1 } }).afterReset else t)
  else .next s

/-- OVERVOLTAGE_EVENT (R437): nothing is switched. -/
def execOvervoltageEvent (s : State) : Host.Outcome State Fault Refusal :=
  if s.pwr.phase.powered then doneSettled (s.pwrEvt 1) else .next s

/-- RAIL_OUT_OF_WINDOW (R441): a power-fail reset with the cause kept, and a restart. -/
def execRailOutOfWindow (r : Rail) (s : State) : Host.Outcome State Fault Refusal :=
  if s.pwr.phase.powered then
    let t := s.powerReset
    doneSettled { t with pwr := { t.pwr with rail := some r } }
  else .next s

/-! ### Core-die temperature (R444): coded as °C + 64 (R461) -/

/-- CORE_OVERTEMPERATURE (R444): OT from 125 °C; at 140 °C a power-fail reset that is held. -/
def execCoreOvertemperature (t : Byte) (s : State) : Host.Outcome State Fault Refusal :=
  if s.pwr.phase.powered then
    let hot := decide (189 ≤ t.toNat)
    let s := s.when (hot && !s.pwr.ot) (fun s => s.pwrEvt 2)
    let s : State := { s with pwr := { s.pwr with mTemp := t, ot := hot } }
    if 204 ≤ t.toNat then
      let u := { s with pwr := { s.pwr with otHold := true, otKept := true } }.powerReset
      doneSettled u
    else doneSettled s
  else .next s

/-- CORE_TEMPERATURE_FALL (R444): OT clears below 125 °C, the held reset ends below 115 °C. -/
def execCoreTemperatureFall (t : Byte) (s : State) : Host.Outcome State Fault Refusal :=
  if s.pwr.phase.powered then
    let s : State := { s with pwr := { s.pwr with mTemp := t, ot := decide (189 ≤ t.toNat) } }
    if t.toNat < 179 ∧ s.pwr.otHold = true then doneSettled ({ s with pwr := { s.pwr with otHold := false } }).afterReset
    else doneSettled s
  else .next s

/-! ### HOLD (R445, R448) -/

/-- HOLD below 38 V is an event: it falls while VSYS is good, or HOLD_OK has stayed 0 for 500 ms after the rails were good (R445). -/
def State.holdLow (s : State) : Bool :=
  if s.pwr.holdOk then s.pwr.vsysOk else !s.pwr.holdRep && s.past s.pwr.railsAt 500000000

/-- HOLD_NOT_CHARGED (R445): HOLD is measured; below 38 V, the event sets HOLD_EVT and writes a record. -/
def execHoldNotCharged (hold : BitVec 10) (s : State) : Host.Outcome State Fault Refusal :=
  if s.pwr.phase.powered then
    let low := decide (hold.toNat < 380)
    let event := low && s.holdLow
    let s : State := { s with pwr := { s.pwr with mHold := hold, holdOk := !low, holdRep := low && (s.pwr.holdRep || event) } }
    doneSettled (s.when event (fun s =>
      (s.pwrEvt 4).record { src := 12, code := 3, site := sitePower 4, d6 := hold.zeroExtend 32 }))
  else .next s

/-- HOLD_EXHAUSTED (R448, R85): the retention island loses its contents, and the power die its kept causes. -/
def execHoldExhausted (s : State) : Host.Outcome State Fault Refusal :=
  if !s.pwr.phase.powered && !s.pwr.vsysOk then
    let lost : Power := { s.pwr with phase := .off, holdOk := false, wake := false, rail := none, otKept := false, pfKept := false,
                                     clkKept := 0 }
    doneSettled { s with tb := { s.tb with tb := 0, frac := 0, unset := true, lfRun := false }, pwr := lost }
  else .next s

/-- HOLD_CHARGED (R445): HOLD reaches 38 V. -/
def execHoldCharged (s : State) : Host.Outcome State Fault Refusal :=
  if s.pwr.phase.powered then
    doneSettled { s with pwr := { s.pwr with holdOk := true, holdRep := false, mHold := if s.pwr.holdOk then s.pwr.mHold else 380 } }
  else .next s

/-! ### RSTN (R26, R471, R526) -/

/-- Whether an RSTN low pulse of `ns` acts: from 1 µs always, below 100 ns never, between them the spec binds neither. -/
def rstnActs (n ns : Nat) : Bool := decide (1000 ≤ ns) || (decide (100 ≤ ns) && Config.shortResetActs n)

/-- RSTN_LOW (R26, R471). -/
def execRstnLow (ns : Nat) (s : State) : Host.Outcome State Fault Refusal :=
  let acts := rstnActs s.fresh ns
  let s := { s with fresh := s.fresh + 1 }
  if acts then
    let s : State := { s with pwr := { s.pwr with rstn := false } }
    if s.pwr.phase.powered then
      let t := s.cleared
      doneSettled { t with pwr := { t.pwr with phase := .reset } }
    else doneSettled s
  else doneSettled s

/-- RSTN_RELEASE (R26, R526, R528). -/
def execRstnRelease (s : State) : Host.Outcome State Fault Refusal :=
  let s : State := { s with pwr := { s.pwr with rstn := true } }
  if s.pwr.phase = .reset then doneSettled s.afterReset else doneSettled s

/-! ### Standby (R449 to R452) -/

/-- The log buffer and a STANDBY entry are programmed, where the store can be programmed (R433, R445). -/
def State.logStandby (s : State) : State :=
  if s.store.lost || !s.pwr.holdOk || s.pwr.fail then s
  else
    let s := s.log { kind := 0x12 }
    let before := s.unread
    let s := s.store.buf.foldl State.programEntry s
    let s := { s with store := { s.store with buf := [], erased := some (slotOfSeq (s.store.next + 1) / 32) } }
    s.holdLog.checkLog90 before

/-- The store operation in progress ends at standby entry: an erase is aborted, a program completes; a REVOKE that the end
asks for follows (R420, R450). -/
def State.storeQuiet (s : State) : State :=
  let stop := fun (s : State) =>
    s.when s.store.holder.isSome (fun s => s.storeDone (if s.store.op == .eraseSector || s.store.op == .eraseBlock then .cut else .done))
  stop (stop s)

/-- Standby entry (R93, R450): quiesce, LEAVE, CLOSE on every path, sessions closed, the store quiet, the log, TB on the LF
clock, rails down. -/
def State.standbyEntry (s : State) : State :=
  let s := s.quiesceAll
  let s := s.when s.sends (fun s =>
    let s := { s with flk := { s.flk with leave := true, left := true } }
    s.emit (.slot s.slotBody))
  let s := s.connList.foldl (fun s n => s.closeConn n) s
  let s := ((s.closeSessions 4).storeQuiet).logStandby
  s.disarmAll

/-- Standby: every die off but the retention island (R449, R451). -/
def State.toStandby (s : State) : State :=
  let t := s.cleared
  { t with pwr := { t.pwr with phase := .standby }, tb := { t.tb with lfRun := true } }

/-- A standby trigger acts: a power failure governs; under RSTN no STANDBY entry is written; fault stop is not ended by it
(R460, R467, R528). -/
def State.standbyTrigger (s : State) : State :=
  if s.pwr.fail then s
  else if s.pwr.phase.powered && s.dipOver then s.powerFails
  else match s.pwr.phase with
    | .off | .standby | .faultStop => s
    | .service | .waitLock | .bootHold => s.standbyEntry.toStandby
    | .starting | .reset | .debugHalt => s.toStandby

/-- STBYN_LOW (R449): the board's own decision, not gated. -/
def execStbynLow (s : State) : Host.Outcome State Fault Refusal :=
  doneSettled (({ s with pwr := { s.pwr with stbyn := false } }).standbyTrigger)

/-- Every safety output has its combined permit off (R291, R449). -/
def State.permitsOff (s : State) : Bool := s.permitVec .a == 0 && s.permitVec .b == 0

/-- A commit is between steps 3 and 7 of R418. -/
def State.commitRuns (s : State) : Bool := s.store.at6 || s.committing

/-- A cell hand-over is in progress (R449). -/
def State.cellHandover (s : State) : Bool :=
  s.ho.step != .idle && (s.ho.kind == .exchange || s.ho.kind == .move || s.ho.kind == .remove)

/-- STANDBY_REQUEST (R449): a write of 1 to PWR_CTL.STBY. -/
def State.requestStandby (s : State) : State :=
  if s.permitsOff && !s.cellHandover && !s.commitRuns then s.standbyTrigger else s.pwrEvt 3

/-- STANDBY_REQUEST: by the host, where its block answers (R449). -/
def execStandbyRequest (s : State) : Host.Outcome State Fault Refusal :=
  if s.pwr.phase.hostUp && s.busUp then doneSettled s.hostWrite.requestStandby else .next s

/-- A wake in standby: rails and start-up, or kept while VSYS is absent (R452, R528). -/
def State.wakeUp (s : State) (cause : BitVec 2) : State :=
  if s.pwr.phase = .standby then
    let s : State := { s with pwr := { s.pwr with start := cause } }
    if s.pwr.vsysOk then ({ s with tb := { s.tb with lfRun := false } }).afterReset
    else { s with pwr := { s.pwr with wake := true } }
  else s

/-- WAKE_BY_STBYN (R452). -/
def execWakeByStbyn (s : State) : Host.Outcome State Fault Refusal :=
  doneSettled (({ s with pwr := { s.pwr with stbyn := true } }).wakeUp 2)

/-- WAKE_BY_WAKE (R452): only with STBYN high. -/
def execWakeByWake (s : State) : Host.Outcome State Fault Refusal :=
  if s.pwr.stbyn then doneSettled (s.wakeUp 3) else .next s

/-! ### The clock generator (R78, R496) -/

/-- A clock fault of the spine: recorded and kept, the spine lost, fault stop (R24, R78, R467). TB never stops while VSYS is present
(R82): DEDUCED, it goes on from the LF clock. -/
def State.clockFault (s : State) (cause : BitVec 2) : State :=
  let s := s.record { src := 9, code := 1, site := siteSpine 0 0 2, d6 := cause.zeroExtend 32 }
  let s : State := { s with pwr := { s.pwr with clkKept := cause }, sys := { s.sys with coreLost := true }, tb := { s.tb with lfRun := true } }
  if s.pwr.phase = .faultStop then s else s.faultStop 0

/-- PLL_LOCK_LOSS (R78). -/
def execPllLockLoss (s : State) : Host.Outcome State Fault Refusal :=
  if s.spineRuns then
    doneSettled (({ s with clk := { s.clk with pllLock := false } }.clkEvt 0).clockFault 1)
  else .next s

/-- REFCLK_CHECK (R78, R496): a deviation of more than 1,000 ppm is a clock fault. -/
def execRefclkCheck (ppm : Int) (s : State) : Host.Outcome State Fault Refusal :=
  if s.spineRuns then
    let v := max (-32767) (min 32767 ppm)
    let s : State := { s with clk := { s.clk with ppm := BitVec.ofInt 16 v } }
    if 1000 < v ∨ v < -1000 then
      let fell := s.clk.refOk
      doneSettled ((({ s with clk := { s.clk with refOk := false } }.when fell (fun s => s.clkEvt 1))).clockFault 2)
    else doneSettled { s with clk := { s.clk with refOk := true } }
  else .next s

/-- LF_OSCILLATOR_CHANGE (R496). -/
def execLfOscillatorChange (runs : Bool) (s : State) : Host.Outcome State Fault Refusal :=
  let fell := s.clk.lfOk && !runs
  doneSettled ({ s with clk := { s.clk with lfOk := runs } }.when fell (fun s => s.clkEvt 2))

/-- SAFE_OK_REFRESH_LOSS: the refresh of one output permit logic stops (R72). The row does not say which one, so that is a free
truth. -/
def execSafeOkRefreshLoss (s : State) : Host.Outcome State Fault Refusal :=
  let (a, s) := s.takeBool
  doneSettled { s with sys := { s.sys with refreshA := s.sys.refreshA && !a, refreshB := s.sys.refreshB && a } }

/-! ### Module debug halt (R93) -/

/-- The cells that are loaded. -/
def State.loadedCells (s : State) : List Nat := (s.cells.filter (fun e => e.2.st.isLoaded)).map (·.1)

/-- MODULE_DEBUG_HALT (R92, R93): TB moves to the LF clock, channels and timers disarm, every cell is in its safe state, and
the field dies see silence. -/
def execModuleDebugHalt (s : State) : Host.Outcome State Fault Refusal :=
  if s.spineRuns then
    let s := s.loadedCells.foldl (fun s c => (s.abandon c 0x3A).toSafe c .safe) s
    let s := s.disarmAll.availStop
    doneSettled { s with pwr := { s.pwr with phase := .debugHalt }, tb := { s.tb with lfRun := true },
                         sys := { s.sys with refreshA := false, refreshB := false } }
  else .next s

/-- MODULE_DEBUG_RELEASE (R93): the module restarts. -/
def execModuleDebugRelease (s : State) : Host.Outcome State Fault Refusal :=
  if s.pwr.phase = .debugHalt then doneSettled s.cleared.afterReset else .next s

end Sys2Proof.Machine
end

