-- ==== Sys2Proof/Machine/Views.lean ====
section
/-! DEFINITION. What a host read of each BAR0 register returns (R410, R435, R461, R462, R486, R488 to R502), block by block. A
register that a read changes has a command of its own (R83, R144, R363, R496); here it shows the value such a read returns. -/

namespace Sys2Proof.Machine

/-- Fields of `w` bits side by side in a word, the first at the low end. -/
def packW (w n : Nat) (f : Nat → Nat) : Word := (List.range n).foldl (fun v k => v ||| atLsb 32 (w * k) (f k)) 0

/-- The low and the high word of a 64-bit value. -/
def lowW (d : Dword) : Word := d.extractLsb' 0 32
def highW (d : Dword) : Word := d.extractLsb' 32 32

/-! ### SYS, CLK, PWR (R461, R494 to R497) -/

/-- SYS_STAT (R495). -/
def State.sysStatW (s : State) : Word :=
  atBit 32 0 s.sys.safeOk ||| atBit 32 1 s.sys.faultn ||| atBit 32 2 (bit s.sys.done 10) |||
    atBit 32 3 (s.pwr.phase == .faultStop) ||| atBit 32 4 s.bist.inHold ||| atBit 32 5 s.sys.lock ||| atLsb 32 16 s.sys.evt.toNat

/-- SYS_START (R495). -/
def State.sysStartW (s : State) : Word :=
  atLsb 32 0 s.sys.done.toNat ||| atLsb 32 16 s.sys.failStep.toNat ||| atBit 32 20 s.sys.noBank ||| atBit 32 21 s.sys.unlocked

/-- Units out of service at unit level, saturating: with a half of a bank or a region out, everything in it is (R13, R20, R494). -/
def State.oosCount (s : State) : Nat :=
  min 0xFFFF ((List.range 4096).filter (fun u => unitValid u && s.siteOut u)).length

/-- The SYS block (R494). -/
def State.sysReg (s : State) (o : Nat) : Word :=
  match o with
  | 0x000 => 0x641001B0#32
  | 0x004 => atLsb 32 0 s.modAddr ||| atBit 32 4 s.loaded
  | 0x008 => atBit 32 0 s.sys.lock
  | 0x00C => s.sysStatW
  | 0x010 => s.sysStartW
  | 0x014 => BitVec.ofNat 32 s.oosCount
  | 0x018 => lowW Config.serial
  | 0x01C => highW Config.serial
  | 0x020 => if s.loaded then s.cfg.icrc else 0
  | 0x024 => s.cfgSeq
  | 0x028 => s.sys.scratch
  | _ => 0

/-- Clock domain d runs and is not gated (R79, R497). -/
def State.clockRuns (s : State) (d : Nat) : Bool :=
  if d < 64 then s.regionUp (d / 16) && (s.eng d).role != .idle && (s.eng d).role != .out
  else if d < 80 then s.regionUp ((d - 64) / 4) && (List.range 4).any (fun i => !s.inReset (4 * (d - 64) + i))
  else if d < 84 then s.regionUp (d - 80)
  else if d < 88 then true
  else if d < 92 then (s.mac (d - 88)).en
  else if d = 93 then !s.tb.lfRun
  else if d = 95 then s.bist.active
  else if d = 97 then s.loaded && s.cfg.flkEn
  else decide (d < 100)

/-- The CLK block (R496). -/
def State.clkReg (s : State) (o : Nat) : Word :=
  match o with
  | 0x000 => atBit 32 0 s.clk.pllLock ||| atBit 32 1 s.clk.refOk ||| atBit 32 2 s.clk.lfOk ||| atLsb 32 16 s.clk.evt.toNat
  | 0x004 => s.clk.ppm.zeroExtend 32
  | 0x008 => lowW s.tb.inc
  | 0x00C => s.clk.incHi
  | _ => wordOf (fun i => s.clockRuns (32 * ((o - 0x010) / 4) + i))

/-- The PWR block (R461). PWR_CTL is WO and reads 0 (R8). -/
def State.pwrReg (s : State) (o : Nat) : Word :=
  match o with
  | 0x000 => atBit 32 0 s.pwr.holdOk ||| atBit 32 1 s.pwr.vsysOk ||| atBit 32 2 s.pwr.ot ||| atLsb 32 3 s.pwr.start.toNat |||
      atLsb 32 16 s.pwr.evt.toNat
  | 0x008 => atLsb 32 0 (Config.vsysMeas s.now).toNat ||| atLsb 32 10 s.pwr.mHold.toNat ||| atLsb 32 20 s.pwr.mTemp.toNat
  | 0x00C => s.pwr.dips
  | _ => 0

/-! ### TB (R83, R107) -/

/-- The TB block (R107). -/
def State.tbReg (s : State) (o : Nat) : Word :=
  match o with
  | 0x000 => lowW s.tb.tb
  | 0x004 => (Tab.get {} s.tb.latch 64).hi
  | 0x008 => (Tab.get {} s.tb.latch 64).frac
  | 0x00C => atBit 32 0 s.tb.lock ||| atBit 32 1 s.tb.unset ||| atLsb 32 2 s.tb.evt.toNat ||| atBit 32 7 s.tb.lfRun
  | 0x010 => BitVec.ofInt 32 s.tb.offset
  | 0x014 => atLsb 32 0 s.tb.refAddr.toNat ||| atLsb 32 4 s.tb.src.toNat ||| atLsb 32 6 s.tb.port.toNat
  | 0x018 => s.tb.utc.zeroExtend 32
  | 0x320 => s.regs.fired
  | _ =>
    if o < 0x200 then (let c := s.chan (224 + (o - 0x100) / 8); if o % 8 = 0 then c.lo else c.hi)
    else if o < 0x300 then (s.chan (224 + (o - 0x200) / 4)).act.zeroExtend 32
    else wordOf (fun i => (s.chan (32 * ((o - 0x300) / 4) + i)).armed)

/-! ### HIF (R410) -/

/-- Number of a queue pair's state (R396). -/
def QpSt.n : QpSt → Nat
  | .disabled => 0
  | .active => 1
  | .draining => 2
  | .error => 3

/-- The HIF block; the queue-pair registers show the pair in QP_SEL (R410). -/
def State.hifReg (s : State) (o : Nat) : Word :=
  let x := s.qp s.hif.qpSel.toNat
  match o with
  | 0x000 => s.hif.tHsil.zeroExtend 32
  | 0x004 => atBit 32 0 s.hif.silent ||| atLsb 32 16 s.hif.evt.toNat
  | 0x008 => s.hif.evtEn.zeroExtend 32
  | 0x00C => s.lastSeq
  | 0x010 => s.hif.qpSel.zeroExtend 32
  | 0x014 => atBit 32 0 x.en ||| atBit 32 1 x.cls ||| atLsb 32 2 x.mac.toNat
  | 0x018 => lowW x.sqBase
  | 0x01C => highW x.sqBase
  | 0x020 => x.sqCfg.zeroExtend 32
  | 0x024 => lowW x.cqBase
  | 0x028 => highW x.cqBase
  | 0x02C => x.cqCfg.zeroExtend 32
  | 0x030 => atLsb 32 0 x.st.n ||| atLsb 32 4 x.cause.toNat ||| atBit 32 16 x.errEvt
  | 0x034 => x.sqc.zeroExtend 32 ||| (x.cqp.zeroExtend 32 <<< 16)
  | 0x038 => BitVec.ofNat 32 (x.out % 8192)
  | 0x03C => x.drop
  | _ => 0

/-! ### MAC/PTP (R363) -/

/-- Registers of MAC m (R363). -/
def State.macReg (s : State) (m o : Nat) : Word :=
  let k := s.mac m
  match o with
  | 0x000 => atBit 32 0 k.en ||| atBit 32 1 k.wlEn
  | 0x004 => k.addr.extractLsb' 0 32
  | 0x008 => (k.addr.extractLsb' 32 16).zeroExtend 32
  | 0x00C => k.ip
  | 0x010 => atBit 32 0 k.link ||| atLsb 32 16 k.evt.toNat
  | 0x014 => k.lat
  | 0x018 => atLsb 32 0 k.port.toNat ||| atBit 32 4 k.asCap
  | _ => 0

/-- The MAC/PTP block (R363). -/
def State.netReg (s : State) (o : Nat) : Word :=
  let c := s.conn s.net.connSel.toNat
  if o < 0x100 then s.macReg (o / 0x40) (o % 0x40)
  else match o with
  | 0x100 => s.net.udp.zeroExtend 32
  | 0x104 => s.net.etype.zeroExtend 32
  | 0x108 => s.net.dscp.zeroExtend 32
  | 0x10C => s.net.evt.zeroExtend 32
  | 0x110 => s.net.ptpCfg
  | 0x114 => s.net.npdt
  | 0x120 => s.net.statSel.zeroExtend 32
  | 0x124 => lowW s.statWord
  | 0x128 => s.net.statHi
  | 0x140 => s.net.connSel.zeroExtend 32
  | 0x144 => atLsb 32 0 c.st.n ||| atBit 32 4 (s.connDual s.net.connSel.toNat) ||| atBit 32 5 c.up0 ||| atBit 32 6 c.up1 |||
      atLsb 32 8 c.code.toNat
  | 0x148 => c.lost
  | 0x14C => c.disc
  | _ => 0

/-! ### FLK (R385) -/

/-- State code of FLK_ROLE (R385). -/
def FlkRole.n : FlkRole → Nat
  | .off => 0
  | .listen => 1
  | .backoff => 2
  | .join => 3
  | .run => 4
  | .resync => 5
  | .dup => 6

/-- The FLK block (R385). -/
def State.flkReg (s : State) (o : Nat) : Word :=
  let p := s.peer s.flk.sel.toNat
  match o with
  | 0x000 => atBit 32 0 s.flk.linkA ||| atBit 32 1 s.flk.linkB ||| atBit 32 2 s.flk.isol ||| atBit 32 3 s.flk.isMaster |||
      atLsb 32 16 s.flk.evt.toNat
  | 0x004 => wordOf (fun i => if i < 16 then (s.peer i).adm else (s.peer (i - 16)).lost)
  | 0x008 => s.heardWord
  | 0x00C => s.cycNo
  | 0x010 => atLsb 32 0 s.flk.role.n ||| atLsb 32 4 s.flk.master.toNat
  | 0x020 => s.flk.sel.zeroExtend 32
  | 0x024 => BitVec.ofNat 32 (s.linkOf s.flk.sel.toNat % 65536)
  | 0x028 => p.a.dev.zeroExtend 32 ||| (p.b.dev.zeroExtend 32 <<< 16)
  | 0x02C => p.lostN
  | 0x030 => p.a.bad.zeroExtend 32 ||| (p.b.bad.zeroExtend 32 <<< 16)
  | _ => 0

/-! ### STORE, BIST, LADLE (R435, R462, R486) -/

/-- STORE_STAT (R435); HOLDER without a grant and BANK without a valid bank are free, since the spec gives them no value. -/
def State.storeStatW (s : State) : Word :=
  let t := s.store
  let holder := match t.holder with | some n => n | none => Config.freeNat s.fresh % 4
  let bank := match t.win with | some b => b | none => Config.freeBool s.fresh
  atBit 32 0 t.holder.isSome ||| atLsb 32 1 holder ||| atBit 32 3 (t.freeze && t.holder.isNone) ||| atBit 32 4 bank |||
    atBit 32 5 t.win.isNone ||| atBit 32 6 t.safety.sess.isSome ||| atBit 32 7 t.maint.sess.isSome |||
    atBit 32 8 t.safety.locked ||| atBit 32 9 t.maint.locked ||| atLsb 32 16 t.evt.toNat

/-- The STORE block (R435). -/
def State.storeReg (s : State) (o : Nat) : Word :=
  match o with
  | 0x000 => s.store.prio.zeroExtend 32 ||| atBit 32 8 s.store.freeze
  | 0x004 => s.storeStatW
  | 0x008 => s.winSeq
  | 0x00C => s.store.next
  | 0x010 => BitVec.ofNat 32 s.unread
  | 0x014 => s.store.lostN
  | _ => 0

/-- Per cent complete of the present or last run (R486): free while it runs, since its pace is not in the spec. -/
def State.bistDone (s : State) : Nat := if s.bist.active then min 100 (Config.bistPct s.now) else s.bist.pct.toNat

/-- The BIST block (R486). -/
def State.bistReg (s : State) (o : Nat) : Word :=
  let q := o % 0x010 / 4
  match o with
  | 0x000 => s.bist.per.zeroExtend 32
  | 0x004 => atBit 32 0 s.condsNow ||| atBit 32 1 s.bist.active ||| atLsb 32 16 s.bist.evt.toNat
  | 0x008 => atLsb 32 0 s.bist.region.toNat ||| atBit 32 2 s.bist.active ||| atBit 32 3 s.bist.paused ||| atLsb 32 8 s.bistDone
  | 0x030 => atBit 32 0 s.bist.inHold ||| atBit 32 1 s.bist.cleared ||| atBit 32 2 s.bist.scan
  | _ =>
    if o < 0x020 then (Tab.get {} s.bist.sums q).last
    else s.bistRes q ||| atLsb 32 24 (Tab.get {} s.bist.sums q).incompl.toNat

/-- Four registers of domain d (R462). -/
def State.ladleDom (s : State) (d i : Nat) : Word :=
  let b := s.bucket d
  match i with
  | 0 => atLsb 32 0 b.size ||| atLsb 32 16 b.rate
  | 1 => (BitVec.ofInt 16 b.level).zeroExtend 32 ||| atLsb 32 16 (min 65535 b.queue.length)
  | 2 => BitVec.ofNat 32 (b.held % 65536)
  | _ => BitVec.ofNat 32 (b.spent % 65536)

/-- The LADLE block (R462). -/
def State.ladleReg (s : State) (o : Nat) : Word :=
  if o < 0x050 then s.ladleDom (o / 16) (o % 16 / 4)
  else if o ≥ 0x080 then wordOf4 (fun k => Tab.get 60 s.ladle.oc (4 * ((o - 0x080) / 4) + k))
  else match o with
  | 0x050 => atBit 32 0 ((List.range 5).any (fun d => !(s.bucket d).queue.isEmpty)) ||| atLsb 32 16 s.ladle.evt.toNat
  | 0x054 => s.ladle.overN
  | 0x060 => s.ladle.tpc.zeroExtend 32
  | _ => 0

/-! ### TRIP, CVU (R204, R498) -/

/-- The TRIP block (R204). -/
def State.tripReg (s : State) (o : Nat) : Word :=
  if o < 0x040 then s.tripActW (o / 4)
  else if o < 0x050 then s.tripStateW .a ((o - 0x040) / 4)
  else if o < 0x060 then s.tripStateW .b ((o - 0x050) / 4)
  else if o < 0x068 then s.lid.new.extractLsb' (32 * ((o - 0x060) / 4)) 32
  else if o = 0x068 then atBit 32 0 s.lid.faultA ||| atBit 32 1 s.lid.faultB ||| atLsb 32 2 s.lid.evt.toNat
  else if o % 8 = 0 then s.tripCauseW ((o - 0x100) / 8)
  else (Tab.get {} s.lid.cause ((o - 0x100) / 8)).stamp

/-- The registers of CVUn (R498). -/
def Cvu.view (c : Cvu) (i : Nat) : Word :=
  match i with
  | 0 => c.ctl.zeroExtend 32
  | 1 => c.poly
  | 2 => c.init
  | 3 => c.xor
  | 4 => c.len
  | 5 => c.val
  | 6 => c.cnt
  | _ => atBit 32 0 c.run ||| atBit 32 1 c.done ||| atLsb 32 16 c.evt.toNat

/-- The CVU block (R498): a read of CVU_VAL_n in the tick of an item shows the value before that item (R501). -/
def State.cvuReg (s : State) (o : Nat) : Word :=
  let c := s.cvu (o / 0x20)
  if o % 0x20 / 4 = 5 then (c.before s.now).val else c.view (o % 0x20 / 4)

/-! ### FLD (R144, R186, R502) -/

/-- Registers of encoder interface e: count, period, status (R144). -/
def State.encReg (s : State) (e i : Nat) : Word :=
  match i with
  | 0 => (s.enc e).count
  | 1 => s.encPeriod e
  | 2 => s.encStatW e
  | _ => 0

/-- Capture registers of encoder interface e: the head's stamp, then the host's latch (R144). -/
def State.capReg (s : State) (e i : Nat) : Word :=
  let r := s.enc e
  match i with
  | 0 => (match (Tab.get {} s.cfg.caps e).consumer, r.queue with | none, h :: _ => lowW h.stamp | _, _ => 0)
  | 1 => (r.latch.map (fun h => highW h.stamp)).getD 0
  | 2 => (r.latch.map (fun (h : CapE) => h.count)).getD 0
  | _ => (r.latch.map (fun h => atBit 32 0 true ||| atLsb 32 1 h.kind.toNat)).getD 0

/-- OUT_RBA_b or OUT_RBB_b (R186). -/
def State.outRbW (s : State) (b : Nat) (x : AB) : Word :=
  wordOf (fun i =>
    let r := s.out (16 * b + i % 16)
    match x with
    | .a => if i < 16 then r.rbA == .high else r.nA == .high
    | .b => if i < 16 then r.rbB == .high else r.nB == .high)

/-- BANK_STAT_b (R186). -/
def State.bankStatW (s : State) (b : Nat) : Word :=
  let ha := s.half b .a
  let hb := s.half b .b
  packW 1 10 (fun i => (match i with
    | 0 => ha.vfLow | 1 => hb.vfLow | 2 => ha.vfHigh | 3 => hb.vfHigh | 4 => ha.silent | 5 => hb.silent
    | 6 => s.halfOut b .a | 7 => s.halfOut b .b | 8 => decide (189 ≤ ha.temp.toNat) | _ => decide (189 ≤ hb.temp.toNat)).toNat) |||
    atLsb 32 16 (s.bank b).evt.toNat

/-- FLD_OCC for the channel in FLD_SEL (R502). -/
def State.fldOccW (s : State) : Word :=
  let n := s.regs.fldSel.toNat
  let occ := fun (count : Half) (code : Byte) (a b : Bool) =>
    count.zeroExtend 32 ||| atLsb 32 16 code.toNat ||| atBit 32 24 a ||| atBit 32 25 b
  if n < 128 then occ (s.inp n).count (s.inp n).code (s.siteOut (siteInput n)) false
  else if n < 192 then occ (s.out (n - 128)).count (s.out (n - 128)).code (s.siteOut (siteElement (n - 128) .a)) (s.siteOut (siteElement (n - 128) .b))
  else if n < 224 then occ (s.tp (n - 192)).count (s.tp (n - 192)).code (s.siteOut (siteSource (n - 192))) false
  else 0

/-- T_SIL of a bank as its record gives it, in units of 10 µs (R155, R502). -/
def State.tsilField (s : State) (b : Nat) : Word := if s.loaded then BitVec.ofNat 32 (fld (Tab.get 0 s.cfg.banks b) 9 0) else 0

/-- An element is on as its half reports it: a dark-test probe switches it on too (R165, R186). -/
def Element.shown (e : Element) : Bool := e.on || e.test == .probe

/-- The output part of the FLD block (R186). -/
def State.fldOutReg (s : State) (o : Nat) : Word :=
  let b := o % 0x010 / 4
  if o < 0x1D0 then wordOf (fun i => if i < 16 then (s.out (16 * b + i)).a.shown else (s.out (16 * b + (i - 16))).b.shown)
  else if o < 0x1E0 then s.outRbW b .a
  else if o < 0x1F0 then s.outRbW b .b
  else if o < 0x200 then (s.regs.outNew.extractLsb' (16 * b) 16).zeroExtend 32 ||| ((s.regs.tpNew.extractLsb' (8 * b) 8).zeroExtend 32 <<< 16)
  else if o < 0x240 then s.outCodeW ((o - 0x200) / 4)
  else if o < 0x260 then s.tpCodeW ((o - 0x240) / 4)
  else if o < 0x270 then wordOf (fun i => if i < 8 then s.tpOn (8 * b + i) else decide (i < 16) && (s.tp (8 * b + (i - 8))).high)
  else if o < 0x280 then s.bankStatW b
  else (s.half b .a).temp.zeroExtend 32 ||| ((s.half b .b).temp.zeroExtend 32 <<< 8) ||| ((s.bank b).meas.zeroExtend 32 <<< 16)

/-- The FLD block (R144, R186, R502). -/
def State.fldReg (s : State) (o : Nat) : Word :=
  let b := o % 0x010 / 4
  if o < 0x010 then s.inQualW b
  else if o < 0x020 then s.inRawW b
  else if o < 0x030 then s.inPairW b
  else if o < 0x040 then s.regs.inNew.extractLsb' (32 * b) 32
  else if o < 0x0C0 then s.inCodeW ((o - 0x040) / 4)
  else if o < 0x140 then s.encReg ((o - 0x0C0) / 16) b
  else if o < 0x1C0 then s.capReg ((o - 0x140) / 16) b
  else if o < 0x290 then s.fldOutReg o
  else if o = 0x290 then s.regs.fldSel.zeroExtend 32
  else if o = 0x294 then s.fldOccW
  else if o < 0x2A0 then 0
  else if o < 0x2B0 then (s.half b .a).dropped.zeroExtend 32 ||| ((s.half b .b).dropped.zeroExtend 32 <<< 16)
  else s.tsilField b

/-! ### PAIR, CELLDIR (R239, R308) -/

/-- Codes of pair states and of roles (R239). -/
def PState.n : PState → Nat
  | .idle => 0
  | .paired => 1
  | .split => 2
  | .resolving => 3
  | .degEven => 4
  | .degOdd => 5
  | .debug => 6
  | .handover => 7
  | .part => 8
  | .out => 9

/-- ENG_ROLE (R239). -/
def EngRole.n : EngRole → Nat
  | .idle => 0
  | .single => 1
  | .leader => 2
  | .follower => 3
  | .halted => 4
  | .out => 5

/-- PAIR_INFO_k (R239). -/
def State.pairInfoW (s : State) (k : Nat) : Word :=
  let p := s.epair k
  atLsb 32 0 p.skew.toNat ||| atLsb 32 4 p.skewMax.toNat ||| atBit 32 8 p.cmpDis ||| atLsb 32 9 p.cause.toNat |||
    (p.mm.zeroExtend 32 <<< 16)

/-- The PAIR block (R239). -/
def State.pairReg (s : State) (o : Nat) : Word :=
  if o < 0x010 then packW 4 8 (fun j => (s.epair (8 * (o / 4) + j)).st.n)
  else if o < 0x030 then packW 4 8 (fun j => (s.eng (8 * ((o - 0x010) / 4) + j)).role.n)
  else if o = 0x030 then s.regs.pairNew
  else if o = 0x034 then s.regs.pairEvt.zeroExtend 32
  else if o < 0x200 then (if o % 8 = 0 then s.pairInfoW ((o - 0x100) / 8) else (s.epair ((o - 0x100) / 8)).last)
  else if o < 0x280 then (let m := s.clu ((o - 0x200) / 8); if o % 8 = 0 then m.ce else m.ue)
  else (s.clu ((o - 0x280) / 4)).scrub

/-- A restart interlock of the cell is latched (R284, R308). -/
def State.interlocked (s : State) (c : Nat) : Bool :=
  let x := s.cell c
  match x.ver with
  | none => false
  | some v => x.placed && v.decls.any (fun d => d.kind == 5 && bit ((s.clu (x.eng / 4)).word (1024 * x.sblk + 4 * d.ofs)) 0)

/-- CELL_INFO of the cell in CELL_SEL (R308). -/
def State.cellInfoW (s : State) (c : Nat) : Word :=
  let x := s.cell c
  let cexp := match x.ver with | some v => v.cexp | none => 0
  atLsb 32 0 x.st.n ||| atLsb 32 4 x.eng ||| atBit 32 10 x.onP ||| atBit 32 11 x.dEng ||| atBit 32 12 x.dRing |||
    atBit 32 13 x.dNet ||| atBit 32 14 (s.interlocked c) ||| atLsb 32 16 cexp ||| atLsb 32 24 x.fcnt.toNat

/-- CELL_HO: an exchange or move in progress (R308). -/
def State.cellHoW (s : State) : Word :=
  let h := s.ho
  let step := match h.step with | .idle => 0 | .loading => 0 | .waiting => 1 | .running => 2
  if s.cellHandover then atLsb 32 0 h.cell ||| atBit 32 10 true ||| atBit 32 11 (h.kind == .move) ||| atLsb 32 12 step else 0

/-- The CELLDIR block (R308). -/
def State.cellReg (s : State) (o : Nat) : Word :=
  let w := o % 0x080 / 4
  let c := s.regs.cellSel.toNat
  if o < 0x080 then wordOf (fun i => (s.cell (32 * w + i)).st.isLoaded)
  else if o < 0x100 then wordOf (fun i => let st := (s.cell (32 * w + i)).st; st == .running || st == .handover)
  else if o < 0x180 then wordOf (fun i => (s.cell (32 * w + i)).degraded)
  else if o < 0x200 then s.regs.cellNew.extractLsb' (32 * w) 32
  else match o with
  | 0x200 => s.regs.cellEvt.zeroExtend 32
  | 0x204 => s.cellHoW
  | 0x208 => if s.cellHandover then lowW s.ho.x else 0
  | 0x300 => s.regs.cellSel.zeroExtend 32
  | 0x304 => s.cellInfoW c
  | 0x308 => if (s.cell c).st = .unloaded then 0 else ((s.cell c).ver.map CellImg.sig).getD 0
  | 0x30C => BitVec.ofNat 32 (s.degrMs c)
  | _ => 0

/-! ### The whole of BAR0 (R488, R489) -/

/-- Offsets in use of each block, as ranges (R488). -/
def blockRanges : Nat → List (Nat × Nat)
  | 0 => [(0x000, 0x02B)]
  | 1 => [(0x000, 0x01F)]
  | 2 => [(0x000, 0x00F)]
  | 3 => [(0x000, 0x01B), (0x100, 0x1FF), (0x200, 0x27F), (0x300, 0x323)]
  | 4 => [(0x000, 0x03F)]
  | 5 => [(0x000, 0x01B), (0x040, 0x05B), (0x080, 0x09B), (0x0C0, 0x0DB), (0x100, 0x117), (0x120, 0x12B), (0x140, 0x14F)]
  | 6 => [(0x000, 0x013), (0x020, 0x033)]
  | 7 => [(0x000, 0x017)]
  | 8 => [(0x000, 0x00B), (0x010, 0x033)]
  | 9 => [(0x000, 0x057), (0x060, 0x063), (0x080, 0x0BF)]
  | 10 => [(0x000, 0x06B), (0x100, 0x2FF)]
  | 11 => [(0x000, 0x0FF)]
  | 12 => [(0x000, 0x1BF), (0x1C0, 0x28F), (0x290, 0x2BF)]
  | 13 => [(0x000, 0x037), (0x100, 0x2BF)]
  | 14 => [(0x000, 0x20B), (0x300, 0x30F)]
  | _ => []

/-- An offset of BAR0 is in use (R488). -/
def offsetInUse (a : Nat) : Bool := (blockRanges (a / 1024)).any (fun r => decide (r.1 ≤ a % 1024) && decide (a % 1024 ≤ r.2))

/-- The value a read of a BAR0 offset returns; a reserved one reads 0 (R389, R489, R490). -/
def State.bar0Read (s : State) (a : Nat) : Word :=
  let o := a % 1024 / 4 * 4
  if !offsetInUse a then 0
  else match a / 1024 with
  | 0 => s.sysReg o
  | 1 => s.clkReg o
  | 2 => s.pwrReg o
  | 3 => s.tbReg o
  | 4 => s.hifReg o
  | 5 => s.netReg o
  | 6 => s.flkReg o
  | 7 => s.storeReg o
  | 8 => s.bistReg o
  | 9 => s.ladleReg o
  | 10 => s.tripReg o
  | 11 => s.cvuReg o
  | 12 => s.fldReg o
  | 13 => s.pairReg o
  | _ => s.cellReg o

end Sys2Proof.Machine
end

