-- ==== Sys2Proof/Machine/Regs.lean ====
section
/-! DEFINITION. Host writes and reads of BAR0 and BAR2 that no other command covers (R8 to R10, R388, R389, R410, R435, R461
to R463, R486 to R504), block by block. -/

namespace Sys2Proof.Machine

/-- An access that R389 does not accept, or a value that R489 does not. -/
def State.accErr (s : State) : State := s.hifEvt 5

/-- A written value without the ones at W1C bits that have set in this tick: the set wins (R9). -/
def State.w1c (s : State) (a : Nat) (v : Word) : Word := v &&& ~~~(wordOf (fun i => s.setNow.contains (32 * a + i)))

/-- A W1C field at bit `lsb` of a register: ones written clear (R8). -/
def clr {w : Nat} (e : BitVec w) (v : Word) (lsb : Nat) : BitVec w := e &&& ~~~(v.extractLsb' lsb w)

/-! ### SYS, CLK, PWR, TB -/

/-- SYS_LOCK (R493, R495). -/
def State.writeLock (s : State) (v : Word) : State :=
  s.lockedWrite (fun s => { s with sys := { s.sys with lock := bit v 0 } })

/-- The SYS block (R494). -/
def State.sysWrite (s : State) (o : Nat) (v : Word) : State :=
  match o with
  | 0x008 => s.writeLock v
  | 0x00C => { s with sys := { s.sys with evt := clr s.sys.evt v 16 } }
  | 0x028 => { s with sys := { s.sys with scratch := v } }
  | _ => s

/-- The CLK block (R496). -/
def State.clkWrite (s : State) (o : Nat) (v : Word) : State :=
  if o = 0x000 then { s with clk := { s.clk with evt := clr s.clk.evt v 16 } } else s

/-- The PWR block (R461). -/
def State.pwrWrite (s : State) (o : Nat) (v : Word) : State :=
  match o with
  | 0x000 => { s with pwr := { s.pwr with evt := clr s.pwr.evt v 16 } }
  | 0x004 => s.when (bit v 0) (fun s => s.requestStandby)
  | _ => s

/-- The TB block (R95, R97, R107). -/
def State.tbWrite (s : State) (o : Nat) (v : Word) : State :=
  if o = 0x00C then { s with tb := { s.tb with evt := clr s.tb.evt v 2 } }
  else if o = 0x320 then { s with regs := { s.regs with fired := clr s.regs.fired v 0 } }
  else if o < 0x100 then s
  else if o < 0x200 then (let n := 224 + (o - 0x100) / 8; if o % 8 = 0 then s.writeTcmpLo n v else s.writeTcmpHi n v)
  else if o < 0x280 then s.writeTcmpAct ((o - 0x200) / 4) v
  else s

/-! ### HIF (R396, R410) -/

/-- A set-up register of the queue pair in QP_SEL: writable only while it is DISABLED (R396). -/
def State.qpSetup (s : State) (f : Qp → Qp) : State :=
  let q := s.hif.qpSel.toNat
  if (s.qp q).st = .disabled then s.updQp q f else s.accErr

/-- A base with its low or its high word replaced. -/
def withLow (d : Dword) (v : Word) : Dword := (d.extractLsb' 32 32).zeroExtend 64 <<< 32 ||| v.zeroExtend 64
def withHigh (d : Dword) (v : Word) : Dword := v.zeroExtend 64 <<< 32 ||| (d.extractLsb' 0 32).zeroExtend 64

/-- The HIF block (R410, R489). -/
def State.hifWrite (s : State) (o : Nat) (v : Word) : State :=
  let q := s.hif.qpSel.toNat
  match o with
  | 0x000 => ({ s with hif := { s.hif with tHsil := v.extractLsb' 0 8 } }).checkSilence
  | 0x004 => { s with hif := { s.hif with evt := clr s.hif.evt v 16 } }
  | 0x008 => { s with hif := { s.hif with evtEn := v.extractLsb' 0 7 } }
  | 0x010 => { s with hif := { s.hif with qpSel := v.extractLsb' 0 6 } }
  | 0x014 => (s.writeQpCtl q v).advance
  | 0x018 => s.qpSetup (fun x => { x with sqBase := withLow x.sqBase v })
  | 0x01C => s.qpSetup (fun x => { x with sqBase := withHigh x.sqBase v })
  | 0x020 =>
    if 1 ≤ fld v 3 0 ∧ fld v 3 0 ≤ 12 then s.qpSetup (fun x => { x with sqCfg := v.extractLsb' 0 4 }) else s.accErr
  | 0x024 => s.qpSetup (fun x => { x with cqBase := withLow x.cqBase v })
  | 0x028 => s.qpSetup (fun x => { x with cqBase := withHigh x.cqBase v })
  | 0x02C =>
    if 1 ≤ fld v 3 0 ∧ fld v 3 0 ≤ 12 ∧ 1 ≤ fld v 12 5 then s.qpSetup (fun x => { x with cqCfg := v.extractLsb' 0 23 }) else s.accErr
  | 0x030 => s.updQp q (fun x => { x with errEvt := x.errEvt && !bit (s.w1c (qpStatKey q) v) 16 })
  | _ => s

/-! ### MAC/PTP (R363) -/

/-- MAC_CTL: EN off takes the link down (R359, R363). -/
def State.writeMacCtl (s : State) (m : Nat) (v : Word) : State :=
  let link := (s.mac m).link
  let s := s.updMac m (fun k => { k with
    en := bit v 0, wlEn := bit v 1, link := k.link && bit v 0 }) |>.when (link && !bit v 0) (fun s => s.macEvt m 0)
  s.noTransport.portCheck m

/-- Registers of MAC m (R363). -/
def State.macWrite (s : State) (m o : Nat) (v : Word) : State :=
  match o with
  | 0x000 => s.lockedWrite (fun s => s.writeMacCtl m v)
  | 0x004 => s.lockedWrite (fun s => s.updMac m (fun k => { k with addr := k.addr &&& 0xFFFF00000000#48 ||| v.zeroExtend 48 }))
  | 0x008 => s.lockedWrite (fun s => s.updMac m (fun k => { k with
      addr := k.addr &&& 0xFFFFFFFF#48 ||| ((v.extractLsb' 0 16).zeroExtend 48 <<< 32) }))
  | 0x00C => s.lockedWrite (fun s => s.updMac m (fun k => { k with ip := v }))
  | 0x010 => s.updMac m (fun k => { k with evt := clr k.evt v 16 })
  | 0x014 => s.lockedWrite (fun s => s.updMac m (fun k => { k with lat := v }))
  | _ => s

/-- EtherTypes that WL_ETYPE refuses; 0 disables (R363). -/
def badEtype (t : Nat) : Bool :=
  (t != 0 && decide (t < 0x0600)) || t == 0x0800 || t == 0x0806 || t == 0x8100 || t == 0x86DD || t == 0x88A8 || t == 0x88F7

/-- The MAC/PTP block (R363). -/
def State.netWrite (s : State) (o : Nat) (v : Word) : State :=
  if o < 0x100 then s.macWrite (o / 0x40) (o % 0x40) v
  else match o with
  | 0x100 => s.lockedWrite (fun s => ({ s with net := { s.net with udp := v.extractLsb' 0 16 } }).noTransport)
  | 0x104 => s.lockedWrite (fun s =>
      if badEtype (fld v 15 0) then s.wlEvt 3 else ({ s with net := { s.net with etype := v.extractLsb' 0 16 } }).noTransport)
  | 0x108 => s.lockedWrite (fun s => { s with net := { s.net with dscp := v.extractLsb' 0 6 } })
  | 0x10C => { s with net := { s.net with evt := clr s.net.evt v 0 } }
  | 0x110 => s.lockedWrite (fun s =>
      if 127 < fld v 15 8 then s.wlEvt 3
      else ({ s with net := { s.net with ptpCfg := v &&& 0x000FFF07#32 } }).each 4 (fun s m => s.portCheck m))
  | 0x114 => s.lockedWrite (fun s => { s with net := { s.net with npdt := v } })
  | 0x120 => { s with net := { s.net with statSel := v.extractLsb' 0 8 } }
  | 0x140 => { s with net := { s.net with connSel := v.extractLsb' 0 10 } }
  | _ => s

/-! ### FLK, STORE, BIST, LADLE (R385, R435, R462, R486) -/

/-- The FLK block (R385). -/
def State.flkWrite (s : State) (o : Nat) (v : Word) : State :=
  match o with
  | 0x000 => { s with flk := { s.flk with evt := clr s.flk.evt v 16 } }
  | 0x020 => { s with flk := { s.flk with sel := v.extractLsb' 0 4 } }
  | _ => s

/-- The STORE block: the priorities are RWL, FREEZE is RW (R435, R493). -/
def State.storeWrite (s : State) (o : Nat) (v : Word) : State :=
  match o with
  | 0x000 =>
    let s := { s with store := { s.store with freeze := bit v 8 } }
    s.lockedWrite (fun s => { s with store := { s.store with prio := v.extractLsb' 0 8 } })
  | 0x004 => { s with store := { s.store with evt := clr s.store.evt v 16 } }
  | _ => s

/-- The BIST block (R486). -/
def State.bistWrite (s : State) (o : Nat) (v : Word) : State :=
  match o with
  | 0x000 => s.lockedWrite (fun s =>
      if 1 ≤ fld v 7 0 ∧ fld v 7 0 ≤ 60 then { s with bist := { s.bist with per := v.extractLsb' 0 8 } } else s.bistEvt 5)
  | 0x004 => { s with bist := { s.bist with evt := clr s.bist.evt v 16 } }
  | _ => s

/-- The LADLE block (R462). -/
def State.ladleWrite (s : State) (o : Nat) (v : Word) : State :=
  if o < 0x050 then (if o % 16 = 0 then s.writeLadleCfg (o / 16) v else s)
  else if o = 0x050 then { s with ladle := { s.ladle with evt := clr s.ladle.evt v 16 } }
  else if o = 0x060 then s.lockedWrite (fun s => { s with ladle := { s.ladle with tpc := v.extractLsb' 0 8 } })
  else if o < 0x080 then s
  else
    let w := (o - 0x080) / 4
    let put := fun (t : Tab Byte) (k : Nat) => Tab.put 60 t (4 * w + k) (v.extractLsb' (8 * k) 8)
    s.lockedWrite (fun s => { s with ladle := { s.ladle with oc := (List.range 4).foldl put s.ladle.oc } })

/-! ### TRIP, FLD, PAIR, CELLDIR (R144, R186, R204, R239, R308, R502) -/

/-- Ones written at bit `lsb` of a long W1C field, from its word `w` on. -/
def clrAt {n : Nat} (e : BitVec n) (v : Word) (place : Nat) : BitVec n := e &&& ~~~(v.zeroExtend n <<< place)

/-- The TRIP block (R204). -/
def State.tripWrite (s : State) (o : Nat) (v : Word) : State :=
  match o with
  | 0x060 => { s with lid := { s.lid with new := clrAt s.lid.new v 0 } }
  | 0x064 => { s with lid := { s.lid with new := clrAt s.lid.new v 32 } }
  | 0x068 => { s with lid := { s.lid with evt := clr s.lid.evt v 2 } }
  | _ => s

/-- The FLD block (R144, R186, R502). -/
def State.fldWrite (s : State) (o : Nat) (v : Word) : State :=
  let b := o % 0x010 / 4
  if 0x030 ≤ o ∧ o < 0x040 then { s with regs := { s.regs with inNew := clrAt s.regs.inNew v (32 * b) } }
  else if 0x0C0 ≤ o ∧ o < 0x140 ∧ b = 2 then s.updEnc ((o - 0x0C0) / 16) (fun e => { e with evt := clr e.evt v 2 })
  else if 0x1F0 ≤ o ∧ o < 0x200 then
    { s with regs := { s.regs with
      outNew := clrAt s.regs.outNew (v &&& 0xFFFF#32) (16 * b), tpNew := clrAt s.regs.tpNew (v >>> 16 &&& 0xFF#32) (8 * b) } }
  else if 0x270 ≤ o ∧ o < 0x280 then s.updBank b (fun k => { k with evt := clr k.evt v 16 })
  else if o = 0x290 then { s with regs := { s.regs with fldSel := v.extractLsb' 0 8 } }
  else s

/-- The PAIR block (R239). -/
def State.pairWrite (s : State) (o : Nat) (v : Word) : State :=
  match o with
  | 0x030 => { s with regs := { s.regs with pairNew := clr s.regs.pairNew v 0 } }
  | 0x034 => { s with regs := { s.regs with pairEvt := clr s.regs.pairEvt v 0 } }
  | _ => s

/-- The CELLDIR block (R308). -/
def State.cellWrite (s : State) (o : Nat) (v : Word) : State :=
  if 0x180 ≤ o ∧ o < 0x200 then { s with regs := { s.regs with cellNew := clrAt s.regs.cellNew v (32 * ((o - 0x180) / 4)) } }
  else if o = 0x200 then { s with regs := { s.regs with cellEvt := clr s.regs.cellEvt v 0 } }
  else if o = 0x300 then { s with regs := { s.regs with cellSel := v.extractLsb' 0 10 } }
  else s

/-! ### BAR0 as a whole -/

/-- A host write of a BAR0 offset (R389, R489, R490). -/
def State.bar0Write (s : State) (a : Nat) (v : Word) : State :=
  let o := a % 1024
  let v := s.w1c a v
  if a % 4 ≠ 0 ∨ offsetInUse a = false then s.accErr
  else match a / 1024 with
  | 0 => s.sysWrite o v
  | 1 => s.clkWrite o v
  | 2 => s.pwrWrite o v
  | 3 => s.tbWrite o v
  | 4 => s.hifWrite o v
  | 5 => s.netWrite o v
  | 6 => s.flkWrite o v
  | 7 => s.storeWrite o v
  | 8 => s.bistWrite o v
  | 9 => s.ladleWrite o v
  | 10 => s.tripWrite o v
  | 11 => s.cvuDo (o / 0x20) (fun c => c.write s.now (o % 0x20 / 4) v)
  | 12 => s.fldWrite o v
  | 13 => s.pairWrite o v
  | _ => s.cellWrite o v

/-- SYS_LOCK_WRITE (R495). -/
def execSysLockWrite (v : Word) (s : State) : Host.Outcome State Fault Refusal := doneSettled (s.hostWrite.writeLock v)

/-- REGISTER_WRITE (R489). -/
def execRegisterWrite (offset : BitVec 14) (v : Word) (s : State) : Host.Outcome State Fault Refusal :=
  doneSettled (s.hostWrite.bar0Write offset.toNat v)

/-! ### The check-value units (R498) -/

/-- A CVU takes a write that starts a run (R498). -/
def execCvuStart (n : Fin 8) (v : Word) (s : State) : Host.Outcome State Fault Refusal :=
  doneSettled (s.hostWrite.cvuDo n (fun c => c.write s.now 0 v))

/-- A CVU takes a write that stops its run; VAL holds (R498). -/
def execCvuStop (n : Fin 8) (v : Word) (s : State) : Host.Outcome State Fault Refusal :=
  doneSettled (s.hostWrite.cvuDo n (fun c => c.write s.now 0 v))

/-- Any other write to a register of a CVU (R498, R501). -/
def execCvuRegisterWrite (n : Fin 8) (reg : Fin 8) (v : Word) (s : State) : Host.Outcome State Fault Refusal :=
  doneSettled (s.hostWrite.cvuDo n (fun c => c.write s.now reg (s.w1c (0x2C00 + 0x20 * n.val + 4 * reg.val) v)))

/-! ### Reads (R389) -/

/-- A 32-bit word of BAR2 (R388, R394): a doorbell reads the last index it accepted, 0 after its queue pair was enabled;
the MSI-X table; the pending bits. -/
def State.bar2Read (s : State) (a : Nat) : Word :=
  if a < 0x200 then (if a % 8 = 0 then (s.qp (a / 8)).sqp else (s.qp (a / 8)).cqc).zeroExtend 32
  else if 0x800 ≤ a ∧ a < 0xC10 then
    let i := (a - 0x800) / 4
    if i % 4 = 3 then atBit 32 0 (bit s.hif.mask (i / 4)) else Tab.get 0 s.hif.msix i
  else if 0xE00 ≤ a ∧ a < 0xE10 then wordOf (fun i => bit s.hif.pend (32 * ((a - 0xE00) / 4) + i))
  else 0

/-- BAR2 offsets that are not reserved (R388). -/
def bar2InUse (a : Nat) : Bool := decide (a < 0x200) || (decide (0x800 ≤ a) && decide (a < 0xC10)) || (decide (0xE00 ≤ a) && decide (a < 0xE10))

/-- The access is one that R389 accepts: an aligned 32-bit read, a 64-bit read of the MSI-X table or the pending bits, or
that of TB_LO. -/
def readAccepted (bar2 : Bool) (a bytes : Nat) : Bool :=
  if bar2 then
    (bytes == 4 && a % 4 == 0 && bar2InUse a) || (bytes == 8 && a % 8 == 0 && decide (0x800 ≤ a) && bar2InUse a)
  else (bytes == 4 && a % 4 == 0 && offsetInUse a) || (bytes == 8 && a == 0x0C00)

/-- An accepted read of BAR0: the value of the register, and at the first register of a latched group its latch (R492). -/
def State.hostRead (s : State) (a bytes : Nat) : Host.Outcome State Fault Refusal :=
  if a = 0x0C00 then execTbLoRead .host (if bytes = 8 then .wide else .lo) s
  else if a = 0x0408 then execClkIncLoRead s
  else if a = 0x1524 then execStatLoRead s
  else if 0x3140 ≤ a ∧ a < 0x31C0 ∧ a % 16 = 0 then execCapLoRead (Fin.ofNat 8 ((a - 0x3140) / 16)) .host s
  else doneSettled (s.ret (s.bar0Read a))

/-- RESERVED_RANGE_READ (R389): 0 and ACC_EVT; an access that R389 accepts returns what it reads. -/
def execReservedRangeRead (bar2 : Bool) (offset : BitVec 14) (bytes : Nat) (s : State) : Host.Outcome State Fault Refusal :=
  let a := offset.toNat
  if readAccepted bar2 a bytes then
    if bar2 then doneSettled (s.ret (s.bar2Read a) (if bytes = 8 then s.bar2Read (a + 4) else 0))
    else s.hostRead a bytes
  else doneSettled (s.accErr.ret 0)

end Sys2Proof.Machine
end

