-- ==== Sys2Proof/Machine/Dispatch.lean ====
section
/-! DEFINITION. The dispatch of the commands: one arm per constructor of `Instr`. -/

namespace Sys2Proof.Machine

def exec (i : Instr) (s : State) : Host.Outcome State Fault Refusal :=
  match i with
  | .vsysStartThreshold => Sys2Proof.Machine.execVsysStartThreshold s
  | .startUp obs => Sys2Proof.Machine.execStartUp obs s
  | .unlockedLoad => Sys2Proof.Machine.execUnlockedLoad s
  | .vsysHoldUpCrossing => Sys2Proof.Machine.execVsysHoldUpCrossing s
  | .dipRideThrough => Sys2Proof.Machine.execDipRideThrough s
  | .powerFailure => Sys2Proof.Machine.execPowerFailure s
  | .powerFailReset => Sys2Proof.Machine.execPowerFailReset s
  | .overvoltageEvent => Sys2Proof.Machine.execOvervoltageEvent s
  | .railOutOfWindow r => Sys2Proof.Machine.execRailOutOfWindow r s
  | .coreOvertemperature t => Sys2Proof.Machine.execCoreOvertemperature t s
  | .holdNotCharged hold => Sys2Proof.Machine.execHoldNotCharged hold s
  | .rstnLow ns => Sys2Proof.Machine.execRstnLow ns s
  | .rstnRelease => Sys2Proof.Machine.execRstnRelease s
  | .stbynLow => Sys2Proof.Machine.execStbynLow s
  | .standbyRequest => Sys2Proof.Machine.execStandbyRequest s
  | .wakeByStbyn => Sys2Proof.Machine.execWakeByStbyn s
  | .wakeByWake => Sys2Proof.Machine.execWakeByWake s
  | .pePerstnLow => Sys2Proof.Machine.execPePerstnLow s
  | .functionLevelReset => Sys2Proof.Machine.execFunctionLevelReset s
  | .hotReset => Sys2Proof.Machine.execHotReset s
  | .dlDown => Sys2Proof.Machine.execDlDown s
  | .d3hotTransition enter => Sys2Proof.Machine.execD3hotTransition enter s
  | .pllLockLoss => Sys2Proof.Machine.execPllLockLoss s
  | .refclkCheck ppm => Sys2Proof.Machine.execRefclkCheck ppm s
  | .lfOscillatorChange runs => Sys2Proof.Machine.execLfOscillatorChange runs s
  | .safeOkRefreshLoss => Sys2Proof.Machine.execSafeOkRefreshLoss s
  | .tbLoRead p what => Sys2Proof.Machine.execTbLoRead p what s
  | .capLoRead e r => Sys2Proof.Machine.execCapLoRead e r s
  | .statLoRead => Sys2Proof.Machine.execStatLoRead s
  | .clkIncLoRead => Sys2Proof.Machine.execClkIncLoRead s
  | .tcmpLoWrite n v => Sys2Proof.Machine.execTcmpLoWrite n v s
  | .tcmpHiWrite n v => Sys2Proof.Machine.execTcmpHiWrite n v s
  | .tcmpActWrite n v => Sys2Proof.Machine.execTcmpActWrite n v s
  | .tcmpFlagOnly n => Sys2Proof.Machine.execTcmpFlagOnly n s
  | .tcmpSetStandardOutput n => Sys2Proof.Machine.execTcmpSetStandardOutput n s
  | .tcmpHostSnapshot n => Sys2Proof.Machine.execTcmpHostSnapshot n s
  | .tcmpCellSnapshot n => Sys2Proof.Machine.execTcmpCellSnapshot n s
  | .tcmpPermitRelease n => Sys2Proof.Machine.execTcmpPermitRelease n s
  | .tcmpTestPulseScheduleStart n => Sys2Proof.Machine.execTcmpTestPulseScheduleStart n s
  | .tcmpCellExchange n => Sys2Proof.Machine.execTcmpCellExchange n s
  | .tcmpSs1Launch n => Sys2Proof.Machine.execTcmpSs1Launch n s
  | .tcmpHandover n => Sys2Proof.Machine.execTcmpHandover n s
  | .etFire e k => Sys2Proof.Machine.execEtFire e k s
  | .etReload e k => Sys2Proof.Machine.execEtReload e k s
  | .cycleBudgetOverrun e both => Sys2Proof.Machine.execCycleBudgetOverrun e both s
  | .etValueWrite e k v => Sys2Proof.Machine.execEtValueWrite e k v s
  | .etModeWrite e v => Sys2Proof.Machine.execEtModeWrite e v s
  | .etWdWrite e v => Sys2Proof.Machine.execEtWdWrite e v s
  | .ptpMessageReceive m msg => Sys2Proof.Machine.execPtpMessageReceive m msg s
  | .lockTimeout => Sys2Proof.Machine.execLockTimeout s
  | .leapSecondMidnight => Sys2Proof.Machine.execLeapSecondMidnight s
  | .inputEdge n level partner => Sys2Proof.Machine.execInputEdge n level partner s
  | .lidMaskCheck l o => Sys2Proof.Machine.execLidMaskCheck l o s
  | .inputLaneStatusWord n w ok => Sys2Proof.Machine.execInputLaneStatusWord n w ok s
  | .wettingEnd h sinkOk => Sys2Proof.Machine.execWettingEnd h sinkOk s
  | .tpWindowStart n => Sys2Proof.Machine.execTpWindowStart n s
  | .tpWindowEnd n => Sys2Proof.Machine.execTpWindowEnd n s
  | .foreignWindowEnd n k => Sys2Proof.Machine.execForeignWindowEnd n k s
  | .ossdHoldExpiry n => Sys2Proof.Machine.execOssdHoldExpiry n s
  | .ossdNoTest n => Sys2Proof.Machine.execOssdNoTest n s
  | .filterExpiry n => Sys2Proof.Machine.execFilterExpiry n s
  | .wireBreakMeasurement n below => Sys2Proof.Machine.execWireBreakMeasurement n below s
  | .discTimerExpiry p => Sys2Proof.Machine.execDiscTimerExpiry p s
  | .sinkProbe n sinkOk => Sys2Proof.Machine.execSinkProbe n sinkOk s
  | .inputApplied p => Sys2Proof.Machine.execInputApplied p s
  | .encoderEdge e a b => Sys2Proof.Machine.execEncoderEdge e a b s
  | .outputTurnOff o => Sys2Proof.Machine.execOutputTurnOff o s
  | .outputTurnOn o => Sys2Proof.Machine.execOutputTurnOn o s
  | .ladleGrant d => Sys2Proof.Machine.execLadleGrant d s
  | .ladleOverdraw d => Sys2Proof.Machine.execLadleOverdraw d s
  | .ladleReturn d site => Sys2Proof.Machine.execLadleReturn d site s
  | .ladleRefill d => Sys2Proof.Machine.execLadleRefill d s
  | .ladleAudit b repA repB flightA flightB backA backB => Sys2Proof.Machine.execLadleAudit b repA repB flightA flightB backA backB s
  | .ladleCfgWrite d v => Sys2Proof.Machine.execLadleCfgWrite d v s
  | .currentLimitExpiry o => Sys2Proof.Machine.execCurrentLimitExpiry o s
  | .thermalShutdown j => Sys2Proof.Machine.execThermalShutdown j s
  | .bankCurrentAverage b h r => Sys2Proof.Machine.execBankCurrentAverage b h r s
  | .elementOffPulse o x => Sys2Proof.Machine.execElementOffPulse o x s
  | .pulseVerdict o r fallen => Sys2Proof.Machine.execPulseVerdict o r fallen s
  | .offCheck o ra rb => Sys2Proof.Machine.execOffCheck o ra rb s
  | .darkTestProbe o x readings fallen => Sys2Proof.Machine.execDarkTestProbe o x readings fallen s
  | .continuousOutputCheck o h r limiting => Sys2Proof.Machine.execContinuousOutputCheck o h r limiting s
  | .controlLaneReport o h verdict raw => Sys2Proof.Machine.execControlLaneReport o h verdict raw s
  | .outputLaneStatusWord o x w ok => Sys2Proof.Machine.execOutputLaneStatusWord o x w ok s
  | .stdMismatch r => Sys2Proof.Machine.execStdMismatch r s
  | .outputCodeClear o => Sys2Proof.Machine.execOutputCodeClear o s
  | .heartbeat b h w ok => Sys2Proof.Machine.execHeartbeat b h w ok s
  | .silExpired b h => Sys2Proof.Machine.execSilExpired b h s
  | .vfLow b h => Sys2Proof.Machine.execVfLow b h s
  | .vfHigh b h => Sys2Proof.Machine.execVfHigh b h s
  | .vfDip b h => Sys2Proof.Machine.execVfDip b h s
  | .vfRecovery r => Sys2Proof.Machine.execVfRecovery r s
  | .halfBrownOut b h => Sys2Proof.Machine.execHalfBrownOut b h s
  | .tpSourceOffPulse t start => Sys2Proof.Machine.execTpSourceOffPulse t start s
  | .tpSourceReadback t r => Sys2Proof.Machine.execTpSourceReadback t r s
  | .tpOverload t => Sys2Proof.Machine.execTpOverload t s
  | .tpSourceRetry t good => Sys2Proof.Machine.execTpSourceRetry t good s
  | .cellRelease c => Sys2Proof.Machine.execCellRelease c s
  | .permitRenewalExpiry slot second => Sys2Proof.Machine.execPermitRenewalExpiry slot second s
  | .degr50 c => Sys2Proof.Machine.execDegr50 c s
  | .degr90 c => Sys2Proof.Machine.execDegr90 c s
  | .degrExpiry c => Sys2Proof.Machine.execDegrExpiry c s
  | .add e rd rs rt => Sys2Proof.Machine.execAdd e rd rs rt s
  | .sub e rd rs rt => Sys2Proof.Machine.execSub e rd rs rt s
  | .and e rd rs rt => Sys2Proof.Machine.execAnd e rd rs rt s
  | .or e rd rs rt => Sys2Proof.Machine.execOr e rd rs rt s
  | .xor e rd rs rt => Sys2Proof.Machine.execXor e rd rs rt s
  | .nor e rd rs rt => Sys2Proof.Machine.execNor e rd rs rt s
  | .sll e rd rs rt => Sys2Proof.Machine.execSll e rd rs rt s
  | .srl e rd rs rt => Sys2Proof.Machine.execSrl e rd rs rt s
  | .sra e rd rs rt => Sys2Proof.Machine.execSra e rd rs rt s
  | .slt e rd rs rt => Sys2Proof.Machine.execSlt e rd rs rt s
  | .sltu e rd rs rt => Sys2Proof.Machine.execSltu e rd rs rt s
  | .mul e rd rs rt => Sys2Proof.Machine.execMul e rd rs rt s
  | .mulh e rd rs rt => Sys2Proof.Machine.execMulh e rd rs rt s
  | .mulhu e rd rs rt => Sys2Proof.Machine.execMulhu e rd rs rt s
  | .div e rd rs rt => Sys2Proof.Machine.execDiv e rd rs rt s
  | .divu e rd rs rt => Sys2Proof.Machine.execDivu e rd rs rt s
  | .rem e rd rs rt => Sys2Proof.Machine.execRem e rd rs rt s
  | .remu e rd rs rt => Sys2Proof.Machine.execRemu e rd rs rt s
  | .min e rd rs rt => Sys2Proof.Machine.execMin e rd rs rt s
  | .max e rd rs rt => Sys2Proof.Machine.execMax e rd rs rt s
  | .addsat e rd rs rt => Sys2Proof.Machine.execAddsat e rd rs rt s
  | .subsat e rd rs rt => Sys2Proof.Machine.execSubsat e rd rs rt s
  | .kand e rd rs rt => Sys2Proof.Machine.execKand e rd rs rt s
  | .kor e rd rs rt => Sys2Proof.Machine.execKor e rd rs rt s
  | .kxor e rd rs rt => Sys2Proof.Machine.execKxor e rd rs rt s
  | .kandn e rd rs rt => Sys2Proof.Machine.execKandn e rd rs rt s
  | .korn e rd rs rt => Sys2Proof.Machine.execKorn e rd rs rt s
  | .knot e rd rs => Sys2Proof.Machine.execKnot e rd rs s
  | .kmov e rd rs => Sys2Proof.Machine.execKmov e rd rs s
  | .keq e rd rs rt => Sys2Proof.Machine.execKeq e rd rs rt s
  | .kne e rd rs rt => Sys2Proof.Machine.execKne e rd rs rt s
  | .klt e rd rs rt => Sys2Proof.Machine.execKlt e rd rs rt s
  | .kltu e rd rs rt => Sys2Proof.Machine.execKltu e rd rs rt s
  | .kge e rd rs rt => Sys2Proof.Machine.execKge e rd rs rt s
  | .kgeu e rd rs rt => Sys2Proof.Machine.execKgeu e rd rs rt s
  | .kbit e rd rs rt => Sys2Proof.Machine.execKbit e rd rs rt s
  | .gfk e rd rs => Sys2Proof.Machine.execGfk e rd rs s
  | .kfg e rd rs => Sys2Proof.Machine.execKfg e rd rs s
  | .sel e rd rs rt k => Sys2Proof.Machine.execSel e rd rs rt k s
  | .addI e rd rs imm => Sys2Proof.Machine.execAddI e rd rs imm s
  | .andI e rd rs imm => Sys2Proof.Machine.execAndI e rd rs imm s
  | .orI e rd rs imm => Sys2Proof.Machine.execOrI e rd rs imm s
  | .xorI e rd rs imm => Sys2Proof.Machine.execXorI e rd rs imm s
  | .sltI e rd rs imm => Sys2Proof.Machine.execSltI e rd rs imm s
  | .sltuI e rd rs imm => Sys2Proof.Machine.execSltuI e rd rs imm s
  | .hi16 e rd imm => Sys2Proof.Machine.execHi16 e rd imm s
  | .shI e rd rs k amount => Sys2Proof.Machine.execShI e rd rs k amount s
  | .ldw e rd rs imm => Sys2Proof.Machine.execLdw e rd rs imm s
  | .ldh e rd rs imm => Sys2Proof.Machine.execLdh e rd rs imm s
  | .ldhu e rd rs imm => Sys2Proof.Machine.execLdhu e rd rs imm s
  | .ldb e rd rs imm => Sys2Proof.Machine.execLdb e rd rs imm s
  | .ldbu e rd rs imm => Sys2Proof.Machine.execLdbu e rd rs imm s
  | .stw e rd rs imm => Sys2Proof.Machine.execStw e rd rs imm s
  | .sth e rd rs imm => Sys2Proof.Machine.execSth e rd rs imm s
  | .stb e rd rs imm => Sys2Proof.Machine.execStb e rd rs imm s
  | .orq e rd rs imm => Sys2Proof.Machine.execOrq e rd rs imm s
  | .ork e rd rs imm => Sys2Proof.Machine.execOrk e rd rs imm s
  | .beq e rs rt off => Sys2Proof.Machine.execBeq e rs rt off s
  | .bne e rs rt off => Sys2Proof.Machine.execBne e rs rt off s
  | .blt e rs rt off => Sys2Proof.Machine.execBlt e rs rt off s
  | .bge e rs rt off => Sys2Proof.Machine.execBge e rs rt off s
  | .bltu e rs rt off => Sys2Proof.Machine.execBltu e rs rt off s
  | .bgeu e rs rt off => Sys2Proof.Machine.execBgeu e rs rt off s
  | .bkt e rs off => Sys2Proof.Machine.execBkt e rs off s
  | .bkf e rs off => Sys2Proof.Machine.execBkf e rs off s
  | .j e off => Sys2Proof.Machine.execJ e off s
  | .call e off => Sys2Proof.Machine.execCall e off s
  | .jmpr e rd rs => Sys2Proof.Machine.execJmpr e rd rs s
  | .loop e imm rs cnt last => Sys2Proof.Machine.execLoop e imm rs cnt last s
  | .wait e => Sys2Proof.Machine.execWait e s
  | .brk e => Sys2Proof.Machine.execBrk e s
  | .mode e cell => Sys2Proof.Machine.execMode e cell s
  | .chkp e c => Sys2Proof.Machine.execChkp e c s
  | .chkpTest e ident cmpX cmpY => Sys2Proof.Machine.execChkpTest e ident cmpX cmpY s
  | .sealTimeout k => Sys2Proof.Machine.execSealTimeout k s
  | .mismatchSelfTestEnd k passEven passOdd => Sys2Proof.Machine.execMismatchSelfTestEnd k passEven passOdd s
  | .engineSelfTestPeriodic e pass => Sys2Proof.Machine.execEngineSelfTestPeriodic e pass s
  | .sadj e r => Sys2Proof.Machine.execSadj e r s
  | .rdh e r c => Sys2Proof.Machine.execRdh e r c s
  | .wrh e r c => Sys2Proof.Machine.execWrh e r c s
  | .sys e imm => Sys2Proof.Machine.execSys e imm s
  | .rth e => Sys2Proof.Machine.execRth e s
  | .eventEntry e => Sys2Proof.Machine.execEventEntry e s
  | .scrubRead c w upsets => Sys2Proof.Machine.execScrubRead c w upsets s
  | .engineDebugHalt e => Sys2Proof.Machine.execEngineDebugHalt e s
  | .debugRelease e => Sys2Proof.Machine.execDebugRelease e s
  | .moduleDebugHalt => Sys2Proof.Machine.execModuleDebugHalt s
  | .moduleDebugRelease => Sys2Proof.Machine.execModuleDebugRelease s
  | .tapReset => Sys2Proof.Machine.execTapReset s
  | .bootHold => Sys2Proof.Machine.execBootHold s
  | .scanEn readBackZero => Sys2Proof.Machine.execScanEn readBackZero s
  | .extest => Sys2Proof.Machine.execExtest s
  | .clamp => Sys2Proof.Machine.execClamp s
  | .samplePreload => Sys2Proof.Machine.execSamplePreload s
  | .bypass => Sys2Proof.Machine.execBypass s
  | .wilisDataTransmit c => Sys2Proof.Machine.execWilisDataTransmit c s
  | .connectTransmit c => Sys2Proof.Machine.execConnectTransmit c s
  | .data m x f => Sys2Proof.Machine.execData m x f s
  | .connect m x f => Sys2Proof.Machine.execConnect m x f s
  | .accept m x f => Sys2Proof.Machine.execAccept m x f s
  | .reject m x f => Sys2Proof.Machine.execReject m x f s
  | .close m x f => Sys2Proof.Machine.execClose m x f s
  | .wilisWatchdogExpiry c => Sys2Proof.Machine.execWilisWatchdogExpiry c s
  | .pathDown c second => Sys2Proof.Machine.execPathDown c second s
  | .failedRetry c => Sys2Proof.Machine.execFailedRetry c s
  | .ethernetFrameReceive m f fcsOk pause => Sys2Proof.Machine.execEthernetFrameReceive m f fcsOk pause s
  | .sgmiiLinkChange m l => Sys2Proof.Machine.execSgmiiLinkChange m l s
  | .fiminlinkCycleStart => Sys2Proof.Machine.execFiminlinkCycleStart s
  | .fiminlinkSlotAssembly => Sys2Proof.Machine.execFiminlinkSlotAssembly s
  | .fiminlinkSlotReceive r body whole slot arrival => Sys2Proof.Machine.execFiminlinkSlotReceive r body whole slot arrival s
  | .fiminlinkSyncReceive r body capture => Sys2Proof.Machine.execFiminlinkSyncReceive r body capture s
  | .listenExpiry => Sys2Proof.Machine.execListenExpiry s
  | .backoffExpiry => Sys2Proof.Machine.execBackoffExpiry s
  | .moduleLost m => Sys2Proof.Machine.execModuleLost m s
  | .fiminlinkLinkDown r => Sys2Proof.Machine.execFiminlinkLinkDown r s
  | .fiminlinkLinkUp r => Sys2Proof.Machine.execFiminlinkLinkUp r s
  | .sqDoorbell q v => Sys2Proof.Machine.execSqDoorbell q v s
  | .cqDoorbell q v => Sys2Proof.Machine.execCqDoorbell q v s
  | .sqFetch q => Sys2Proof.Machine.execSqFetch q s
  | .qpEnable q v => Sys2Proof.Machine.execQpEnable q v s
  | .qpDisable q v => Sys2Proof.Machine.execQpDisable q v s
  | .cqInterruptTimer q => Sys2Proof.Machine.execCqInterruptTimer q s
  | .hostSilenceOnset => Sys2Proof.Machine.execHostSilenceOnset s
  | .nop q => Sys2Proof.Machine.execNop q s
  | .piRead q => Sys2Proof.Machine.execPiRead q s
  | .piWrite q => Sys2Proof.Machine.execPiWrite q s
  | .diagReadFaultRecords q => Sys2Proof.Machine.execDiagReadFaultRecords q s
  | .diagReadAvailability q => Sys2Proof.Machine.execDiagReadAvailability q s
  | .diagReadMasks q => Sys2Proof.Machine.execDiagReadMasks q s
  | .diagReadDescriptor q => Sys2Proof.Machine.execDiagReadDescriptor q s
  | .diagReadSite q => Sys2Proof.Machine.execDiagReadSite q s
  | .diagReadBist q => Sys2Proof.Machine.execDiagReadBist q s
  | .logRead q => Sys2Proof.Machine.execLogRead q s
  | .ack q => Sys2Proof.Machine.execAck q s
  | .timeSet q => Sys2Proof.Machine.execTimeSet q s
  | .offsetSet q => Sys2Proof.Machine.execOffsetSet q s
  | .sessOpen q => Sys2Proof.Machine.execSessOpen q s
  | .lockoutEnd r => Sys2Proof.Machine.execLockoutEnd r s
  | .sessWrite q => Sys2Proof.Machine.execSessWrite q s
  | .sessCommit q => Sys2Proof.Machine.execSessCommit q s
  | .sessClose q => Sys2Proof.Machine.execSessClose q s
  | .sessionIdleTimeout r => Sys2Proof.Machine.execSessionIdleTimeout r s
  | .cellExchange q => Sys2Proof.Machine.execCellExchange q s
  | .exchangeLoadDone => Sys2Proof.Machine.execExchangeLoadDone s
  | .exchangeCarryCopy => Sys2Proof.Machine.execExchangeCarryCopy s
  | .handoverEnd => Sys2Proof.Machine.execHandoverEnd s
  | .cellMove q => Sys2Proof.Machine.execCellMove q s
  | .pairSplit q => Sys2Proof.Machine.execPairSplit q s
  | .pairMerge q passEven passOdd injection => Sys2Proof.Machine.execPairMerge q passEven passOdd injection s
  | .cellRestart q => Sys2Proof.Machine.execCellRestart q s
  | .unitReset q r => Sys2Proof.Machine.execUnitReset q r s
  | .frameTx q => Sys2Proof.Machine.execFrameTx q s
  | .rxPost q => Sys2Proof.Machine.execRxPost q s
  | .storeGrant => Sys2Proof.Machine.execStoreGrant s
  | .storeOperationDone x => Sys2Proof.Machine.execStoreOperationDone x s
  | .storePeriodicCheck bad => Sys2Proof.Machine.execStorePeriodicCheck bad s
  | .bistRunStart => Sys2Proof.Machine.execBistRunStart s
  | .bistRunEnd items => Sys2Proof.Machine.execBistRunEnd items s
  | .bistConditionLapse => Sys2Proof.Machine.execBistConditionLapse s
  | .rowTestTimeout => Sys2Proof.Machine.execRowTestTimeout s
  | .bistRunTimeout => Sys2Proof.Machine.execBistRunTimeout s
  | .sysLockWrite v => Sys2Proof.Machine.execSysLockWrite v s
  | .cvuStart n v => Sys2Proof.Machine.execCvuStart n v s
  | .cvuStop n v => Sys2Proof.Machine.execCvuStop n v s
  | .cvuRegisterWrite n reg v => Sys2Proof.Machine.execCvuRegisterWrite n reg v s
  | .registerWrite offset v => Sys2Proof.Machine.execRegisterWrite offset v s
  | .inputLaneWordMissing n => Sys2Proof.Machine.execInputLaneWordMissing n s
  | .outputLaneWordMissing o x => Sys2Proof.Machine.execOutputLaneWordMissing o x s
  | .ossdStartHoldExpiry n => Sys2Proof.Machine.execOssdStartHoldExpiry n s
  | .holdExhausted => Sys2Proof.Machine.execHoldExhausted s
  | .holdCharged => Sys2Proof.Machine.execHoldCharged s
  | .illegalInstruction e w => Sys2Proof.Machine.execIllegalInstruction e w s
  | .debugMemoryWrite e addr a tag => Sys2Proof.Machine.execDebugMemoryWrite e addr a tag s
  | .pePerstnRelease => Sys2Proof.Machine.execPePerstnRelease s
  | .dlUp => Sys2Proof.Machine.execDlUp s
  | .dmaReadCompletion q d => Sys2Proof.Machine.execDmaReadCompletion q d s
  | .completionTimeout q entry => Sys2Proof.Machine.execCompletionTimeout q entry s
  | .passwordCheckDone r => Sys2Proof.Machine.execPasswordCheckDone r s
  | .reservedRangeRead bar2 offset bytes => Sys2Proof.Machine.execReservedRangeRead bar2 offset bytes s
  | .msiXTableWrite offset v => Sys2Proof.Machine.execMsiXTableWrite offset v s
  | .announceReceiptTimeout m => Sys2Proof.Machine.execAnnounceReceiptTimeout m s
  | .ptpDelayRequestSend m => Sys2Proof.Machine.execPtpDelayRequestSend m s
  | .thermalRelease j => Sys2Proof.Machine.execThermalRelease j s
  | .coreTemperatureFall t => Sys2Proof.Machine.execCoreTemperatureFall t s

end Sys2Proof.Machine
end

