-- ==== Sys2Proof/Machine/Tick.lean ====
section
/-! DEFINITION. What a tick of the clock that runs TB does where no command waits (R82, R92, R102, R456). -/

namespace Sys2Proof.Machine

/-- A reload timer that runs counts down by 4 ns (R102). -/
def EtTimer.tick (t : EtTimer) : EtTimer := if t.armed && t.count != 0 then { t with count := t.count - 4 } else t

/-- ET_WD counts down by 4 ns; at zero its overrun is pending (R102, R221). -/
def Engine.tick (x : Engine) : Engine :=
  let et := Tab.mapVal {} EtTimer.tick x.et
  if x.wd = 0 then { x with et := et } else { x with et := et, wd := x.wd - 4, wdHit := x.wdHit || x.wd == 4 }

/-- What holds within one tick only ends: the W1C bits set in it (R9) and the latches that left ARMED or became RELEASABLE in
it (R198, R204). -/
def LidS.nextTick (l : LidS) : LidS := { l with relNowA := 0, relNowB := 0, tripNow := 0, tripNowA := 0 }

/-- A tick of the fabric clock: TB, the engines' timers, the Ladle's refill accumulators, the lockouts (R82, R102, R427, R456). -/
def State.fabricTick (s : State) : State :=
  { s with tb := s.tb.tick, engs := Tab.mapVal {} Engine.tick s.engs, lid := s.lid.nextTick, setNow := [],
           ladle := { s.ladle with vsys := s.ladle.vsys.tick, vf := Tab.mapVal {} Bucket.tick s.ladle.vf },
           store := { s.store with maint := s.store.maint.tick, safety := s.store.safety.tick } }

/-- A tick of the 32.768 kHz clock: TB alone advances (R92). -/
def State.lfTick (s : State) : State := { s with tb := s.tb.lfTick, lid := s.lid.nextTick, setNow := [] }

/-- Channels whose latched code cleared in the tick before are evaluated (R135). -/
def State.seeCleared (s : State) : State :=
  if s.regs.clrNow = [] then s
  else
    let l := s.regs.clrNow
    (l.foldl (fun (s : State) n => s.afterQual n) { s with regs := { s.regs with clrNow := [] } }).settle

/-- The commits that have matched take effect before the tick ends (R219). -/
def State.land (s : State) : State := if s.perm.due = [] then s else s.takeEffect.settle

/-- What waits for the end of a tick: matched commits (R219), the host interface (R411), a BIST run that has ended (R485), and a lock
for which the start-up waits (R466). -/
def State.tickEnd (s : State) : State := s.land.hostTick.reportRun.lockedLoad

/-- One tick: of the LF clock where TB runs from it (R92), of the fabric clock where the core side runs, and none where
neither does. -/
def State.tick (s : State) : State :=
  if s.tb.lfRun then s.lfTick.seeCleared
  else if s.coreUp && s.pwr.phase.powered then s.tickEnd.fabricTick.seeCleared
  else s

end Sys2Proof.Machine
end

