-- ==== Sys2Proof/Safety.lean ====
section
/-! DEFINITION. The words in which the statements are written: an answer with a property, the invariants that every step
keeps, when an engine runs an instruction without a fault, and tables of what the instructions of a family compute. -/

namespace Sys2Proof.Safety

open Sys2Proof Sys2Proof.Machine

/-- The outcome is a next state with a property. -/
def Gives (o : Host.Outcome State Fault Refusal) (P : State → Prop) : Prop := ∃ t, o = .next t ∧ P t

/-! ### Invariants -/

/-- The pins show their conditions (R27, R72). -/
def PinsFollow (s : State) : Prop := s.sys.safeOk = s.safeOkNow ∧ s.sys.faultn = s.faultnNow

/-- What must hold, whatever the output's own state, for element x of output o to conduct (R149, R177, R195, R465). -/
def mayConduct (s : State) (o : Nat) (x : AB) : Bool :=
  decide (s.pwr.phase = .service) && (s.bank (o / 16)).vf && !s.halfOut (o / 16) x && !(s.half (o / 16) x).quiet &&
    !(s.half (o / 16) x).vfLow && !(s.half (o / 16) x).vfHigh && !s.elOut o x && s.laneUp o x &&
    (match (s.outRec o).mode with
     | 1 => s.permitOn o x && s.lid.armed o x && !(s.half (o / 16) x).silent
     | 2 => true
     | _ => false)

/-- No element conducts without its Lid's latch, its owners' permits and its field half (R149, R195). -/
def ElementsObey (s : State) : Prop :=
  s.coreUp = true → ∀ e ∈ s.outs, ∀ x : AB, (e.2.el x).on = true → mayConduct s e.1 x = true

/-- In service no ARMED latch has an active masked term, no latch is in two states, and a faulty Lid's latches are TRIPPED
(R195, R196, R202). -/
def LatchesHold (s : State) : Prop :=
  s.coreUp = true → s.pwr.phase = .service →
    (∀ e ∈ s.lid.maskA, bit s.lid.armA e.1 = true → s.lowestHit e.2 = none) ∧
    (∀ e ∈ s.lid.maskB, bit s.lid.armB e.1 = true → s.lowestHit e.2 = none) ∧
    s.lid.armA &&& s.lid.relA = 0 ∧ s.lid.armB &&& s.lid.relB = 0 ∧
    (s.lid.faultA = true → s.lid.armA = 0 ∧ s.lid.relA = 0) ∧ (s.lid.faultB = true → s.lid.armB = 0 ∧ s.lid.relB = 0)

/-- The invariant of every step. -/
def Inv (s : State) : Prop := PinsFollow s ∧ ElementsObey s ∧ LatchesHold s

/-! ### A tick with nothing to end -/

/-- Nothing waits for the end of the tick: no matched commit (R219), no late doorbell, frame or silence of the host interface (R411),
no BIST run that has ended (R485), no lock that a start-up waits for (R466), and no channel whose code has cleared (R135). -/
abbrev Quiet (s : State) : Prop :=
  s.perm.due = [] ∧ (s.hif.late = [] ∧ s.hif.rx = [] ∧ (s.hif.silTo = false ∨ s.hif.silent = true)) ∧ s.bist.ended = none ∧
    ¬(s.pwr.phase = .waitLock ∧ s.tb.lock = true) ∧ s.regs.clrNow = []

/-! ### An engine that runs an instruction -/

/-- A word of cluster memory that reads without an error under a tag (R210, R213). -/
def cleanWord (s : State) (cl w : Nat) (tag : Byte) : Bool :=
  let m := s.clu cl
  decide (m.wroteTag w = tag) && decide (m.wroteAt w = BitVec.ofNat 16 w) && decide (Tab.get 0 m.err w = 0)

/-- The instruction at the PC of an engine is fetched without a fault (R246, R263). -/
def cleanFetch (s : State) (e : Nat) : Bool :=
  decide ((s.eng e).pc.toNat % 4 = 0) &&
  match s.admitFetch e (s.eng e) (s.eng e).pc.toNat with
  | .error _ => false
  | .ok (.mem tag) => cleanWord s (e / 4) ((s.eng e).pc.toNat / 4) tag
  | .ok _ => true

/-- Nothing pending comes before the next instruction of an engine: no overrun, no event, no breakpoint (R236, R263, R272). -/
abbrev NothingFirst (s : State) (e : Nat) : Prop :=
  (s.eng e).wdHit = false ∧ s.interrupted e = false ∧ s.atBreak e = false

/-- The word that an engine fetches at its PC: of its cluster memory or of the runtime ROM (R246). -/
def fetchWord (s : State) (e : Nat) : Word :=
  match s.admitFetch e (s.eng e) (s.eng e).pc.toNat with
  | .ok (.mem _) => (s.clu (e / 4)).word (4 * ((s.eng e).pc.toNat / 4))
  | _ => Config.romWord ((s.eng e).pc.toNat / 4)

/-- An engine once the instruction at its PC has been fetched: the word is in its fetch buffer, and the index of its stream counts on
(R206, R215). -/
def fetchedEng (s : State) (e : Nat) : Engine := (s.eng e).fetched (fetchWord s e)

/-- The state in which engine e has fetched its instruction, and is what `f` makes of it. -/
def issued (s : State) (e : Nat) (f : Engine → Engine) : State := s.updEng e (fun x => f (x.fetched (fetchWord s e)))

/-- An engine that issues alone, with nothing pending that comes before its next instruction (R207, R263). -/
abbrev SingleReady (s : State) (e : Nat) : Prop :=
  s.coreUp = true ∧ (s.eng e).role = .single ∧ (s.eng e).stall = false ∧ (s.eng e).sealed = false ∧ (s.eng e).dead = false ∧
    NothingFirst s e ∧ (s.eng e).nreq ≤ 256 ∧ cleanFetch s e = true

/-- Both engines of a pair, leader first and at the same place of their stream, issue with nothing pending that comes before their next
instruction (R214, R215). -/
abbrev PairReady (s : State) (e : Nat) : Prop :=
  s.coreUp = true ∧ e % 2 = 0 ∧ (s.eng e).role = .leader ∧ (s.eng e).stall = false ∧ (s.eng e).sealed = false ∧
    (s.eng e).dead = false ∧ NothingFirst s e ∧ (s.eng e).nreq ≤ 256 ∧ cleanFetch s e = true ∧
    (s.eng (e + 1)).role = .follower ∧ (s.eng (e + 1)).stall = false ∧ (s.eng (e + 1)).sealed = false ∧
    (s.eng (e + 1)).nreq ≤ 256 ∧ (s.eng (e + 1)).qbad = false ∧ (s.eng (e + 1)).queue = [] ∧
    (s.eng (e + 1)).idx = (s.eng e).idx ∧ cleanFetch s (e + 1) = true

/-- The place is neither a delay slot nor the end of a loop body (R255, R260). -/
abbrev PlainPlace (x : Engine) : Prop := x.ds = none ∧ x.atEnd x.pc = false ∧ x.atEnd (x.pc + 4) = false

/-- Engine e runs in runtime mode, outside a mode shadow. -/
abbrev RuntimeMode (x : Engine) : Prop := x.cellM = false ∧ x.mp = 0

/-- Engine e takes a fault of its instruction, and what follows for the cell or the engine (R263, R270, R273). -/
def faulted (s : State) (e cause : Nat) (eva : Word) : State :=
  (s.updEng e (fun _ => ((fetchedEng s e).fault cause eva false).1)).consequence e ((fetchedEng s e).fault cause eva false).2
    (s.running e)

/-! ### A command of a queue pair that runs -/

/-- The next command of queue pair q is d, with this code, and passes the checks that come before its own effect (R391,
R396, R397, R403). -/
abbrev CanRun (s : State) (q opc : Nat) (need : Need) (d : Desc) : Prop :=
  s.nextCmd q = some d ∧ d.opc = opc ∧ (d.net = opcNetwork opc ∨ opc = 1) ∧ d.shapeOk = true ∧ d.memErr = false ∧
    (opcReads opc = true → d.buf.isSome = true) ∧ s.sessionCode q d.sess need = 0

/-- The same for a DIAG_READ with a selector (R404). -/
abbrev CanDiag (s : State) (q sel : Nat) (d : Desc) : Prop := CanRun s q 0x04 .none d ∧ (d.p 0).toNat = sel

/-! ### What the instructions compute (R250 to R252) -/

/-- Instructions that write a general register: engine, register and value. -/
def gResult : Instr → Option (Fin 64 × Fin 32 × (Engine → Word))
  | .add e rd rs rt => some (e, rd, fun x => x.gr rs + x.gr rt)
  | .sub e rd rs rt => some (e, rd, fun x => x.gr rs - x.gr rt)
  | .and e rd rs rt => some (e, rd, fun x => x.gr rs &&& x.gr rt)
  | .or e rd rs rt => some (e, rd, fun x => x.gr rs ||| x.gr rt)
  | .xor e rd rs rt => some (e, rd, fun x => x.gr rs ^^^ x.gr rt)
  | .nor e rd rs rt => some (e, rd, fun x => ~~~(x.gr rs ||| x.gr rt))
  | .sll e rd rs rt => some (e, rd, fun x => x.gr rs <<< ((x.gr rt).toNat % 32))
  | .srl e rd rs rt => some (e, rd, fun x => x.gr rs >>> ((x.gr rt).toNat % 32))
  | .sra e rd rs rt => some (e, rd, fun x => (x.gr rs).sshiftRight ((x.gr rt).toNat % 32))
  | .slt e rd rs rt => some (e, rd, fun x => if (x.gr rs).toInt < (x.gr rt).toInt then 1 else 0)
  | .sltu e rd rs rt => some (e, rd, fun x => if (x.gr rs).toNat < (x.gr rt).toNat then 1 else 0)
  | .mul e rd rs rt => some (e, rd, fun x => x.gr rs * x.gr rt)
  | .mulh e rd rs rt => some (e, rd, fun x => BitVec.ofInt 32 ((x.gr rs).toInt * (x.gr rt).toInt / 2 ^ 32))
  | .mulhu e rd rs rt => some (e, rd, fun x => BitVec.ofNat 32 ((x.gr rs).toNat * (x.gr rt).toNat / 2 ^ 32))
  | .min e rd rs rt => some (e, rd, fun x => if (x.gr rs).toInt < (x.gr rt).toInt then x.gr rs else x.gr rt)
  | .max e rd rs rt => some (e, rd, fun x => if (x.gr rs).toInt < (x.gr rt).toInt then x.gr rt else x.gr rs)
  | .addsat e rd rs rt => some (e, rd, fun x => satS ((x.gr rs).toInt + (x.gr rt).toInt))
  | .subsat e rd rs rt => some (e, rd, fun x => satS ((x.gr rs).toInt - (x.gr rt).toInt))
  | .sel e rd rs rt k => some (e, rd, fun x => if x.kr k then x.gr rs else x.gr rt)
  | .gfk e rd rs => some (e, rd, fun x => if x.kr rs then 1 else 0)
  | .addI e rd rs imm => some (e, rd, fun x => x.gr rs + imm.signExtend 32)
  | .andI e rd rs imm => some (e, rd, fun x => x.gr rs &&& imm.zeroExtend 32)
  | .orI e rd rs imm => some (e, rd, fun x => x.gr rs ||| imm.zeroExtend 32)
  | .xorI e rd rs imm => some (e, rd, fun x => x.gr rs ^^^ imm.zeroExtend 32)
  | .sltI e rd rs imm => some (e, rd, fun x => if (x.gr rs).toInt < imm.toInt then 1 else 0)
  | .sltuI e rd rs imm => some (e, rd, fun x => if (x.gr rs).toNat < (imm.signExtend 32).toNat then 1 else 0)
  | .hi16 e rd imm => some (e, rd, fun _ => imm.zeroExtend 32 <<< 16)
  | .shI e rd rs .left n => some (e, rd, fun x => x.gr rs <<< n.toNat)
  | .shI e rd rs .logical n => some (e, rd, fun x => x.gr rs >>> n.toNat)
  | .shI e rd rs .arithmetic n => some (e, rd, fun x => (x.gr rs).sshiftRight n.toNat)
  | _ => none

/-- Divisions: engine, destination, dividend, divisor, and the result for a divisor that is not 0 and for 0 (R253). -/
def quotient : Instr → Option (Fin 64 × Fin 32 × Fin 32 × Fin 32 × (Word → Word → Word) × (Word → Word))
  | .div e rd rs rt => some (e, rd, rs, rt, fun a b => BitVec.ofInt 32 (a.toInt.tdiv b.toInt), fun _ => 0xFFFFFFFF#32)
  | .divu e rd rs rt => some (e, rd, rs, rt, fun a b => BitVec.ofNat 32 (a.toNat / b.toNat), fun _ => 0xFFFFFFFF#32)
  | .rem e rd rs rt => some (e, rd, rs, rt, fun a b => BitVec.ofInt 32 (a.toInt.tmod b.toInt), fun a => a)
  | .remu e rd rs rt => some (e, rd, rs, rt, fun a b => BitVec.ofNat 32 (a.toNat % b.toNat), fun a => a)
  | _ => none

/-- Instructions that write a boolean register. -/
def kResult : Instr → Option (Fin 64 × Fin 32 × (Engine → Bool))
  | .kand e rd rs rt => some (e, rd, fun x => x.kr rs && x.kr rt)
  | .kor e rd rs rt => some (e, rd, fun x => x.kr rs || x.kr rt)
  | .kxor e rd rs rt => some (e, rd, fun x => x.kr rs ^^ x.kr rt)
  | .kandn e rd rs rt => some (e, rd, fun x => x.kr rs && !x.kr rt)
  | .korn e rd rs rt => some (e, rd, fun x => x.kr rs || !x.kr rt)
  | .knot e rd rs => some (e, rd, fun x => !x.kr rs)
  | .kmov e rd rs => some (e, rd, fun x => x.kr rs)
  | .keq e rd rs rt => some (e, rd, fun x => decide (x.gr rs = x.gr rt))
  | .kne e rd rs rt => some (e, rd, fun x => decide (x.gr rs ≠ x.gr rt))
  | .klt e rd rs rt => some (e, rd, fun x => decide ((x.gr rs).toInt < (x.gr rt).toInt))
  | .kltu e rd rs rt => some (e, rd, fun x => decide ((x.gr rs).toNat < (x.gr rt).toNat))
  | .kge e rd rs rt => some (e, rd, fun x => decide ((x.gr rt).toInt ≤ (x.gr rs).toInt))
  | .kgeu e rd rs rt => some (e, rd, fun x => decide ((x.gr rt).toNat ≤ (x.gr rs).toNat))
  | .kbit e rd rs rt => some (e, rd, fun x => bit (x.gr rs) ((x.gr rt).toNat % 32))
  | .kfg e rd rs => some (e, rd, fun x => decide (x.gr rs ≠ 0))
  | _ => none

/-- Branches and jumps to an immediate target: engine, whether taken, target, link register, and whether the branch can end
loops (R250, R254, R261). -/
def branchOf : Instr → Option (Fin 64 × (Engine → Bool) × (Word → Word) × Nat × Bool)
  | .beq e rs rt off => some (e, fun x => decide (x.gr rs = x.gr rt), fun pc => pc + 4 + off.signExtend 32 * 4, 0, true)
  | .bne e rs rt off => some (e, fun x => decide (x.gr rs ≠ x.gr rt), fun pc => pc + 4 + off.signExtend 32 * 4, 0, true)
  | .blt e rs rt off =>
    some (e, fun x => decide ((x.gr rs).toInt < (x.gr rt).toInt), fun pc => pc + 4 + off.signExtend 32 * 4, 0, true)
  | .bge e rs rt off =>
    some (e, fun x => decide ((x.gr rt).toInt ≤ (x.gr rs).toInt), fun pc => pc + 4 + off.signExtend 32 * 4, 0, true)
  | .bltu e rs rt off =>
    some (e, fun x => decide ((x.gr rs).toNat < (x.gr rt).toNat), fun pc => pc + 4 + off.signExtend 32 * 4, 0, true)
  | .bgeu e rs rt off =>
    some (e, fun x => decide ((x.gr rt).toNat ≤ (x.gr rs).toNat), fun pc => pc + 4 + off.signExtend 32 * 4, 0, true)
  | .bkt e rs off => some (e, fun x => x.kr rs, fun pc => pc + 4 + off.signExtend 32 * 4, 0, true)
  | .bkf e rs off => some (e, fun x => !x.kr rs, fun pc => pc + 4 + off.signExtend 32 * 4, 0, true)
  | .j e off => some (e, fun _ => true, fun pc => pc + 4 + off.signExtend 32 * 4, 0, true)
  | .call e off => some (e, fun _ => true, fun pc => pc + 4 + off.signExtend 32 * 4, 31, false)
  | _ => none

/-- The instructions that R255 bars from a delay slot: B, B-long and B-reg forms, LOOP, WAIT, BRK, MODE, CHKP, SYS, RTH. -/
def slotBarred : Instr → Option (Fin 64)
  | .beq e _ _ _ | .bne e _ _ _ | .blt e _ _ _ | .bge e _ _ _ | .bltu e _ _ _ | .bgeu e _ _ _ => some e
  | .bkt e _ _ | .bkf e _ _ | .j e _ | .call e _ | .jmpr e _ _ | .loop e _ _ _ _ => some e
  | .wait e | .brk e | .rth e => some e
  | .mode e _ | .chkp e _ | .chkpTest e _ _ _ | .sys e _ => some e
  | _ => none

/-- Loads: engine, destination, base, immediate, width in bytes, and whether the value is sign-extended (R250). -/
def loadOf : Instr → Option (Fin 64 × Fin 32 × Fin 32 × Half × Nat × Bool)
  | .ldw e rd rs imm => some (e, rd, rs, imm, 4, false)
  | .ldh e rd rs imm => some (e, rd, rs, imm, 2, true)
  | .ldhu e rd rs imm => some (e, rd, rs, imm, 2, false)
  | .ldb e rd rs imm => some (e, rd, rs, imm, 1, true)
  | .ldbu e rd rs imm => some (e, rd, rs, imm, 1, false)
  | _ => none

/-- Stores to cluster memory: engine, source, base, immediate and width in bytes (R250). -/
def storeOf : Instr → Option (Fin 64 × Fin 32 × Fin 32 × Half × Nat)
  | .stw e rd rs imm => some (e, rd, rs, imm, 4)
  | .sth e rd rs imm => some (e, rd, rs, imm, 2)
  | .stb e rd rs imm => some (e, rd, rs, imm, 1)
  | _ => none

/-- The value of a load: bytes from the lowest address, the least significant first, extended to 32 bits (R213, R250). -/
def loadValue (m : Cluster) (a width : Nat) (signed : Bool) : Word :=
  let b := fun (i : Nat) => (m.byte (a + i)).zeroExtend 32 <<< (8 * i)
  if width = 4 then b 0 ||| b 1 ||| b 2 ||| b 3
  else if width = 2 then
    (if signed then (BitVec.extractLsb' 0 16 (b 0 ||| b 1)).signExtend 32 else b 0 ||| b 1)
  else if signed then (m.byte a).signExtend 32 else b 0

/-- Instructions that set aside a request: engine, base, immediate and data (R277). -/
def requestOf : Instr → Option (Fin 64 × Fin 32 × Half × (Engine → Word))
  | .orq e rd rs imm => some (e, rs, imm, fun x => x.gr rd)
  | .ork e rd rs imm => some (e, rs, imm, fun x => if x.kr rd then 1 else 0)
  | _ => none

end Sys2Proof.Safety
end

