-- ==== Sys2Proof/WellFormed.lean ====
section
/-! DEFINITION. Which commands name something the spec has. A row's operands can hold more than the row means: a
QP_ENABLE is a write with EN = 1, an illegal instruction is a word that no form has. Every meaning is total, so an
ill-formed command has an effect too (that of what it spells, or none); `Instr.wf` says which commands are the row's own (at least three readings to a pulse's verdict, R162). -/

namespace Sys2Proof

open Sys2Proof.Machine

/-- One submission entry is 16 words, and one read brings 1 to 4 of them (R395). -/
def DmaData.wf : DmaData → Bool
  | .entries l => decide (1 ≤ l.length) && decide (l.length ≤ 4) && l.all (fun e => e.length == 16)
  | .buffer _ => true
  | .failed _ => true
  | .cqeFailed => true

/-- LOOP's two forms: with an immediate count its register field is 0, with a register count the immediate is 0, and LE lies
at least 2 words after the instruction (R257, R260). -/
def loopForm (imm : Bool) (rs : Fin 32) (cnt last : BitVec 10) : Bool :=
  (if imm then rs == 0 else cnt == 0) && decide (2 ≤ last.toNat)

/-- The command is one of its row. -/
def Instr.wf : Instr → Bool
  | .qpEnable _ v => bit v 0
  | .qpDisable _ v => !bit v 0
  | .cvuStart _ v => bit v 0
  | .cvuStop _ v => !bit v 0
  | .cvuRegisterWrite _ reg _ => reg != 0
  | .jmpr _ rd rs => rd == 0 || rd != rs
  | .loop _ imm rs cnt last => loopForm imm rs cnt last
  | .rdh _ _ c => decide (c.val ≤ 11)
  | .wrh _ _ c => wrhAllowed c.val
  | .illegalInstruction _ w => !legalWord w
  | .dmaReadCompletion _ d => d.wf
  | .controlLaneReport _ _ _ raw => raw.length == 8
  | .debugMemoryWrite _ addr (.write _) _ => addr.toNat % 4 == 0
  | .debugMemoryWrite _ addr .read _ => addr.toNat % 4 == 0
  | .pulseVerdict _ r _ => decide (3 ≤ r.a.length) && decide (3 ≤ r.b.length)
  | .reservedRangeRead bar2 offset bytes => !readAccepted bar2 offset.toNat bytes && (!bar2 || decide (offset.toNat < 4096))
  | .msiXTableWrite offset _ =>
    decide (0x800 ≤ offset.toNat) && decide (offset.toNat < 0xC10) && offset.toNat % 4 == 0
  | _ => true

end Sys2Proof
end

