-- ==== Sys2Proof/Certificates/Slice0/Obligations.lean ====
section
/-! DEFINITION. The statements for the provers, family by family. A statement whose docstring names a log entry rests on the
model's choice of that entry; every other clause formalises the rules it names. -/

open Sys2Proof Sys2Proof.Machine Sys2Proof.Safety

/-! ### Engines: instructions (R241 to R266) -/

/-- R241, R250, R251, R252: on an engine that issues alone, each instruction that writes a general register writes the value
the rule gives (to g0: nothing) and retires; every other register, engine and memory is as before.
R241, R252: each instruction that writes a boolean register writes the value the rule gives (to k0: nothing) and
retires.
R253: a division by a divisor that is not 0 writes the quotient or remainder; by 0 it writes the value of R253 with
ENS.DZE = 0, and with ENS.DZE = 1 it raises the divide-by-zero exception, cause 6, and writes no register. -/
def Obligations.RegisterResults : Prop :=
  (∀ (c : Instr) (e : Fin 64) (rd : Fin 32) (f : Engine → Word) (s : State),
     gResult c = some (e, rd, f) → SingleReady s e →
       exec c s = .next (issued s e (fun x => (x.setG rd (f x)).retire x)).settle) ∧
  (∀ (c : Instr) (e : Fin 64) (rd : Fin 32) (f : Engine → Bool) (s : State),
     kResult c = some (e, rd, f) → SingleReady s e →
       exec c s = .next (issued s e (fun x => (x.setK rd (f x)).retire x)).settle) ∧
  (∀ (c : Instr) (e : Fin 64) (rd rs rt : Fin 32) (f : Word → Word → Word) (z : Word → Word) (s : State),
     quotient c = some (e, rd, rs, rt, f, z) → SingleReady s e →
       ((s.eng e).gr rt ≠ 0 →
         exec c s = .next (issued s e (fun x => (x.setG rd (f (x.gr rs) (x.gr rt))).retire x)).settle) ∧
       ((s.eng e).gr rt = 0 → (s.eng e).dze = false →
         exec c s = .next (issued s e (fun x => (x.setG rd (z (x.gr rs))).retire x)).settle) ∧
       ((s.eng e).gr rt = 0 → (s.eng e).dze = true → exec c s = .next (faulted s e 6 0).settle))

/-- R214, R215: on a pair both engines execute the instruction, each on its own registers; the word fetched reaches the follower
through its queue, which is empty again once it has executed it. -/
def Obligations.PairRunsOneStream : Prop :=
  ∀ (c : Instr) (e : Fin 64) (rd : Fin 32) (f : Engine → Word) (s : State),
    gResult c = some (e, rd, f) → PairReady s e →
      exec c s = .next ((issued s e (fun x => (x.setG rd (f x)).retire x)).updEng (e + 1) (fun y =>
        let x := y.fetched (fetchWord s e)
        (x.setG rd (f x)).retire x)).settle

/-- R254, R255, R261: a branch or jump outside delay slots and loop ends leaves the engine at the delay slot, with the target
where it is taken; CALL writes g31 with the address after the slot.
R250, R256: JMPR to an aligned address takes it after its slot and writes the link register; to a misaligned address it
raises the alignment exception, cause 5, at the jump. -/
def Obligations.BranchesEnterTheirSlot : Prop :=
  (∀ (c : Instr) (e : Fin 64) (taken : Engine → Bool) (tgt : Word → Word) (link : Nat) (ends : Bool) (s : State),
     branchOf c = some (e, taken, tgt, link, ends) → SingleReady s e → PlainPlace (s.eng e) →
       Gives (exec c s) (fun t =>
         (t.eng e).pc = (s.eng e).pc + 4 ∧
         (t.eng e).ds = some { branch := (s.eng e).pc,
                               target := if taken (s.eng e) then some (tgt (s.eng e).pc) else none,
                               ends := ends, mp := (s.eng e).mp, cellM := (s.eng e).cellM } ∧
         (t.eng e).g = ((s.eng e).setG link ((s.eng e).pc + 8)).g ∧ (t.eng e).k = (s.eng e).k ∧ t.mems = s.mems ∧
         ∀ n : Nat, n ≠ e → t.eng n = s.eng n)) ∧
  (∀ (e : Fin 64) (rd rs : Fin 32) (s : State), SingleReady s e → PlainPlace (s.eng e) → (rd ≠ rs ∨ rd = 0) →
     (fld ((s.eng e).gr rs) 1 0 = 0 →
       Gives (exec (.jmpr e rd rs) s) (fun t =>
         (t.eng e).pc = (s.eng e).pc + 4 ∧
         (t.eng e).ds = some { branch := (s.eng e).pc, target := some ((s.eng e).gr rs), ends := decide (rd = 0),
                               mp := (s.eng e).mp, cellM := (s.eng e).cellM } ∧
         (t.eng e).g = ((s.eng e).setG rd ((s.eng e).pc + 8)).g ∧ t.mems = s.mems)) ∧
     (fld ((s.eng e).gr rs) 1 0 ≠ 0 → exec (.jmpr e rd rs) s = .next (faulted s e 5 ((s.eng e).gr rs)).settle))

/-- R254, R257, R265: what retiring an instruction does to the PC. A delay slot ends at the target of its branch; in
sequence the PC advances by 4; at the end of an active loop with a count above 1 it goes back to the start with the count
one lower, and with a count of 1 or 0 the loop ends. -/
def Obligations.RetirementMovesThePc : Prop :=
  ∀ (x : Engine),
    (∀ (d : DSlot) (t : Word), x.ds = some d → d.target = some t → (x.retire x).pc = t ∧ (x.retire x).ds = none) ∧
    (x.ds = none → x.la0 = false → x.la1 = false → (x.retire x).pc = x.pc + 4) ∧
    (x.ds = none → x.la0 = true → x.la1 = false → x.pc = x.lp0.le → x.lp0.lc.toNat > 1 →
      (x.retire x).pc = x.lp0.ls ∧ (x.retire x).lp0.lc = x.lp0.lc - 1 ∧ (x.retire x).la0 = true) ∧
    (x.ds = none → x.la0 = true → x.la1 = false → x.pc = x.lp0.le → x.lp0.lc.toNat ≤ 1 →
      (x.retire x).pc = x.pc + 4 ∧ (x.retire x).lp0.lc = 0 ∧ (x.retire x).la0 = false) ∧
    (x.ds = none → x.la1 = true → x.pc = x.lp1.le → x.lp1.lc.toNat > 1 →
      (x.retire x).pc = x.lp1.ls ∧ (x.retire x).lp1.lc = x.lp1.lc - 1 ∧ (x.retire x).la1 = true) ∧
    (x.mp = 2 → (x.retire x).mp = 1 ∧ (x.retire x).cellM = x.cellM) ∧
    (x.mp = 1 → (x.retire x).mp = 0 ∧ (x.retire x).cellM = x.pm) ∧
    (x.mp = 0 → (x.retire x).mp = 0 ∧ (x.retire x).cellM = x.cellM)

/-- R258: LOOP with no level active and a count that is not 0 activates level 0 over the words after it to LE; with a count
of 0 it skips the body and activates nothing. The count is the immediate, or the register where the form names one. -/
def Obligations.LoopActivatesALevel : Prop :=
  ∀ (e : Fin 64) (imm : Bool) (rs : Fin 32) (cnt last : BitVec 10) (s : State),
    SingleReady s e → PlainPlace (s.eng e) → loopForm imm rs cnt last = true →
    (s.eng e).la0 = false → (s.eng e).la1 = false → (s.eng e).mp = 0 →
      ((if imm then BitVec.ofNat 32 cnt.toNat else (s.eng e).gr rs) ≠ 0 →
        exec (.loop e imm rs cnt last) s = .next (issued s e (fun x => { x with
          lp0 := { lc := if imm then BitVec.ofNat 32 cnt.toNat else x.gr rs, ls := x.pc + 4,
                   le := x.pc + BitVec.ofNat 32 (4 * last.toNat) },
          la0 := true, pc := x.pc + 4 })).settle) ∧
      ((if imm then BitVec.ofNat 32 cnt.toNat else (s.eng e).gr rs) = 0 →
        exec (.loop e imm rs cnt last) s =
          .next (issued s e (fun x => { x with pc := x.pc + BitVec.ofNat 32 (4 * last.toNat) + 4 })).settle)

/-- R210, R213, R250: a load of an aligned address of cluster memory that the owner table admits, from a word without an
error, writes the bytes there, least significant first, extended as the instruction says; no memory changes. -/
def Obligations.LoadsReadClusterMemory : Prop :=
  ∀ (c : Instr) (e : Fin 64) (rd rs : Fin 32) (imm : Half) (width : Nat) (signed : Bool) (tag : Byte) (s : State),
    loadOf c = some (e, rd, rs, imm, width, signed) → SingleReady s e →
    (((s.eng e).gr rs + imm.signExtend 32).toNat % width = 0) →
    ((s.eng e).gr rs + imm.signExtend 32).toNat < 0x40000 →
    s.admitMem e (s.eng e) .load ((s.eng e).gr rs + imm.signExtend 32).toNat = .ok (.mem tag) →
    cleanWord s (e / 4) (((s.eng e).gr rs + imm.signExtend 32).toNat / 4) tag = true →
      exec c s = .next (issued s e (fun x =>
        (x.setG rd (loadValue (s.clu (e / 4)) ((s.eng e).gr rs + imm.signExtend 32).toNat width signed)).retire x)).settle

/-- R210, R213, R250: a store to an aligned address of cluster memory that the owner table admits (for a part of a word, into a word
without an error) changes exactly the bytes of its width there, least significant first; the engine retires, and every other byte,
engine and cluster is as before. -/
def Obligations.StoresWriteClusterMemory : Prop :=
  ∀ (c : Instr) (e : Fin 64) (rd rs : Fin 32) (imm : Half) (width : Nat) (tag : Byte) (s : State),
    storeOf c = some (e, rd, rs, imm, width) → SingleReady s e →
    (((s.eng e).gr rs + imm.signExtend 32).toNat % width = 0) →
    ((s.eng e).gr rs + imm.signExtend 32).toNat < 0x40000 →
    s.admitMem e (s.eng e) (if width = 4 then .store else .part) ((s.eng e).gr rs + imm.signExtend 32).toNat = .ok (.mem tag) →
    (width ≠ 4 → cleanWord s (e / 4) (((s.eng e).gr rs + imm.signExtend 32).toNat / 4) tag = true) →
      Gives (exec c s) (fun t =>
        t.eng e = (fetchedEng s e).retire (fetchedEng s e) ∧ (∀ n : Nat, n ≠ e → t.eng n = s.eng n) ∧
        ∀ cl b : Nat, (t.clu cl).byte b =
          if cl = e / 4 ∧ ((s.eng e).gr rs + imm.signExtend 32).toNat ≤ b ∧
              b < ((s.eng e).gr rs + imm.signExtend 32).toNat + width
          then (bytes4 ((s.eng e).gr rd)).getD (b - ((s.eng e).gr rs + imm.signExtend 32).toNat) 0
          else (s.clu cl).byte b)

/-- R247, R263: a load or store of a misaligned address raises the alignment exception, cause 5, with EVA the address, and
writes no register and no memory. -/
def Obligations.MisalignedAccessFaults : Prop :=
  (∀ (c : Instr) (e : Fin 64) (rd rs : Fin 32) (imm : Half) (width : Nat) (signed : Bool) (s : State),
    loadOf c = some (e, rd, rs, imm, width, signed) → SingleReady s e →
    ((s.eng e).gr rs + imm.signExtend 32).toNat % width ≠ 0 →
      exec c s = .next (faulted s e 5 ((s.eng e).gr rs + imm.signExtend 32)).settle) ∧
  (∀ (c : Instr) (e : Fin 64) (rd rs : Fin 32) (imm : Half) (width : Nat) (s : State),
    storeOf c = some (e, rd, rs, imm, width) → SingleReady s e →
    ((s.eng e).gr rs + imm.signExtend 32).toNat % width ≠ 0 →
      exec c s = .next (faulted s e 5 ((s.eng e).gr rs + imm.signExtend 32)).settle)

/-- R277: in runtime mode an aligned ORQ or ORK to the request window sets its request aside, and no register or memory
changes. -/
def Obligations.RequestsAreSetAside : Prop :=
  ∀ (c : Instr) (e : Fin 64) (rs : Fin 32) (imm : Half) (f : Engine → Word) (s : State),
    requestOf c = some (e, rs, imm, f) → SingleReady s e → (s.eng e).cellM = false → (s.eng e).nreq < 256 →
    ((s.eng e).gr rs + imm.signExtend 32).toNat % 4 = 0 →
    0x30000000 ≤ ((s.eng e).gr rs + imm.signExtend 32).toNat →
    ((s.eng e).gr rs + imm.signExtend 32).toNat < 0x30001000 →
      exec c s = .next (issued s e (fun x => ({ x with
        reqs := x.reqs ++ [{ slot := false, off := (x.gr rs + imm.signExtend 32).toNat - 0x30000000, data := f x }],
        nreq := x.nreq + 1 } : Engine).retire x)).settle

/-! ### Engines: system instructions, checkpoints, entries and timers (R216 to R221, R243, R250, R263 to R276) -/

/-- R243, R250, R265: RDH reads and WRH writes the handler register that its number names, MODE arms the mode shadow for
two instructions, SADJ folds a register into Whisk as an item of kind 9; each retires. -/
def Obligations.HandlerRegistersAndMode : Prop :=
  (∀ (e : Fin 64) (r c : Fin 32) (s : State), SingleReady s e → rdhAllowed (s.eng e).cellM c = true →
    exec (.rdh e r c) s = .next (issued s e (fun x => (x.setG r (x.handler (s.eid e) c)).retire x)).settle) ∧
  (∀ (e : Fin 64) (r c : Fin 32) (s : State), SingleReady s e → (s.eng e).cellM = false → wrhAllowed c = true →
    exec (.wrh e r c) s = .next (issued s e (fun x => (x.setHandler c (x.gr r)).retire x)).settle) ∧
  (∀ (e : Fin 64) (s : State), SingleReady s e → PlainPlace (s.eng e) → RuntimeMode (s.eng e) →
    exec (.mode e true) s = .next (issued s e (fun x => { x with mp := 2, pm := true }.retire x)).settle ∧
    exec (.mode e false) s = .next (issued s e (fun x => x.retire x)).settle) ∧
  (∀ (e : Fin 64) (r : Fin 32) (s : State), SingleReady s e →
    exec (.sadj e r) s = .next (issued s e (fun x => { x with whisk := whiskFold x.whisk 9 (x.gr r) }.retire x)).settle)

/-- R243, R250, R265, R271: what a mode or a state may not do is illegal: in cell mode WRH, MODE, WAIT, RTH and RDH of a
register outside R243's list; in runtime mode SYS, RTH outside a handler, WAIT with EVE = 0. It raises cause 3.
R249: a word that is no legal instruction raises cause 3 and writes no register.
R255: a B, B-long or B-reg form, LOOP, WAIT, BRK, MODE, CHKP, SYS or RTH in a delay slot raises cause 3, taken for the slot. -/
def Obligations.PrivilegedAndIllegalFormsFault : Prop :=
  (∀ (e : Fin 64) (r c : Fin 32) (cell : Bool) (imm : Half) (s : State), SingleReady s e → PlainPlace (s.eng e) →
     ((s.eng e).cellM = true →
       exec (.wrh e r c) s = .next (faulted s e 3 0).settle ∧ exec (.mode e cell) s = .next (faulted s e 3 0).settle ∧
       exec (.wait e) s = .next (faulted s e 3 0).settle ∧ exec (.rth e) s = .next (faulted s e 3 0).settle ∧
       (c ≠ 4 → c ≠ 7 → c ≠ 10 → c ≠ 11 → exec (.rdh e r c) s = .next (faulted s e 3 0).settle)) ∧
     ((s.eng e).cellM = false →
       exec (.sys e imm) s = .next (faulted s e 3 0).settle ∧
       ((s.eng e).hnd = false → exec (.rth e) s = .next (faulted s e 3 0).settle) ∧
       ((s.eng e).eve = false → exec (.wait e) s = .next (faulted s e 3 0).settle))) ∧
  (∀ (e : Fin 64) (w : Word) (s : State), (Instr.illegalInstruction e w).wf = true → SingleReady s e →
     exec (.illegalInstruction e w) s = .next (faulted s e 3 0).settle) ∧
  (∀ (c : Instr) (e : Fin 64) (d : DSlot) (s : State), slotBarred c = some e → SingleReady s e → (s.eng e).ds = some d →
     exec c s = .next (faulted s e 3 0).settle ∧
     ((s.eng e).hnd = false → ((s.eng e).fault 3 0 false).1.epc = d.branch ∧
       ((s.eng e).fault 3 0 false).1.pc = 0x400004C0#32))

/-- R263, R269, R270: what a fault does to its engine: outside a handler EPC, ES, EVA, runtime mode, HND and the vector of the
cause, with the branch's address in EPC for a delay slot; in a handler the engine stops and nothing else changes. -/
def Obligations.FaultsEnterTheVector : Prop :=
  ∀ (x : Engine) (cause : Nat) (eva : Word) (fetch : Bool),
    (x.hnd = false →
      (x.fault cause eva fetch).1.pc = BitVec.ofNat 32 (0x40000400 + 0x40 * cause) ∧
      (x.fault cause eva fetch).1.cellM = false ∧ (x.fault cause eva fetch).1.hnd = true ∧
      (x.fault cause eva fetch).1.eve = false ∧ (x.fault cause eva fetch).1.la0 = false ∧
      (x.fault cause eva fetch).1.la1 = false ∧ (x.fault cause eva fetch).1.mp = 0 ∧
      (x.fault cause eva fetch).1.ds = none ∧
      (x.fault cause eva fetch).1.eva = (if cause = 1 ∨ cause = 2 ∨ cause = 5 then eva else 0) ∧
      (x.ds = none → (x.fault cause eva fetch).1.epc = x.pc) ∧
      (∀ d : DSlot, x.ds = some d → (x.fault cause eva fetch).1.epc = d.branch) ∧
      (x.fault cause eva fetch).1.g = x.g ∧ (x.fault cause eva fetch).1.k = x.k ∧ (x.fault cause eva fetch).1.dead = x.dead) ∧
    (x.hnd = true → (x.fault cause eva fetch).1 = { x with dead := true })

/-- R270, R288: a service call in cell mode, outside a handler, enters at the vector of cause 0 with EPC after the call; with
number 0 and no request unsealed it ends the cycle of the cell that runs: no cell is dispatched and ET_WD stops.
R271: RTH in a handler sets PC to EPC and MODE, EVE, LA, MP and PM from ES, and clears HND: the instruction at EPC issues
next; in a mode shadow it is illegal. -/
def Obligations.ServiceCallAndReturn : Prop :=
  (∀ (e : Fin 64) (c : Nat) (s : State), SingleReady s e → PlainPlace (s.eng e) → (s.eng e).cellM = true →
     (s.eng e).hnd = false → (s.eng e).cell = some c → (s.eng e).nreq = 0 →
       exec (.sys e 0) s =
         .next (issued s e (fun x =>
           { (x.shadow x.mp).enter 0 (x.pc + 4) false false (x.shadow x.mp).mp 0 0 with cell := none, wd := 0 })).settle) ∧
  (∀ (e : Fin 64) (s : State), SingleReady s e → PlainPlace (s.eng e) → RuntimeMode (s.eng e) → (s.eng e).hnd = true →
     exec (.rth e) s = .next (issued s e (fun x => { x with
       cellM := bit x.es 6, eve := bit x.es 12, la0 := bit x.es 10, la1 := bit x.es 11,
       mp := BitVec.ofNat 2 (min 2 (fld x.es 8 7)), pm := bit x.es 9, hnd := false, pc := x.epc })).settle) ∧
  (∀ (e : Fin 64) (s : State), SingleReady s e → (s.eng e).mp ≠ 0 →
     exec (.rth e) s = .next (faulted s e 3 0).settle)

/-- R250, R272: WAIT retires and stalls the engine until an event is pending, and not where one is; the lowest pending event
of a single engine that takes events is entered at the vector of cause 7 and no longer pending. -/
def Obligations.WaitAndEvents : Prop :=
  (∀ (e : Fin 64) (s : State), SingleReady s e → PlainPlace (s.eng e) → (s.eng e).cellM = false → (s.eng e).eve = true →
    exec (.wait e) s = .next (issued s e (fun x => { x.retire x with stall := decide (x.events = 0) })).settle) ∧
  (∀ (e : Fin 64) (n : Nat) (s : State), s.coreUp = true → (s.eng e).role = .single → (s.eng e).stall = false →
    (s.eng e).dead = false → (s.eng e).wdHit = false → (s.eng e).takesEvents = true → (s.eng e).lowest = some n →
    exec (.eventEntry e) s = .next (s.updEng e (fun x => { x.enter 7 x.pc false false x.mp 0 n with
      events := setBit x.events n false })).settle)

/-- R217, R219, R276: on a single engine a checkpoint whose seal is the reference of the cell dispatched sets its requests
aside to commit and begins a new interval; one whose seal is not is a failed diagnostic of the engine. R290 to R292: a commit
that takes effect writes the permit bit that a request of its cell names, with the time, and leaves every other slot; the
requests wait until the tick ends (log entry 93). R229, R276: a checkpoint in its test form, runtime mode only, commits
nothing: on a single engine it begins a new interval; on a pair with equal seals it begins one in both engines, and a
comparator that misses the forced difference (an operand of the command) is a comparator fault. -/
def Obligations.CheckpointsCommitAndTest : Prop :=
  (∀ (e : Fin 64) (ident : Half) (x y par : Bool) (c : Nat) (v : CellImg) (s : State), SingleReady s e → PlainPlace (s.eng e) →
     (s.eng e).cell = some c → s.runVer e = some v →
       ((v.refs.find? (fun r => r.1 == ident.toNat)).map (·.2) = some (whiskSeal (s.eng e).whisk ident) →
         exec (.chkp e ⟨ident, x, y, par⟩) s =
           .next ((((issued s e (fun x => x.retire x)).commit e).noteCheck e).updEng e (fun x => x.reseed)).settle) ∧
       ((v.refs.find? (fun r => r.1 == ident.toNat)).map (·.2) ≠ some (whiskSeal (s.eng e).whisk ident) →
         exec (.chkp e ⟨ident, x, y, par⟩) s = .next (((issued s e (fun x => x.retire x)).singleFail e).overflow e).settle)) ∧
  (∀ (c o i : Nat) (d : Word) (v : CellImg) (s : State), (s.cell c).ver = some v → o < 64 → i < 4 →
     s.perm.due = [{ eng := (s.cell c).eng, cell := some c, newV := false, reqs := [{ slot := false, off := 4 * o, data := d }] }] →
     s.slotOf c o = some i → s.heldArmed c = false → s.stoHolds c o = false →
       (s.takeEffect.slot o i).p0 = decide (d = 1) ∧ (s.takeEffect.slot o i).t0 = s.now ∧ s.takeEffect.perm.due = [] ∧
       ∀ p j : Nat, j < 4 → (p ≠ o ∨ j ≠ i) → s.takeEffect.slot p j = s.slot p j) ∧
  ((∀ (e : Fin 64) (ident : Half) (x y : Bool) (s : State), SingleReady s e → PlainPlace (s.eng e) →
     (s.eng e).cellM = false →
       exec (.chkpTest e ident x y) s = .next (issued s e (fun x => (x.retire x).reseed)).settle) ∧
   (∀ (e : Nat) (ident : Half) (s : State), (s.eng e).role = .leader →
     whiskSeal (s.eng e).whisk ident = whiskSeal (s.eng (e + 1)).whisk ident →
       s.testCheckpoint e ident false false = (s.updEng e Engine.reseed).updEng (e + 1) Engine.reseed ∧
       s.testCheckpoint e ident true false =
         ((s.updEng e Engine.reseed).updEng (e + 1) Engine.reseed).comparatorFault (e / 2)))

/-- R218, R219, R220: the seals of a pair's checkpoint go to two comparators. Both report a match: the leader's requests are
set aside to commit, and both engines begin a new interval. Both report a mismatch: cause 1. They disagree, because one judges
wrongly: cause 5. -/
def Obligations.PairCheckpointCompares : Prop :=
  ∀ (k : Nat) (l f : Word) (s : State),
    (l ≠ f → s.comparePair k l f false false = s.mismatch k 1) ∧
    (∀ x : Bool, s.comparePair k l f x (!x) = s.mismatch k 5) ∧
    (l = f → (s.epair k).formed = true →
      ((s.comparePair k l f false false).eng (2 * k)).whisk = 0xFFFFFFFF#32 ∧
      ((s.comparePair k l f false false).eng (2 * k)).reqs = [] ∧
      ((s.comparePair k l f false false).eng (2 * k + 1)).whisk = 0xFFFFFFFF#32 ∧
      ((s.comparePair k l f false false).eng (2 * k + 1)).reqs = [] ∧
      (s.comparePair k l f false false).perm.due = s.perm.due ++
        [{ eng := 2 * k, cell := (s.eng (2 * k)).cell, newV := (s.eng (2 * k)).newV, reqs := (s.eng (2 * k)).reqs }])

/-- R101, R102, R272: a short timer that is due sets its ET_STAT bit and its event: a compare timer disarms, a reload timer
starts again from its reload value. A store to ET_i or ET_MODE, and in runtime mode to ET_WD, writes it and retires. R220, R221: a
single engine whose ET_WD has reached zero takes the cycle-budget overrun; of a pair where one engine alone has, it is a mismatch of
cause 4. -/
def Obligations.EngineTimers : Prop :=
  (∀ (e : Fin 64) (n : Fin 4) (s : State), (Tab.get {} (s.eng e).et n).armed = true → bit (s.eng e).etMode n = false →
    (s.tb.tb.extractLsb' 0 32 - (Tab.get {} (s.eng e).et n).value).toNat < 2 ^ 31 → (s.eng e).role = .single →
    s.tb.lfRun = false →
      exec (.etFire e n) s = .next (s.updEng e (fun x => { x with
        etStat := setBit x.etStat n true, et := Tab.upd {} x.et n (fun t => { t with armed := false }),
        events := setBit x.events n true, stall := false })).settle) ∧
  (∀ (e : Fin 64) (n : Fin 4) (s : State), (Tab.get {} (s.eng e).et n).armed = true → bit (s.eng e).etMode n = true →
    (Tab.get {} (s.eng e).et n).count = 0 → (s.eng e).role = .single →
      exec (.etReload e n) s = .next (s.updEng e (fun x => { x with
        etStat := setBit x.etStat n true, et := Tab.upd {} x.et n (fun t => { t with count := t.value }),
        events := setBit x.events n true, stall := false })).settle) ∧
  (∀ (e : Fin 64) (n : Fin 4) (v : Word) (s : State), SingleReady s e →
    exec (.etValueWrite e n v) s = .next (((issued s e id).etValue e n v).updEng e (fun x => x.retire x)).settle) ∧
  (∀ (e : Fin 64) (v : Word) (s : State), SingleReady s e →
    exec (.etModeWrite e v) s = .next (issued s e (fun x => (x.setEtMode v).retire x)).settle) ∧
  (∀ (e : Fin 64) (v : Word) (s : State), SingleReady s e → (s.eng e).cellM = false →
    exec (.etWdWrite e v) s = .next (issued s e (fun x => { x with wd := v &&& 0xFFFFFFFC#32 }.retire x)).settle) ∧
  (∀ (e : Fin 64) (s : State), s.coreUp = true → (s.eng e).role = .single → (s.eng e).dead = false → (s.eng e).wdHit = true →
    exec (.cycleBudgetOverrun e true) s = .next (s.overrun e).settle) ∧
  (∀ (k : Fin 32) (e : Fin 64) (s : State), e.val = 2 * k → s.coreUp = true → (s.eng e).role = .leader → (s.eng e).dead = false →
    (s.eng e).wdHit = true → exec (.cycleBudgetOverrun e false) s = .next (s.mismatch k 4).settle)

/-! ### Power, resets, standby and start-up (R26, R72, R73, R78, R93, R437 to R452, R464 to R471, R496, R526, R528) -/

/-- R437, R446, R447, R460, R73: VSYS reaching the start threshold from power-off begins a start-up; falling below the hold-up
threshold while the module is powered it starts a dip, and SAFE_OK is low; a dip that ends within 100 µs is counted and
reported; one of 100 µs is a power failure, after which the log buffer is empty, but for a page being programmed; the reset that
follows keeps the cause, loads nothing, and starts up where VSYS is back. -/
def Obligations.SupplyDips : Prop :=
  (∀ s : State, s.pwr.phase = .off →
    Gives (exec .vsysStartThreshold s) (fun t =>
      t.pwr.vsysOk = true ∧ t.tb.lfRun = false ∧ t.pwr.start = (if s.pwr.pfKept then 1 else 0) ∧
      t.pwr.phase = (if s.pwr.rstn && !s.pwr.otHold then .starting else .reset))) ∧
  (∀ s : State, s.pwr.phase.powered = true →
    Gives (exec .vsysHoldUpCrossing s) (fun t =>
      t.pwr = { s.pwr with vsysOk := false, dip := true, dipAt := if s.pwr.dip then s.pwr.dipAt else s.now } ∧
      t.sys.safeOk = false ∧ t.cells = s.cells ∧ t.store = s.store)) ∧
  (∀ s : State, s.pwr.dip = true → s.pwr.fail = false → s.past s.pwr.dipAt 100000 = false →
    Gives (exec .dipRideThrough s) (fun t =>
      t.pwr = { s.pwr with dip := false, vsysOk := true, dips := satInc s.pwr.dips, evt := setBit s.pwr.evt 0 true } ∧
      t.cells = s.cells ∧ t.perm = s.perm ∧ t.store = s.store)) ∧
  (∀ s : State, s.pwr.phase.powered = true → s.pwr.dip = true → s.pwr.fail = false → s.past s.pwr.dipAt 100000 = true →
    s.store.holder ≠ some 1 → s.store.op ≠ .eraseSector → s.store.op ≠ .eraseBlock →
      exec .powerFailure s = .next ({ s with pwr := { s.pwr with fail := true }, store := { s.store with buf := [] } }).settle ∧
      exec .dipRideThrough s =
        .next ({ s with pwr := { s.pwr with fail := true, vsysOk := true }, store := { s.store with buf := [] } }).settle) ∧
  (∀ s : State, s.pwr.fail = true → s.store.holder = none →
    Gives (exec .powerFailReset s) (fun t =>
      t.pwr.pfKept = true ∧ t.pwr.fail = false ∧ t.pwr.dip = false ∧ t.cells = [] ∧ t.loaded = false ∧
      (s.pwr.vsysOk = false → t.pwr.phase = .off ∧ t.tb.lfRun = true) ∧
      (s.pwr.vsysOk = true → t.pwr.start = 1 ∧ t.tb.lfRun = false ∧
        t.pwr.phase = (if s.pwr.rstn && !s.pwr.otHold then .starting else .reset))))

/-- R437, R441, R444, R445, R448, R85: an overvoltage only sets its event; a rail out of its window resets the module and is
kept as the cause; core temperature reports OT from 125 °C, resets and holds from 140 °C and releases below 115 °C; HOLD
falling below 38 V with VSYS good is an event, as is HOLD_OK at 0 for 500 ms after the rails, once; HOLD at 38 V or more sets
HOLD_OK; exhausted in standby or power-off it loses the timebase and the kept causes. That HOLD_CHARGED shows 38.0 V is log
entry 94. -/
def Obligations.SupervisorsAct : Prop :=
  (∀ s : State, s.pwr.phase.powered = true →
    Gives (exec .overvoltageEvent s) (fun t => t.pwr = { s.pwr with evt := setBit s.pwr.evt 1 true } ∧ t.cells = s.cells ∧
      t.regions = s.regions ∧ t.perm = s.perm ∧ t.store = s.store)) ∧
  (∀ (r : Rail) (s : State), s.pwr.phase.powered = true →
    Gives (exec (.railOutOfWindow r) s) (fun t =>
      t.pwr.rail = some r ∧ t.pwr.start = 1 ∧ t.cells = [] ∧ t.engs = [] ∧ t.loaded = false ∧ t.regions = 0)) ∧
  (∀ (c : Byte) (s : State), s.pwr.phase.powered = true →
    (189 ≤ c.toNat → c.toNat < 204 →
      Gives (exec (.coreOvertemperature c) s) (fun t =>
        t.pwr.ot = true ∧ t.pwr.mTemp = c ∧ t.pwr.phase = s.pwr.phase ∧
        (s.pwr.ot = false → t.pwr.evt = setBit s.pwr.evt 2 true))) ∧
    (204 ≤ c.toNat →
      Gives (exec (.coreOvertemperature c) s) (fun t =>
        t.pwr.start = 1 ∧ t.pwr.otHold = true ∧ t.pwr.otKept = true ∧ t.pwr.phase = .reset ∧ t.cells = [] ∧ t.engs = [] ∧
        t.loaded = false))) ∧
  (∀ (c : Byte) (s : State), s.pwr.phase.powered = true →
    (c.toNat < 179 → s.pwr.otHold = true →
      Gives (exec (.coreTemperatureFall c) s) (fun t =>
        t.pwr.ot = false ∧ t.pwr.otHold = false ∧ t.pwr.phase = (if s.pwr.rstn then .starting else .reset))) ∧
    (s.pwr.otHold = false →
      exec (.coreTemperatureFall c) s =
        .next ({ s with pwr := { s.pwr with mTemp := c, ot := decide (189 ≤ c.toNat) } }).settle)) ∧
  (∀ (v : BitVec 10) (s : State), s.pwr.phase.powered = true →
    (v.toNat < 380 → (s.pwr.holdOk = true ∧ s.pwr.vsysOk = true) ∨
        (s.pwr.holdOk = false ∧ s.pwr.holdRep = false ∧ s.past s.pwr.railsAt 500000000 = true) →
      Gives (exec (.holdNotCharged v) s) (fun t =>
        t.pwr = { s.pwr with mHold := v, holdOk := false, holdRep := true, evt := setBit s.pwr.evt 4 true })) ∧
    (v.toNat < 380 → s.pwr.holdOk = false → s.pwr.holdRep = true →
      exec (.holdNotCharged v) s = .next ({ s with pwr := { s.pwr with mHold := v } }).settle) ∧
    (380 ≤ v.toNat →
      exec (.holdNotCharged v) s = .next ({ s with pwr := { s.pwr with mHold := v, holdOk := true, holdRep := false } }).settle)) ∧
  (∀ s : State, s.pwr.phase.powered = true →
    exec .holdCharged s = .next ({ s with pwr := { s.pwr with
      holdOk := true, holdRep := false, mHold := if s.pwr.holdOk then s.pwr.mHold else 380 } }).settle) ∧
  (∀ s : State, s.pwr.phase.powered = false → s.pwr.vsysOk = false →
    Gives (exec .holdExhausted s) (fun t =>
      t.pwr.phase = .off ∧ t.tb.tb = 0 ∧ t.tb.frac = 0 ∧ t.tb.unset = true ∧ t.pwr.wake = false ∧ t.pwr.rail = none ∧
      t.pwr.otKept = false ∧ t.pwr.pfKept = false ∧ t.pwr.clkKept = 0 ∧ t.store = s.store))

/-- R26, R471, R491, R526: RSTN low for at least 1 µs resets every die but the retention island: no cell, no configuration, no
engine, no region is left, and the module waits in reset, with TB's count as it was; below 100 ns it does nothing but use a free
value. RSTN released from reset begins a start-up unless an overtemperature holds it. -/
def Obligations.ResetClearsTheModule : Prop :=
  (∀ (ns : Nat) (s : State), 1000 ≤ ns → s.pwr.phase.powered = true →
    Gives (exec (.rstnLow ns) s) (fun t =>
      t.pwr.phase = .reset ∧ t.cells = [] ∧ t.loaded = false ∧ t.engs = [] ∧ t.epairs = [] ∧ t.regions = 0 ∧ t.outs = [] ∧
      t.chans = [] ∧ t.perm = State.reset.perm ∧ t.sys.safeOk = false ∧ t.sys.faultn = true ∧ t.tb.tb = s.tb.tb ∧
      t.tb.frac = s.tb.frac)) ∧
  (∀ (ns : Nat) (s : State), ns < 100 → exec (.rstnLow ns) s = .next ({ s with fresh := s.fresh + 1 }).settle) ∧
  (∀ s : State, s.pwr.phase = .reset →
    exec .rstnRelease s = .next ({ s with pwr := { s.pwr with
      rstn := true, phase := if s.pwr.otHold then .reset else .starting, railsAt := s.now, holdRep := false } }).settle)

/-- R449 to R452, R460, R528: STBYN low outside a power failure and fault stop takes the module into standby, with TB on the
32.768 kHz clock and nothing loaded; where VSYS has been low for 100 µs the power failure governs. The host's request does so only
with every permit off, no cell hand-over and no commit, and is otherwise refused with STBY_REF_EVT; STBYN high or WAKE in standby
begins a start-up, or is kept while VSYS is absent. -/
def Obligations.StandbyAndWake : Prop :=
  (∀ s : State, s.pwr.fail = false → s.pwr.phase = .starting ∨ s.pwr.phase = .reset ∨ s.pwr.phase = .debugHalt →
    s.dipOver = false →
    Gives (exec .stbynLow s) (fun t =>
      t.pwr.phase = .standby ∧ t.tb.lfRun = true ∧ t.cells = [] ∧ t.loaded = false ∧ t.sys.safeOk = false)) ∧
  (∀ s : State, s.pwr.fail = false → s.pwr.phase = .service → s.dipOver = false →
    Gives (exec .stbynLow s) (fun t => t.pwr.phase = .standby ∧ t.tb.lfRun = true ∧ t.cells = [] ∧ t.loaded = false)) ∧
  (∀ s : State, s.pwr.phase = .service → s.dipOver = true →
    Gives (exec .stbynLow s) (fun t => t.pwr.fail = true ∧ t.pwr.phase = .service ∧ t.cells = s.cells)) ∧
  (∀ s : State, s.pwr.phase.hostUp = true → s.busUp = true →
    (s.permitsOff && !s.cellHandover && !s.commitRuns) = false →
      Gives (exec .standbyRequest s) (fun t =>
        t.pwr.evt = setBit s.pwr.evt 3 true ∧ t.pwr.phase = s.pwr.phase)) ∧
  (∀ s : State, s.pwr.phase.hostUp = true → s.busUp = true → s.pwr.fail = false → s.pwr.phase = .service → s.dipOver = false →
    (s.permitsOff && !s.cellHandover && !s.commitRuns) = true →
      Gives (exec .standbyRequest s) (fun t => t.pwr.phase = .standby ∧ t.tb.lfRun = true ∧ t.cells = [])) ∧
  (∀ s : State, s.pwr.phase = .standby →
    Gives (exec .wakeByStbyn s) (fun t =>
      t.pwr.stbyn = true ∧ t.pwr.start = 2 ∧
      (s.pwr.vsysOk = true → t.tb.lfRun = false ∧
        t.pwr.phase = (if s.pwr.rstn && !s.pwr.otHold then .starting else .reset)) ∧
      (s.pwr.vsysOk = false → t.pwr.wake = true ∧ t.pwr.phase = .standby))) ∧
  (∀ s : State, s.pwr.phase = .standby → s.pwr.stbyn = true →
    Gives (exec .wakeByWake s) (fun t =>
      t.pwr.start = 3 ∧
      (s.pwr.vsysOk = true → t.tb.lfRun = false ∧
        t.pwr.phase = (if s.pwr.rstn && !s.pwr.otHold then .starting else .reset)) ∧
      (s.pwr.vsysOk = false → t.pwr.wake = true ∧ t.pwr.phase = .standby)))

/-- R24, R72, R78, R93, R467, R496: loss of the PLL lock, or a REFCLK more than 1,000 ppm off, stops the spine: its event
sets, the cause is kept and the module is in fault stop; within 1,000 ppm only the measurement changes; the 32.768 kHz
oscillator's fall is an event; loss of the refresh of one output permit logic, which one being a free value, takes SAFE_OK
low; a module debug halt runs TB from the 32.768 kHz clock and takes SAFE_OK low, and its release restarts the module. That
TB goes on from the 32.768 kHz clock after a clock fault is log entry 95. -/
def Obligations.ClocksAndModuleDebug : Prop :=
  (∀ s : State, s.spineRuns = true → s.pwr.phase ≠ .faultStop →
    Gives (exec .pllLockLoss s) (fun t =>
      t.clk.pllLock = false ∧ t.clk.evt = setBit s.clk.evt 0 true ∧ t.pwr.clkKept = 1 ∧ t.sys.coreLost = true ∧
      t.pwr.phase = .faultStop ∧ t.engs = [] ∧ t.regions = 0 ∧ t.sys.safeOk = false ∧ t.tb.tb = s.tb.tb ∧ t.tb.lfRun = true)) ∧
  (∀ (ppm : Int) (s : State), s.spineRuns = true →
    (-1000 ≤ ppm → ppm ≤ 1000 →
      exec (.refclkCheck ppm) s = .next ({ s with clk := { s.clk with ppm := BitVec.ofInt 16 ppm, refOk := true } }).settle) ∧
    (1000 < ppm → s.clk.refOk = true → s.pwr.phase ≠ .faultStop →
      Gives (exec (.refclkCheck ppm) s) (fun t =>
        t.clk.refOk = false ∧ t.clk.evt = setBit s.clk.evt 1 true ∧ t.pwr.clkKept = 2 ∧ t.sys.coreLost = true ∧
        t.pwr.phase = .faultStop ∧ t.sys.safeOk = false))) ∧
  (∀ (runs : Bool) (s : State), Gives (exec (.lfOscillatorChange runs) s) (fun t => t.clk = { s.clk with
      lfOk := runs, evt := if s.clk.lfOk && !runs then setBit s.clk.evt 2 true else s.clk.evt } ∧ t.tb = s.tb ∧ t.pwr = s.pwr)) ∧
  (∀ s : State, Gives (exec .safeOkRefreshLoss s) (fun t =>
    ((t.sys.refreshA = false ∧ t.sys.refreshB = s.sys.refreshB) ∨ (t.sys.refreshA = s.sys.refreshA ∧ t.sys.refreshB = false)) ∧
    t.sys.safeOk = false ∧ t.pwr = s.pwr ∧ t.cells = s.cells ∧ t.tb = s.tb)) ∧
  (∀ s : State, s.spineRuns = true → Gives (exec .moduleDebugHalt s) (fun t =>
    t.pwr.phase = .debugHalt ∧ t.tb.lfRun = true ∧ t.sys.refreshA = false ∧ t.sys.refreshB = false ∧ t.sys.safeOk = false)) ∧
  (∀ s : State, s.pwr.phase = .debugHalt → Gives (exec .moduleDebugRelease s) (fun t =>
    t.pwr.phase = (if s.pwr.rstn && !s.pwr.otHold then .starting else .reset) ∧ t.cells = [] ∧ t.loaded = false ∧ t.engs = []))

/-- R464 to R468: a start-up whose tests find nothing, with no valid bank, ends in service: every step is done, the regions
that pass are powered, no cell is loaded and NOBANK shows; a Lid that fails its test, or the loss of every region, is a fault
stop at its step; still without lock 10 s after S10 began the cells are loaded unlocked, and a lock before then ends the wait as the
tick ends. -/
def Obligations.StartUpSequence : Prop :=
  (∀ (o : StartObs) (s : State), s.pwr.phase = .starting → o.spine = [] → o.field = [] → o.items = [] →
    o.lidA = false → o.lidB = false → o.storeLost = false → o.regions ≠ 0 → s.store.bank0.hdr = {} → s.store.bank1.hdr = {} →
    s.store.holder = none → s.store.credBad ≠ 3 → s.bist.hold = false →
      Gives (exec (.startUp o) s) (fun t =>
        t.pwr.phase = .service ∧ t.sys.done = 0x7FF#11 ∧ t.sys.failStep = 0 ∧ t.sys.noBank = true ∧ t.loaded = false ∧
        t.regions = o.regions ∧ t.cells = [])) ∧
  (∀ (o : StartObs) (s : State), s.pwr.phase = .starting → o.spine = [] → o.lidA = true →
    Gives (exec (.startUp o) s) (fun t =>
      t.pwr.phase = .faultStop ∧ t.sys.failStep = 4 ∧ t.regions = 0 ∧ t.sys.safeOk = false)) ∧
  (∀ (o : StartObs) (s : State), s.pwr.phase = .starting → o.spine = [] → o.lidA = false → o.lidB = false → o.field = [] →
    o.items = [] → o.regions = 0 →
      Gives (exec (.startUp o) s) (fun t =>
        t.pwr.phase = .faultStop ∧ t.sys.failStep = 6 ∧ t.regions = 0 ∧ t.sys.safeOk = false)) ∧
  (∀ s : State, s.pwr.phase = .waitLock → s.cfg.cells = [] →
    (s.tb.lock = false → s.past s.pwr.s10At (secs 10) = true →
      Gives (exec .unlockedLoad s) (fun t =>
        t.sys.unlocked = true ∧ t.pwr.phase = .service ∧ t.sys.refreshA = true ∧ t.sys.refreshB = true)) ∧
    (s.tb.lock = true → s.lockedLoad.pwr.phase = .service ∧ s.lockedLoad.sys.unlocked = s.sys.unlocked ∧
      s.lockedLoad.sys.refreshA = true ∧ s.lockedLoad.sys.refreshB = true))

/-! ### Timebase, compare channels, PTP (R81 to R111, R361, R362, R492) -/

/-- R83, R142, R363, R492: a read of the low word of a latched group returns it and latches the rest for its reader alone: TB
for each party (the host's 64-bit read returns all of it at once), INC, a statistics counter, and the head of a capture queue,
which a read by its consumer removes, while a reader that is not its consumer gets 0 and removes nothing. A party's read of
TB_HI or TB_FRAC returns its latch. -/
def Obligations.LatchedReads : Prop :=
  (∀ (p : Party) (what : TbRead) (s : State), what = .lo ∨ what = .wide →
    Gives (exec (.tbLoRead p what) s) (fun t =>
      t.rd.lo = s.tb.tb.extractLsb' 0 32 ∧ (p = .host → what = .wide → t.rd.hi = s.tb.tb.extractLsb' 32 32) ∧
      (∀ n : Nat, Tab.get {} t.tb.latch n =
        if n = partyNo p then { hi := s.tb.tb.extractLsb' 32 32, frac := s.tb.frac } else Tab.get {} s.tb.latch n) ∧
      t.tb.tb = s.tb.tb ∧ t.tb.inc = s.tb.inc)) ∧
  (∀ (p : Party) (s : State),
    exec (.tbLoRead p .hi) s = .next ({ s with rd := { lo := (Tab.get {} s.tb.latch (partyNo p) : TbLatch).hi, hi := 0 } }).settle ∧
    exec (.tbLoRead p .frac) s = .next ({ s with rd := { lo := (Tab.get {} s.tb.latch (partyNo p) : TbLatch).frac, hi := 0 } }).settle) ∧
  (∀ s : State, exec .clkIncLoRead s = .next ({ s with
    clk := { s.clk with incHi := s.tb.inc.extractLsb' 32 32 }, rd := { lo := s.tb.inc.extractLsb' 0 32, hi := 0 } }).settle) ∧
  (∀ s : State, exec .statLoRead s = .next ({ s with
    net := { s.net with statHi := s.statWord.extractLsb' 32 32 }, rd := { lo := s.statWord.extractLsb' 0 32, hi := 0 } }).settle) ∧
  (∀ (e : Fin 8) (h : CapE) (rest : List CapE) (s : State), (s.enc e).queue = h :: rest →
    (s.inp (encInputA e)).code ≠ 15 →
      ((Tab.get {} s.cfg.caps e).consumer = none →
        Gives (exec (.capLoRead e .host) s) (fun t =>
          t.rd = { lo := h.stamp.extractLsb' 0 32, hi := h.stamp.extractLsb' 32 32 } ∧
          t.enc e = { s.enc e with queue := rest, latch := some h })) ∧
      (∀ c : Fin 1024, (Tab.get {} s.cfg.caps e).consumer = some c.val →
        Gives (exec (.capLoRead e (.cell c)) s) (fun t =>
          t.rd = { lo := h.stamp.extractLsb' 0 32, hi := h.stamp.extractLsb' 32 32 } ∧ (t.enc e).queue = rest ∧
          Tab.get none (t.enc e).cellLatch c = some h ∧ (t.enc e).latch = (s.enc e).latch))) ∧
  (∀ (e : Fin 8) (c : Fin 1024) (s : State), (Tab.get {} s.cfg.caps e).consumer ≠ some c.val →
    Gives (exec (.capLoRead e (.cell c)) s) (fun t => t.rd = { lo := 0, hi := 0 } ∧ (t.enc e).queue = (s.enc e).queue ∧
      Tab.get none (t.enc e).cellLatch c = none ∧ (t.enc e).latch = (s.enc e).latch))

/-- R95, R97, R99, R489: a write to a channel's low word stores it and disarms the channel; a write to its high word stores it
and arms the channel with the value of both words, and a value already reached is late and fires at once; a write to TCMP_ACT
stores the action and disarms, and one with a reserved code is ignored with BADACT. A channel that is already due fires before
the write disarms it. A write to a host channel is a write of the host. -/
def Obligations.ChannelWrites : Prop :=
  (∀ (n : Fin 256) (v : Word) (s w : State), w = (if 224 ≤ n.val then s.hostWrite else s) →
    (s.due n = false →
      exec (.tcmpLoWrite n v) s = .next (w.updChan n (fun c => { c with lo := v, armed := false })).settle) ∧
    (s.due n = true → (s.chan n).code ≠ 5 → (s.chan n).code ≠ 6 → (s.chan n).code ≠ 8 →
      exec (.tcmpLoWrite n v) s = .next ((w.fire n).updChan n (fun c => { c with lo := v, armed := false })).settle) ∧
    (reached s.now (v.toNat * 2 ^ 32 + (s.chan n).lo.toNat) = false ∨ s.tb.lfRun = true →
      exec (.tcmpHiWrite n v) s = .next (w.updChan n (fun c => { c with
        hi := v, armed := true, val := BitVec.ofNat 64 (v.toNat * 2 ^ 32 + c.lo.toNat) })).settle)) ∧
  (∀ (n : Fin 256) (v : Word) (s : State), reached s.now (v.toNat * 2 ^ 32 + (s.chan n).lo.toNat) = true → s.tb.lfRun = false →
    (s.chan n).code = 0 → (s.chan n).cell = none → (s.chan n).shared = false →
      Gives (exec (.tcmpHiWrite n v) s) (fun t =>
        (t.chan n).armed = false ∧ (t.chan n).hi = v ∧ (t.chan n).lo = (s.chan n).lo ∧ t.tb = { s.tb with evt := setBit s.tb.evt 3 true } ∧
        (224 ≤ n.val → bit t.regs.fired (n.val - 224) = true) ∧ ∀ m : Nat, m ≠ n → t.chan m = s.chan m)) ∧
  (∀ (n : Fin 32) (v : Word) (s : State), fld v 3 0 ≤ 2 →
    (s.due (224 + n) = false →
      exec (.tcmpActWrite n v) s = .next (s.hostWrite.updChan (224 + n) (fun c => { c with
        act := v.extractLsb' 0 12, armed := false })).settle) ∧
    (s.due (224 + n) = true → (s.chan (224 + n)).code ≤ 2 →
      exec (.tcmpActWrite n v) s = .next ((s.hostWrite.fire (224 + n)).updChan (224 + n) (fun c => { c with
        act := v.extractLsb' 0 12, armed := false })).settle)) ∧
  (∀ (n : Fin 32) (v : Word) (s : State), fld v 3 0 > 2 →
    Gives (exec (.tcmpActWrite n v) s) (fun t => t.chans = s.chans ∧ t.tb = { s.tb with evt := setBit s.tb.evt 4 true }))

/-- R94, R95, R97 to R99, R157, R324, R401, R402: a channel that is armed and due fires by its action code: it disarms, a host
channel sets its FIRED bit, and the action has its effect; on one standard output an off of the same tick wins over a later
on, and a channel's on after a PI_WRITE's off of the same tick has no effect either. -/
def Obligations.ChannelActions : Prop :=
  (∀ (n : Fin 256) (s : State), s.due n = true → (s.chan n).code = 0 → (s.chan n).cell = none →
    Gives (exec (.tcmpFlagOnly n) s) (fun t =>
      (t.chan n).armed = false ∧ (224 ≤ n.val → bit t.regs.fired (n.val - 224) = true) ∧ t.cells = s.cells ∧ t.perm = s.perm)) ∧
  (∀ (n : Fin 256) (s : State), s.due n = true → (s.chan n).code = 1 → 224 ≤ n.val →
    (s.outRec (16 * fld (s.chan n).act 5 4 + fld (s.chan n).act 9 6)).mode = 2 →
      exec (.tcmpSetStandardOutput n) s = .next ((s.fired n).chanLevel (16 * fld (s.chan n).act 5 4 + fld (s.chan n).act 9 6)
        (bit (s.chan n).act 10)).settle) ∧
  (∀ (o : Nat) (s : State),
    ((s.chanLevel o false).out o).level = false ∧ (s.chanLevel o false).tb.chanOff.contains o = true ∧
    (s.tb.chanOff.contains o = false → s.tb.hostOff.contains o = false → ((s.chanLevel o true).out o).level = true) ∧
    (s.tb.chanOff.contains o = true ∨ s.tb.hostOff.contains o = true → s.chanLevel o true = s)) ∧
  (∀ (n : Fin 256) (s : State), s.due n = true → (s.chan n).code = 2 →
    Gives (exec (.tcmpHostSnapshot n) s) (fun t =>
      (t.chan n).armed = false ∧ t.hif.snap = some ((s.fired n).hostImage (some n)))) ∧
  (∀ (n : Fin 256) (c : Nat) (s : State), s.due n = true → (s.chan n).code = 3 → (s.chan n).cell = some c →
    Gives (exec (.tcmpCellSnapshot n) s) (fun t =>
      (t.chan n).armed = false ∧ Tab.get 0 (t.cell c).pi 1 = s.tb.tb.extractLsb' 0 32 ∧
      Tab.get 0 (t.cell c).pi 2 = s.tb.tb.extractLsb' 32 32)) ∧
  (∀ (n : Fin 256) (c : Nat) (s : State), s.due n = true → (s.chan n).code = 4 → (s.chan n).cell = some c →
    (s.fired n).heldArmed c = false →
      Gives (exec (.tcmpPermitRelease n) s) (fun t =>
        (∀ h ∈ t.perm.held, h.cell ≠ c) ∧ (∀ h : Held, s.perm.held = [h] → h.cell = c → h.second = false →
          (Tab.get {} t.perm.slots h.slot).p0 = true ∧ (Tab.get {} t.perm.slots h.slot).t0 = s.now))) ∧
  (∀ (n : Fin 256) (b : Nat) (s : State), s.due n = true → (s.chan n).code = 5 → (s.chan n).use = .bank b →
    Gives (exec (.tcmpTestPulseScheduleStart n) s) (fun t =>
      (t.bank b).sched = some (s.chan n).value ∧ (t.chan n).armed = false)) ∧
  (∀ (n : Fin 256) (s : State), s.due n = true → (s.chan n).code = 7 →
    exec (.tcmpSs1Launch n) s = .next (((s.fired n).launchGroups n).foldl (fun s g => s.launchSs1 g) (s.fired n)).settle)

/-- R85, R87 to R91: with no cell loaded and more than 1 µs of offset a measurement steps TB by the offset and UNSET clears;
otherwise TB goes on and the increment stays within 250 ppm of nominal on the reference and 400 ppm elsewhere.
R86, R90, R108, R361: a Sync measurement on the slave port of a module that follows PTP disciplines TB; the port leaves SLAVE
for LISTENING when Announce stays away; a Delay_Req of a running port leaves under its sequenceId and is counted; without a
measurement for 100 ms on a PTP reference, or 2 cycles on a follower, the module leaves lock; after an announced leap second the UTC
offset is one higher. -/
def Obligations.TimeSourcesDiscipline : Prop :=
  (∀ (off : Int) (ref : Bool) (s : State),
     (s.anyLoaded = false → 1000 < off.natAbs →
       (s.measure off ref).tb.tb = BitVec.ofInt 64 ((s.now : Int) - off) ∧ (s.measure off ref).tb.unset = false) ∧
     (s.anyLoaded = true ∨ off.natAbs ≤ 1000 →
       (s.measure off ref).tb.tb = s.tb.tb ∧ (s.measure off ref).tb.frac = s.tb.frac ∧
       17179869184 - 17179869184 * (if ref then 250 else 400) / 1000000 ≤ (s.measure off ref).tb.inc.toNat ∧
       (s.measure off ref).tb.inc.toNat ≤ 17179869184 + 17179869184 * (if ref then 250 else 400) / 1000000)) ∧
  ((∀ (m : Fin 4) (off : Int) (s : State), s.ptpRuns m = true → s.ptpProfile ≠ 3 → (s.mac m).port = 9 → s.tb.src = 0 →
     exec (.ptpMessageReceive m (.sync off)) s = .next ((s.macStat m 14).measure off true).settle) ∧
   (∀ (m : Fin 4) (s : State), 7 ≤ (s.mac m).port.toNat →
     Gives (exec (.announceReceiptTimeout m) s) (fun t => (t.mac m).port = 4)) ∧
   (∀ (m : Fin 4) (s : State), s.ptpRuns m = true → 8 ≤ (s.mac m).port.toNat →
     exec (.ptpDelayRequestSend m) s = .next (((s.emit (.ptp m (s.mac m).ptpSeq)).updMac m
       (fun k => { k with ptpSeq := k.ptpSeq + 1 })).macStat m 15).settle) ∧
   (∀ s : State, s.tb.src.toNat ≤ 1 →
     (s.tb.measAt = none ∨ (∃ t0, s.tb.measAt = some t0 ∧ s.past t0 (if s.tb.src = 1 then 100000 else 100000000) = true) →
       Gives (exec .lockTimeout s) (fun t =>
         t.tb.lock = false ∧ t.tb.good = 0 ∧ t.tb.far = 0 ∧ t.tb.tb = s.tb.tb ∧
         (s.tb.lock = true → bit t.tb.evt 0 = true))) ∧
     (∀ t0 : Nat, s.tb.measAt = some t0 → s.past t0 (if s.tb.src = 1 then 100000 else 100000000) = false →
       exec .lockTimeout s = .next s)) ∧
   (∀ s : State, s.tb.leap61 = true →
     ((s.tb.leapDay + 1 : Nat) : Int) * 86400000000 + 1000000 ≤ utcMicros s.now s.tb.utc.toInt →
       exec .leapSecondMidnight s = .next ({ s with tb := { s.tb with utc := s.tb.utc + 1, leap61 := false } }).settle))

/-! ### Inputs, pairs and encoders (R113 to R145) -/

/-- R121, R124, R128, R130, R135: a level change of an input in service is taken at step 1; a filtered channel starts its
filter and keeps its level; a windowed channel outside a window follows, and inside one, or at an edge in the start tick of
one, keeps its level and has its drop noted; an OSSD channel of SIG 0 that drops alone, not too soon after its last test, is
held. -/
def Obligations.InputEdgesQualify : Prop :=
  (∀ (n : Fin 128) (level : Bool) (s : State),
    exec (.inputEdge n level none) s =
      .next (((s.rawEdge n level false).afterQual n).supplyCheck (n / 2 * 2 + (1 - n % 2))).settle) ∧
  (∀ (n : Nat) (level : Bool) (s : State), (s.inp n).raw ≠ level → s.inputOut n = false →
    ((s.rawEdge n level false).inp n).raw = level ∧
    ((s.inRec n).filtered = true → (s.inp n).q ≠ level → s.filterTime n level ≠ 0 →
      ((s.rawEdge n level false).inp n).filter = some s.now ∧ ((s.rawEdge n level false).inp n).q = (s.inp n).q) ∧
    ((s.inRec n).windowed = true → (s.inp n).inWin = false → s.winOpen n = none →
      ((s.rawEdge n level false).inp n).q = level) ∧
    ((s.inRec n).windowed = true → (s.inp n).inWin = true → s.past (s.inp n).winEnd 0 = false →
      ((s.rawEdge n level false).inp n).q = (s.inp n).q ∧
      ((s.rawEdge n level false).inp n).dropSeen = ((s.inp n).dropSeen || !level)) ∧
    (∀ w : Nat, (s.inRec n).windowed = true → (s.inp n).inWin = false → s.winOpen n = some w →
      ((s.rawEdge n level false).inp n).q = (s.inp n).q ∧ ((s.rawEdge n level false).inp n).inWin = true ∧
      ((s.rawEdge n level false).inp n).held = (s.inp n).q) ∧
    ((s.inRec n).ossd = true → level = false → (s.inRec n).sig = 0 → (s.inp n).q = true →
      (s.inp (n / 2 * 2 + (1 - n % 2))).q = true → (s.inp (n / 2 * 2 + (1 - n % 2))).ossd = none → s.ossdTooSoon n = false →
      ((s.rawEdge n level false).inp n).ossd = some s.now ∧ ((s.rawEdge n level false).inp n).q = true))

/-- R115, R117, R124, R127, R131, R143: what the tests of one configured input find, where its pair has no discrepancy that
runs out in this tick: a good status word restarts the count of bad ones, two bad or missing ones in a row are LANE_CHECK; an
own window ends with TP_MISSING where a kind-2 channel held ON saw no drop; a drop inside a foreign window is CROSS_SHORT; the
third low measurement is WIRE_BREAK; a sink outside its range is SINK_FAULT, and a passed probe after a unit reset clears it.
R114, R115: a wetting that has lasted 1.9 ms ends, and the next waiting request of the half is served. -/
def Obligations.InputTestsFindFaults : Prop :=
  (∀ (n : Fin 128) (w : Word) (s : State),
    Gives (exec (.inputLaneStatusWord n w true) s) (fun t =>
      (t.inp n).laneBad = 0 ∧ (t.inp n).laneGood = min 8 ((s.inp n).laneGood + 1) ∧ (t.inp n).q = (s.inp n).q)) ∧
  (∀ (n : Fin 128) (s : State), (s.inRec n).kind ≠ 0 → ((s.inRec (n / 2 * 2)).pair = false ∨ s.discDue (n / 2) = false) →
    ((s.inp n).laneBad = 1 →
      Gives (exec (.inputLaneWordMissing n) s) (fun t => (t.inp n).laneBad = 2 ∧ (t.inp n).code = 8)) ∧
    ((s.inRec n).kind = 2 → (s.inp n).inWin = true → (s.inp n).held = true → (s.inp n).dropSeen = false →
      s.past (s.inp n).winEnd 0 = true →
      Gives (exec (.tpWindowEnd n) s) (fun t =>
        (t.inp n).code = 3 ∧ (t.inp n).inWin = false ∧ (t.inp n).q = (s.inp n).raw)) ∧
    (∀ (k : Fin 8) (d a b : Nat), (s.inRec n).kind = 2 → (s.inRec n).src ≠ k.val → (s.inp n).dropAt = some d →
      s.foreignWindow n (8 * (n / 32) + k) = some (a, b) → a ≤ d → d < b → (s.inp n).raw = true →
      Gives (exec (.foreignWindowEnd n k) s) (fun t => (t.inp n).code = 4)) ∧
    ((s.inRec n).wb = true → (s.inp n).inWin = false → s.inputOut n = false → (s.inp n).raw = false → (s.inp n).wbLow = 2 →
      ((s.inp n).wbAt = none ∨ ∃ a, (s.inp n).wbAt = some a ∧ s.past a 1000000 = true) →
      Gives (exec (.wireBreakMeasurement n true) s) (fun t => (t.inp n).code = 5 ∧ (t.inp n).wbLow = 3)) ∧
    (s.past (s.inp n).edgeAt (secs 10) = true →
      Gives (exec (.sinkProbe n false) s) (fun t => (t.inp n).code = 9)) ∧
    ((s.inp n).code = 9 → (s.inp n).armClr = true →
      Gives (exec (.sinkProbe n false) s) (fun t => (t.inp n).code = 9 ∧ (t.inp n).armClr = false) ∧
      ((s.inp n).raw = false → (s.inp n).inWin = false → (s.inp n).ossd = none →
        Gives (exec (.sinkProbe n true) s) (fun t => (t.inp n).code = 0)))) ∧
  (∀ (h : Fin 8) (n m a : Nat) (rest : List Nat) (s : State), (s.wetQ h) = { now := some n, at_ := a, waiting := m :: rest } →
    m ≠ n → s.past a 1900000 = true →
    Gives (exec (.wettingEnd h true) s) (fun t =>
      t.wetQ h = { now := some m, at_ := s.now, waiting := rest } ∧ (t.inp m).wet = true ∧ (t.inp n).wet = (s.inRec n).sink))

/-- R122, R124, R128 to R130, R135 to R137: windows and filters by time. An own window that the schedule has open begins: the
level is held, and whether the channel is already low is noted; a filter that has run its time accepts the level and ends the
hold after loading; a held OSSD drop that reaches OW is OFF; PMAX in ON without a counted test raises code 6 on the pair's
even input; 2 × OW of ON after loading ends the hold; a deferred change of a pair's records takes effect with the pair OFF,
with a record. A command that is not due changes nothing. -/
def Obligations.InputTimers : Prop :=
  (∀ (n : Fin 128) (s : State),
    (∀ w : Nat, s.winOpen n = some w → (s.inp n).inWin = false →
      exec (.tpWindowStart n) s = .next ((s.updInp n (fun i =>
        { i with inWin := true, winEnd := w, held := i.q, dropSeen := !i.raw })).afterQual n).settle) ∧
    (s.winOpen n = none ∨ (s.inp n).inWin = true → exec (.tpWindowStart n) s = .next (s.afterQual n).settle)) ∧
  (∀ (n : Fin 128) (b : Nat) (s : State), (s.inp n).filter = some b → (s.inRec n).filtered = true →
    (s.past b (s.filterTime n (s.inp n).raw) = true →
      exec (.filterExpiry n) s =
        .next ((s.updInp n (fun i => { i with q := i.raw, filter := none, hold0 := false })).afterQual n).settle) ∧
    (s.past b (s.filterTime n (s.inp n).raw) = false → exec (.filterExpiry n) s = .next s.settle)) ∧
  (∀ (n : Fin 128) (b : Nat) (s : State), (s.inp n).ossd = some b →
    (s.past b (s.inRec n).ow = true →
      exec (.ossdHoldExpiry n) s =
        .next ((s.updInp n (fun i => { i with q := false, ossd := none, onSince := none })).afterQual n).settle) ∧
    (s.past b (s.inRec n).ow = false → exec (.ossdHoldExpiry n) s = .next s.settle)) ∧
  (∀ (n : Fin 128) (b : Nat) (s : State), (s.inRec n).ossd = true → (s.inRec n).pmax ≠ 0 → (s.inp n).q = true →
    (s.pair (n / 2)).st ≠ .off → (s.inp n).onSince = some b →
    (s.past b (s.inRec n).pmax = true →
      ((s.inp n).lastTest = none ∨ ∃ l, (s.inp n).lastTest = some l ∧ s.past l (s.inRec n).pmax = true) →
      exec (.ossdNoTest n) s =
        .next ((s.raiseIn (n / 2 * 2) 6 (d6 := BitVec.ofNat 32 (n % 2))).afterQual n).settle) ∧
    (s.past b (s.inRec n).pmax = false → exec (.ossdNoTest n) s = .next s.settle)) ∧
  (∀ (m : Nat) (d6 : Word) (s : State), (s.inRec m).kind ≠ 0 → ((s.raiseIn m 6 (d6 := d6)).inp m).code = 6) ∧
  (∀ (n : Fin 128) (b : Nat) (s : State), (s.inp n).onSince = some b → (s.inRec n).ossd = true → (s.inp n).hold0 = true →
    (s.inp n).raw = true →
    (s.past b (2 * (s.inRec n).ow) = true →
      exec (.ossdStartHoldExpiry n) s =
        .next ((s.updInp n (fun i => { i with hold0 := false, q := true })).afterQual n).settle) ∧
    (s.past b (2 * (s.inRec n).ow) = false → exec (.ossdStartHoldExpiry n) s = .next s.settle)) ∧
  (∀ (p : Fin 64) (e o : InRec) (c : Nat) (s : State), (s.pair p).deferred = some (e, o, c) →
    ((s.pair p).st = .off →
      exec (.inputApplied p) s = .next (((s.updPair p (fun r => { r with deferred := none })).putInputs p e o).cellRec 11 c
        (BitVec.ofNat 32 (siteInput (2 * p) + 4096 * s.modAddr))).settle) ∧
    ((s.pair p).st ≠ .off → exec (.inputApplied p) s = .next s.settle)) ∧
  (∀ (p : Nat) (e o : InRec) (s : State),
    Tab.get {} (s.putInputs p e o).cfg.ins (2 * p) = e ∧ Tab.get {} (s.putInputs p e o).cfg.ins (2 * p + 1) = o)

/-- R133: the pair machine. From OFF both channels active give ON and one alone WAIT_ON with the timer started; in WAIT_ON
before expiry the awaited channel gives ON, the waiting one lost OFF, and both changes in one tick WAIT_ON afresh for the other;
ON with one channel lost gives WAIT_OFF with the timer started, with both OFF; in WAIT_OFF both safe before expiry give OFF; DISC
run out gives FAULT with code 1 in WAIT_ON and code 2 in WAIT_OFF; FAULT ends in OFF with its code cleared once both channels are
safe before forcing and no other latched code forces them; else the pair stays as it is. The pair term is ON only in ON. -/
def Obligations.PairMachine : Prop :=
  (∀ (p : Nat) (s : State), (s.inRec (2 * p)).pair = true →
    (s.pairOn p = true ↔ (s.pair p).st = .on) ∧
    ((s.pair p).st = .off → s.active (2 * p) = true → s.active (2 * p + 1) = true → ((s.evalPair p).pair p).st = .on) ∧
    ((s.pair p).st = .off → s.active (2 * p) = true → s.active (2 * p + 1) = false →
      ((s.evalPair p).pair p).st = .waitOn ∧ ((s.evalPair p).pair p).start = some s.now ∧ ((s.evalPair p).pair p).first = .a) ∧
    ((s.pair p).st = .off → s.active (2 * p) = false → s.active (2 * p + 1) = true →
      ((s.evalPair p).pair p).st = .waitOn ∧ ((s.evalPair p).pair p).start = some s.now ∧ ((s.evalPair p).pair p).first = .b) ∧
    ((s.pair p).st = .off → s.active (2 * p) = false → s.active (2 * p + 1) = false → s.evalPair p = s) ∧
    (∀ first : AB, (s.pair p).st = .waitOn → (s.pair p).first = first → s.discDue p = false →
      (s.active (2 * p) = true → s.active (2 * p + 1) = true → ((s.evalPair p).pair p).st = .on) ∧
      (s.active (2 * p) = decide (first = .a) → s.active (2 * p + 1) = decide (first = .b) → s.evalPair p = s) ∧
      (s.active (2 * p) = decide (first = .b) → s.active (2 * p + 1) = decide (first = .a) →
        ((s.evalPair p).pair p).st = .waitOn ∧ ((s.evalPair p).pair p).start = some s.now ∧
        ((s.evalPair p).pair p).first = first.other) ∧
      (s.active (2 * p) = false → s.active (2 * p + 1) = false → ((s.evalPair p).pair p).st = .off)) ∧
    ((s.pair p).st = .on → s.active (2 * p) ≠ s.active (2 * p + 1) →
      ((s.evalPair p).pair p).st = .waitOff ∧ ((s.evalPair p).pair p).start = some s.now) ∧
    ((s.pair p).st = .on → s.active (2 * p) = false → s.active (2 * p + 1) = false → ((s.evalPair p).pair p).st = .off) ∧
    ((s.pair p).st = .on → s.active (2 * p) = true → s.active (2 * p + 1) = true → s.evalPair p = s) ∧
    ((s.pair p).st = .waitOff → s.discDue p = false →
      (s.active (2 * p) = false → s.active (2 * p + 1) = false → ((s.evalPair p).pair p).st = .off) ∧
      (s.active (2 * p) = true ∨ s.active (2 * p + 1) = true → s.evalPair p = s)) ∧
    ((s.pair p).st = .fault →
      (s.safe3 (2 * p) = true → s.safe3 (2 * p + 1) = true → ownForcing (s.inp (2 * p)).code = false →
        ownForcing (s.inp (2 * p + 1)).code = false →
          ((s.evalPair p).pair p).st = .off ∧ pairCode ((s.evalPair p).inp (2 * p)).code = false) ∧
      (s.safe3 (2 * p) = false ∨ s.safe3 (2 * p + 1) = false ∨ ownForcing (s.inp (2 * p)).code = true ∨
        ownForcing (s.inp (2 * p + 1)).code = true → s.evalPair p = s))) ∧
  (∀ (p : Fin 64) (s : State), (s.inRec (2 * p)).pair = true → (s.inRec (2 * p)).kind ≠ 0 → s.discDue p = true →
    ((s.pair p).st = .waitOn → Gives (exec (.discTimerExpiry p) s) (fun t => (t.pair p).st = .fault ∧ (t.inp (2 * p)).code = 1)) ∧
    ((s.pair p).st = .waitOff → Gives (exec (.discTimerExpiry p) s) (fun t => (t.pair p).st = .fault ∧ (t.inp (2 * p)).code = 2)))

/-- R138: an edge of one signal of an active encoder, with both inputs in service, the other signal steady and no earlier
edge, moves the count by one: up where A leads B, down where B leads A. -/
def Obligations.EncoderCounts : Prop :=
  ∀ (e : Fin 8) (s : State), s.encActive e = true → (s.enc e).rearm = false → (s.enc e).lastA = none → (s.enc e).lastB = none →
    s.inputOut (encInputA e) = false → s.inputOut (encInputA e + 1) = false →
    Gives (exec (.encoderEdge e (!(s.enc e).a) (s.enc e).b) s) (fun t =>
      (t.enc e).count = (if (!(s.enc e).a) != (s.enc e).b then (s.enc e).count + 1 else (s.enc e).count - 1) ∧
      (t.enc e).a = !(s.enc e).a ∧ (t.enc e).b = (s.enc e).b) ∧
    Gives (exec (.encoderEdge e (s.enc e).a (!(s.enc e).b)) s) (fun t =>
      (t.enc e).count = (if (!(s.enc e).b) == (s.enc e).a then (s.enc e).count + 1 else (s.enc e).count - 1) ∧
      (t.enc e).b = !(s.enc e).b ∧ (t.enc e).a = (s.enc e).a)

/-! ### Outputs, sources, field halves, the Ladle and the Lids (R146 to R204, R453 to R462) -/

/-- R149, R150, R151, R152, R455: no element of an output that may not conduct does so or waits after a turn-off; a turn-on takes its
tokens and starts at once where nothing waits in its domain and L suffices, and waits where L does not; an output that has stayed in
current limit for LIMT takes OVERLOAD; a report of the bank's measurements is kept, and above 6.5 A only the event sets. -/
def Obligations.OutputsTurnOnAndOff : Prop :=
  (∀ (o : Fin 64) (s : State), s.coreUp = true →
    Gives (exec (.outputTurnOff o) s) (fun t => ∀ e ∈ t.outs, e.1 = o.val → ∀ x : AB, mayConduct t o x = false →
      (e.2.el x).on = false ∧ (e.2.el x).waiting = false)) ∧
  (∀ (o : Fin 64) (s : State),
    exec (.outputTurnOn o) s = .next ((s.settle.turnOnEl o .a).turnOnEl o .b).settle) ∧
  (∀ (o : Nat) (x : AB) (s : State), s.coreUp = true → s.elCmd o x = true → ((s.out o).el x) = {} →
    ((s.bucket (o / 16 + 1)).queue = [] → (s.turnOnCost o x : Int) ≤ (s.bucket (o / 16 + 1)).level →
      (((s.turnOnEl o x).out o).el x).on = true ∧
      ((s.turnOnEl o x).bucket (o / 16 + 1)).level = (s.bucket (o / 16 + 1)).level - s.turnOnCost o x) ∧
    (0 < s.turnOnCost o x → (s.bucket (o / 16 + 1)).level < s.turnOnCost o x →
      (((s.turnOnEl o x).out o).el x).on = false ∧ (((s.turnOnEl o x).out o).el x).waiting = true ∧
      ((s.turnOnEl o x).bucket (o / 16 + 1)).level = (s.bucket (o / 16 + 1)).level)) ∧
  (∀ (o : Fin 64) (a : Nat) (s : State), (s.out o).conducts = true → (s.out o).limAt = some a →
    (s.past a (s.outRec o).limt = true → exec (.currentLimitExpiry o) s = .next (s.raiseOut o 7).settle) ∧
    (s.past a (s.outRec o).limt = false → exec (.currentLimitExpiry o) s = .next s.settle)) ∧
  (∀ (b : Fin 4) (h : AB) (ma : Nat) (temp : Byte) (vf : BitVec 10) (s u : State), s.halfOut b h = false →
    u = (s.updHalf b h (fun f => { f with temp := temp })).when (decide (h = .a))
      (fun s => s.updBank b (fun k => { k with meas := vf })) →
    (6500 < ma → exec (.bankCurrentAverage b h ⟨ma, temp, vf⟩) s = .next (u.bankEvt b 3).settle) ∧
    (ma ≤ 6500 → exec (.bankCurrentAverage b h ⟨ma, temp, vf⟩) s = .next u.settle))

/-- R169, R171, R174, R178, R183: an output keeps the code it holds against the same code, EXT_HIGH over CROSS_SHORT, and STD_MISMATCH
over a latching code; otherwise it takes the new code, its count and OUT_NEWDIAG, and STUCK_ON, STUCK_OFF, TEST_FAIL and
RB_DISAGREE take elements out of service; no other output changes. A code that clears leaves a safety output waiting for its
permit to be seen off and, SIL_EXPIRED apart, a standard output waiting for a write. THERMAL clears once neither junction is hot. -/
def Obligations.OutputCodesLatch : Prop :=
  (∀ (o code : Nat) (x : AB) (s : State),
    (codeRefused (s.out o).code.toNat code = true → s.raiseOut o code x = s) ∧
    (codeRefused (s.out o).code.toNat code = false →
      ((s.raiseOut o code x).out o).code = BitVec.ofNat 8 code ∧
      ((s.raiseOut o code x).out o).count = satInc (s.out o).count ∧
      (o < 64 → bit (s.raiseOut o code x).regs.outNew o = true) ∧
      (code = 1 ∨ code = 3 ∨ code = 10 → (s.raiseOut o code x).elOut o .a = true) ∧
      (code = 2 ∨ code = 4 ∨ code = 10 → (s.raiseOut o code x).elOut o .b = true) ∧
      (code = 9 → (s.raiseOut o code x).elOut o x = true) ∧
      (∀ p : Nat, p ≠ o → (s.raiseOut o code x).out p = s.out p))) ∧
  (∀ (o : Fin 64) (x : AB) (s : State),
    exec (.thermalShutdown (.elem o x)) s = .next ((s.updEl o x (fun e => { e with hot := true })).raiseOut o 8 x).settle ∧
    ((s.out o).code = 8 → ((s.out o).el x.other).hot = false →
      exec (.thermalRelease (.elem o x)) s = .next ((s.updEl o x (fun e => { e with hot := false })).clearOut o).settle) ∧
    (((s.out o).el x.other).hot = true →
      exec (.thermalRelease (.elem o x)) s = .next (s.updEl o x (fun e => { e with hot := false })).settle)) ∧
  (∀ (o : Nat) (s : State), ((s.clearOut o).out o).code = 0 ∧
    ((s.outRec o).mode = 1 → ((s.clearOut o).out o).rearm = true) ∧
    ((s.outRec o).mode = 2 → (s.out o).code ≠ 12 → ((s.clearOut o).out o).stdWait = true)) ∧
  (∀ (o : Fin 64) (a : Nat) (s : State), (s.out o).lowAt = some a → s.past a 1000000000 = true → (s.out o).dark = true →
    (s.out o).code = 5 ∨ (s.out o).code = 6 ∧ s.partnerLow (s.out o).partner = true →
      exec (.outputCodeClear o) s = .next (s.clearOut o).settle) ∧
  (∀ (o : Fin 64) (s : State), (s.out o).code = 7 → (s.out o).conducts = false → s.past (s.out o).offAt 100000000 = true →
    exec (.outputCodeClear o) s = .next (s.clearOut o).settle) ∧
  (∀ (o : Fin 64) (ball : Lvl) (s : State), (s.outRec o).mode = 2 →
    (ball ≠ (if s.stays o .a && s.stays o .b then Lvl.high else Lvl.low) →
      s.past (s.out o).onAt ((s.outRec o).limt + 20000) = true → s.past (s.out o).offAt ((s.outRec o).limt + 20000) = true →
      exec (.stdMismatch ⟨o, ball⟩) s = .next (s.raiseOut o 16).settle) ∧
    (ball = (if s.stays o .a && s.stays o .b then Lvl.high else Lvl.low) → exec (.stdMismatch ⟨o, ball⟩) s = .next s.settle)) ∧
  (∀ (o : Fin 64) (want : Lvl) (s : State), want = (if (s.out o).conducts then Lvl.high else Lvl.low) → (s.out o).code = 16 →
    (s.out o).rbA = want → (s.out o).rbB = want →
      exec (.outputCodeClear o) s = .next (s.updOut o (fun r => { r with code := 0 })).settle)

/-- R160, R162 to R167, R181: an off-pulse takes its element off at its place in the schedule; at its end both halves judge
the levels that three readings agree on: two passes bring the element back, two failures leave both off for the off-check,
different verdicts are RB_DISAGREE, and a dip discards the sample. An off-check that finds the ball high is EXT_HIGH, N high
STUCK_ON of A, both low STUCK_ON of B where the pulse showed the ball high and STUCK_OFF of A where not; a dark probe and a
continuous check latch the codes they name. R42, R167, R169, R170, R176: a report is held back while no heartbeat arrives, the
seventeenth dropped and counted; reports of both halves that differ are RB_DISAGREE; the second bad or missing word of an
element's lane in a row switches it off with LANE_CHECK. -/
def Obligations.OutputTestsAndLanesJudge : Prop :=
  ((∀ (o : Fin 64) (x : AB) (s : State), (s.outRec o).mode = 1 → edgeDue (s.slotPhase o x) 0 = true →
     (s.out o).conducts = true → (s.half (o / 16) x).silent = false →
       exec (.elementOffPulse o x) s =
         .next ((s.updEl o x (fun e => { e with on := false, test := .pulse,
                                                testAt := s.now - (s.slotPhase o x).getD 0 })).releaseFed o).settle) ∧
   (∀ (o : Fin 64) (x : AB) (ra rb : List Reading) (fallen : BitVec 16) (s c u : State), s.pulsed o = some x →
     (((s.out o).el x).test = .pulse → s.past ((s.out o).el x).testAt ((s.outRec o).opw + 100) = true) →
     c = s.updEl o x (fun e => { e with test := .none, cutAt := none }) →
     u = ((c.noteReadings o (foldReadings ra) (foldReadings rb)).updEl o x (fun e => { e with discard := 0 })).updOut o
       (fun r => { r with pulseAt := s.now }) →
       (s.dipped (o / 16) .a = true ∨ s.dipped (o / 16) .b = true →
         exec (.pulseVerdict o ⟨ra, rb⟩ fallen) s = .next ((c.discardTest o x).returnEl o x).settle) ∧
       (s.dipped (o / 16) .a = false → s.dipped (o / 16) .b = false →
         (pulsePass x (foldReadings ra) = true → pulsePass x (foldReadings rb) = true →
           exec (.pulseVerdict o ⟨ra, rb⟩ fallen) s = .next ((u.returnEl o x).crossRefine (o / 16) o fallen).settle) ∧
         (pulsePass x (foldReadings ra) ≠ pulsePass x (foldReadings rb) →
           exec (.pulseVerdict o ⟨ra, rb⟩ fallen) s = .next ((u.raiseOut o 10).crossRefine (o / 16) o fallen).settle) ∧
         (pulsePass x (foldReadings ra) = false → pulsePass x (foldReadings rb) = false →
           exec (.pulseVerdict o ⟨ra, rb⟩ fallen) s = .next ((u.updOut o (fun r => { r with
             a := { r.a with on := false, barred := true }, b := { r.b with on := false, barred := true },
             failX := some (x, foldReadings ra, foldReadings rb), offAt := s.now })).crossRefine (o / 16) o fallen).settle))) ∧
   (∀ (o : Fin 64) (x : AB) (r f : Reading) (s u : State), (s.out o).failX = some (x, f, f) →
     s.past (s.out o).offAt 20000 = true → s.dipped (o / 16) .a = false → s.dipped (o / 16) .b = false →
     u = (s.noteReadings o r r).updOut o (fun v => { v with failX := none }) →
       (r.ball = .high → exec (.offCheck o r r) s = .next (u.raiseOut o 5 x).settle) ∧
       (r.ball = .low → r.n = .high → exec (.offCheck o r r) s = .next (u.raiseOut o 1 x).settle) ∧
       (r.ball = .low → r.n = .low → x = .b → f.ball = .high →
         exec (.offCheck o r r) s = .next (u.raiseOut o 2 x).settle) ∧
       (r.ball = .low → r.n = .low → x = .b → f.ball ≠ .high → f.n ≠ .high →
         exec (.offCheck o r r) s = .next (u.raiseOut o 3 x).settle)) ∧
   (∀ (o : Fin 64) (x : AB) (fallen : BitVec 16) (s : State), s.probeReady o x = true →
     exec (.darkTestProbe o x none fallen) s =
       .next (s.updEl o x (fun e => { e with test := .probe, testAt := s.now })).settle) ∧
   (∀ (o : Fin 64) (x : AB) (r : Reading) (fallen : BitVec 16) (s u : State), ((s.out o).el x).test = .probe →
     ((s.out o).el x).late = false → s.past ((s.out o).el x).testAt 20000 = true → s.dipped (o / 16) .a = false →
     s.dipped (o / 16) .b = false →
     u = (s.updEl o x (fun e => { e with test := .none, late := false })).updEl o x (fun e => { e with discard := 0 }) →
       (x = .a → r.ball = .low → r.n = .high →
         exec (.darkTestProbe o x (some (r, r)) fallen) s = .next (u.crossRefine (o / 16) o fallen).settle) ∧
       (x = .a → r.ball ≠ .low →
         exec (.darkTestProbe o x (some (r, r)) fallen) s = .next ((u.raiseOut o 2 x).crossRefine (o / 16) o fallen).settle) ∧
       (x = .b → r.n ≠ .low →
         exec (.darkTestProbe o x (some (r, r)) fallen) s = .next ((u.raiseOut o 1 x).crossRefine (o / 16) o fallen).settle)) ∧
   (∀ (o : Fin 64) (h : AB) (r : Reading) (lim : Bool) (s u : State), s.dipped (o / 16) h = false →
     u = (s.noteReading o h r).updOut o (fun v => { v with
       limAt := if lim && v.conducts then some (v.limAt.getD s.now) else none }) →
       (s.continuousCode o r lim = 0 → exec (.continuousOutputCheck o h r lim) s = .next u.settle) ∧
       ((s.outRec o).mode = 1 → (s.out o) = {} → r.n ≠ .low →
         exec (.continuousOutputCheck o h r lim) s = .next (u.raiseOut o 1).settle))) ∧
  ((∀ (o : Fin 64) (h : AB) (v : Byte) (raw : List Byte) (s : State), s.halfOut (o / 16) h = false →
     (s.hbMissing (o / 16) h = true → (s.half (o / 16) h).buffered.length < 16 → exec (.controlLaneReport o h v raw) s =
       .next (s.updHalf (o / 16) h (fun f => { f with
         buffered := f.buffered ++ [{ o := o, verdict := v, raw := raw }] })).settle) ∧
     (s.hbMissing (o / 16) h = true → 16 ≤ (s.half (o / 16) h).buffered.length → exec (.controlLaneReport o h v raw) s =
       .next (s.updHalf (o / 16) h (fun f => { f with dropped := satInc f.dropped })).settle) ∧
     (s.hbMissing (o / 16) h = false → exec (.controlLaneReport o h v raw) s = .next (s.laneReport o h v raw).settle)) ∧
   (∀ (o : Nat) (v w : Byte) (raw : List Byte) (s : State), s.cvus = [] → (s.out o).verA = some w → w ≠ v →
     s.laneReport o .b v raw = ((s.updOut o (fun r => { r with verB := some v })).updOut o
       (fun r => { r with verA := none, verB := none })).raiseOut o 10) ∧
   (∀ (o : Fin 64) (x : AB) (w : Word) (s : State), s.cvus = [] → ((s.out o).el x).laneBad = 1 →
     exec (.outputLaneStatusWord o x w false) s = exec (.outputLaneWordMissing o x) s ∧
     Gives (exec (.outputLaneWordMissing o x) s) (fun t => ((t.out o).el x).laneOff = true ∧
       (codeRefused (s.out o).code.toNat 11 = false → (t.out o).code = 11))) ∧
   (∀ (o : Fin 64) (x : AB) (w : Word) (s : State), s.cvus = [] → (s.out o).code = 0 →
     exec (.outputLaneStatusWord o x w true) s =
       .next (s.updEl o x (fun e => { e with laneBad := 0, laneGood := min 8 (e.laneGood + 1),
                                             laneOff := e.laneOff && decide (min 8 (e.laneGood + 1) < 8) })).settle))

/-- R175 to R182, R186: a heartbeat that follows its reference counts and restarts the silence timer, one that does not or
fails its check starts the count again, the eighth in a row ends silence with the buffered reports gone; a silence timer that
is due makes the half silent with SIL_EXPIRED on every output of the bank; VF out of its window puts its code on every output
and source and switches off what the half drives; a dip only sets its event and its instant, and the third discarded test in a
row is TEST_FAIL; recovery clears both codes; a browned-out half is out of service and loses its references. -/
def Obligations.FieldSupplyAndSilence : Prop :=
  (∀ (b : Fin 4) (h : AB) (q : Byte) (tb : Word) (s : State), s.halfOut b h = false →
    exec (.heartbeat b h ⟨q, tb⟩ false) s = .next ((s.sendHb b h).updHalf b h (fun f => { f with run := 0 })).settle ∧
    ((s.half b h).ref ≠ some (q - 1) →
      exec (.heartbeat b h ⟨q, tb⟩ true) s =
        .next ((s.sendHb b h).updHalf b h (fun f => { f with ref := some q, hbTb := tb, run := 0 })).settle) ∧
    ((s.half b h).silent = false → (s.half b h).ref = some (q - 1) →
      exec (.heartbeat b h ⟨q, tb⟩ true) s =
        .next (((s.sendHb b h).updHalf b h (fun f => { f with
          ref := some q, hbTb := tb, run := min 8 (f.run + 1) })).validHb b h).settle) ∧
    ((s.half b h).silent = true → (s.half b h).ref = some (q - 1) → (s.half b h).run = 7 →
      Gives (exec (.heartbeat b h ⟨q, tb⟩ true) s) (fun t =>
        (t.half b h).silent = false ∧ (t.half b h).ref = some q ∧ (t.half b h).buffered = [] ∧
        (t.half b h).lastHb = some s.now ∧ bit (t.bank b).evt 4 = true))) ∧
  (∀ (b : Fin 4) (h : AB) (s : State), (s.half b h).silent = false → (s.half b h).quiet = false → s.halfOut b h = false →
    (s.silDue b h = true → Gives (exec (.silExpired b h) s) (fun t =>
      (t.half b h).silent = true ∧ (t.half b h).run = 0 ∧ bit (t.bank b).evt 2 = true ∧
      ∀ i : Fin 16, (t.out (16 * b + i)).code = 12)) ∧
    (s.silDue b h = false → exec (.silExpired b h) s = .next s.settle)) ∧
  (∀ (b : Fin 4) (h : AB) (s : State), s.halfOut b h = false →
    Gives (exec (.vfLow b h) s) (fun t =>
      (t.half b h).vfLow = true ∧ bit (t.bank b).evt 0 = true ∧ (∀ i : Fin 16, (t.out (16 * b + i)).code = 13) ∧
      (∀ j : Fin 8, (t.tp (8 * b + j)).code = 6) ∧ ∀ e ∈ t.outs, e.1 / 16 = b.val → (e.2.el h).on = false) ∧
    Gives (exec (.vfHigh b h) s) (fun t =>
      (t.half b h).vfHigh = true ∧ bit (t.bank b).evt 0 = true ∧ (∀ i : Fin 16, (t.out (16 * b + i)).code = 14) ∧
      (∀ j : Fin 8, (t.tp (8 * b + j)).code = 6) ∧ ∀ e ∈ t.outs, e.1 / 16 = b.val → (e.2.el h).on = false) ∧
    exec (.vfDip b h) s = .next ((s.updHalf b h (fun f => { f with dipAt := some s.now })).bankEvt b 1).settle) ∧
  (∀ (o : Nat) (x : AB) (s : State),
    (((s.out o).el x).discard = 2 → (s.out o).code = 0 →
      ((s.discardTest o x).out o).code = 9 ∧ (((s.discardTest o x).out o).el x).discard = 0) ∧
    (((s.out o).el x).discard < 2 → s.discardTest o x = s.updEl o x (fun e => { e with discard := e.discard + 1 }))) ∧
  (∀ (b : Fin 4) (els : List ElTest) (tps : List TpTest) (s : State), (s.bank b).vf = true →
    Gives (exec (.vfRecovery ⟨b, els, tps⟩) s) (fun t =>
      (t.bank b).vf = true ∧ (∀ h : AB, (t.half b h).vfLow = false ∧ (t.half b h).vfHigh = false) ∧
      (∀ i : Fin 16, ((s.out (16 * b + i)).code = 13 ∨ (s.out (16 * b + i)).code = 14) → (t.out (16 * b + i)).code = 0) ∧
      ∀ j : Fin 8, (s.tp (8 * b + j)).code = 6 → (t.tp (8 * b + j)).code = 0)) ∧
  (∀ (b : Fin 4) (h : AB) (s : State), Gives (exec (.halfBrownOut b h) s) (fun t =>
    t.halfOut b h = true ∧
    t.half b h = { dropped := (s.half b h).dropped, vfLow := true, silent := (s.half b h).silent, temp := (s.half b h).temp,
                   sent := (s.half b h).sent, sentAt := (s.half b h).sentAt } ∧
    ((s.half b h).vfLow = false → (s.half b h).vfHigh = false → bit (t.bank b).evt 0 = true) ∧
    ∀ i : Fin 16, (t.out (16 * b + i)).code = 15))

/-- R156, R157, R159: a pulsed source starts its off-pulse at its place in the schedule, its half's own while that is silent,
and ends it after TPW; a ball that is not low at the end of one is TP_STUCK_HIGH, one not high while the source is on outside
current limit TP_STUCK_LOW; in current limit for 1 ms or hot the source latches its code; its retry, once every 1 s, asks for
tokens and, with them and 1 ms below the limit, it is back on its schedule; a cooled source is too. -/
def Obligations.TestPulseSources : Prop :=
  (∀ (t : Fin 32) (a : Nat) (ph : Option Nat) (s : State), (s.tpRec t).mode = 1 →
    (s.half (t / 8) (sourceHalf t)).sched = some a → ph = s.phaseOf (some a) (s.tpRec t).ofs (s.tpRec t).tpp →
    ((s.tp t).pulse = false → (s.half (t / 8) (sourceHalf t)).silent = false → edgeDue ph 0 = true →
      exec (.tpSourceOffPulse t true) s =
        .next (s.updTp t (fun r => { r with pulse := true, pulseAt := s.now - ph.getD 0 })).settle) ∧
    ((s.tp t).pulse = false → (s.half (t / 8) (sourceHalf t)).silent = true →
      exec (.tpSourceOffPulse t true) s = .next (s.updTp t (fun r => { r with pulse := true, pulseAt := s.now })).settle) ∧
    ((s.tp t).pulse = true → s.past (s.tp t).pulseAt ((s.tpRec t).tpw + 100) = true →
      exec (.tpSourceOffPulse t false) s = .next (s.updTp t (fun r => { r with pulse := false })).settle)) ∧
  (∀ (t : Fin 32) (ball : Lvl) (lim : Bool) (fallen : BitVec 16) (s u : State), s.dipped (t / 8) (sourceHalf t) = false →
    u = s.updTp t (fun r => { r with high := ball == Lvl.high,
                                     lowAt := if ball = .low && !s.tpOn t then some (r.lowAt.getD s.now) else none }) →
    ((s.tp t).pulse = true → s.past (s.tp t).pulseAt ((s.tpRec t).tpw + 100 - us 5) = true → ball ≠ .low →
      exec (.tpSourceReadback t ⟨ball, lim, fallen⟩) s =
        .next ((u.raiseTp t 1).crossRefine (t / 8) (64 + t) fallen).settle) ∧
    ((s.tp t).pulse = false → s.tpOn t = true → (s.tp t).code = 0 →
      (ball ≠ .high → lim = false →
        exec (.tpSourceReadback t ⟨ball, lim, fallen⟩) s =
          .next ((u.updTp t (fun r => { r with limAt := none })).raiseTp t 2).settle) ∧
      (ball = .high ∨ lim = true →
        exec (.tpSourceReadback t ⟨ball, lim, fallen⟩) s =
          .next (u.updTp t (fun r => { r with limAt := if lim then some (r.limAt.getD s.now) else none })).settle))) ∧
  (∀ (t : Fin 32) (a : Nat) (s : State), s.tpOn t = true → (s.tp t).limAt = some a →
    (s.past a 1000000 = true → exec (.tpOverload t) s = .next (s.raiseTp t 3).settle) ∧
    (s.past a 1000000 = false → exec (.tpOverload t) s = .next s.settle)) ∧
  (∀ (t : Fin 32) (s : State), exec (.thermalShutdown (.tp t)) s = .next (s.raiseTp t 4).settle ∧
    ((s.tp t).code = 4 → exec (.thermalRelease (.tp t)) s = .next (s.clearTp t).settle)) ∧
  (∀ (t code : Nat) (s : State), (s.tp t).code.toNat ≠ code →
    ((s.raiseTp t code).tp t).code = BitVec.ofNat 8 code ∧ ((s.raiseTp t code).tp t).count = satInc (s.tp t).count) ∧
  (∀ (t : Fin 32) (s : State), (s.tp t).code = 3 → (s.tp t).waiting = false →
    ((s.tp t).retrying = false → s.past (s.tp t).retryAt (secs 1) = false →
      ∀ good : Bool, exec (.tpSourceRetry t good) s = .next s.settle) ∧
    (∀ u : State, (s.tp t).retrying = false → s.past (s.tp t).retryAt (secs 1) = true →
      ((s.updTp t (fun r => { r with retryAt := s.now })).request (t / 8 + 1) (siteSource t) s.tpCost = (true, u) →
        exec (.tpSourceRetry t true) s = .next ((u.updTp t (fun r => { r with retrying := false })).clearTp t).settle) ∧
      ((s.updTp t (fun r => { r with retryAt := s.now })).request (t / 8 + 1) (siteSource t) s.tpCost = (false, u) →
        ∀ good : Bool, exec (.tpSourceRetry t good) s = .next (u.updTp t (fun r => { r with waiting := true })).settle)) ∧
    ((s.tp t).retrying = true →
      exec (.tpSourceRetry t true) s = .next ((s.updTp t (fun r => { r with retrying := false })).clearTp t).settle ∧
      exec (.tpSourceRetry t false) s = .next (s.updTp t (fun r => { r with retrying := false })).settle))

/-- R454 to R460, R462: the first waiting request is granted once L reaches its cost; a turn-on that has waited 50 µs is granted
anyway and counted as an overdraw; tokens that are due move from H to S; a whole token moves from S to L; an audit that finds
both books equal changes nothing and one that does not rebuilds the domain; SYS_LOCK keeps LADLE_CFG from being written. -/
def Obligations.LadleMovesTokens : Prop :=
  (∀ (d : Fin 5) (k : Tok) (rest : List Tok) (s : State), (s.bucket d).queue = k :: rest →
    ((k.cost : Int) ≤ (s.bucket d).level →
      exec (.ladleGrant d) s = .next ((s.setBucket d
        ({ s.bucket d with queue := rest }.grant { k with at_ := s.now })).granted k.site).settle) ∧
    ((s.bucket d).level < k.cost → exec (.ladleGrant d) s = .next s) ∧
    (d ≠ 0 → (s.bucket d).level < k.cost → s.past k.at_ 50000 = true →
      Gives (exec (.ladleOverdraw d) s) (fun t =>
        t.ladle.overN = satInc s.ladle.overN ∧ bit t.ladle.evt 0 = true))) ∧
  (∀ (d : Fin 5) (site : Half) (s : State), s.returnDue d site.toNat = true →
    exec (.ladleReturn d site) s = .next (s.setBucket d ((s.bucket d).giveBack site.toNat)).settle) ∧
  (∀ (d : Fin 5) (s : State), exec (.ladleRefill d) s = .next (s.setBucket d (s.bucket d).refill).settle) ∧
  (∀ b : Bucket, 1 < b.spent → 64000 ≤ b.acc →
    b.refill = { b with spent := b.spent - 1, level := b.level + 1, acc := b.acc - 64000 }) ∧
  (∀ (b : Fin 4) (ra rb fa fb ba bb : Half) (s : State),
    (s.halfHolds b .a + ba.toNat = ra.toNat + fa.toNat → s.halfHolds b .b + bb.toNat = rb.toNat + fb.toNat →
      exec (.ladleAudit b ra rb fa fb ba bb) s = .next s) ∧
    (s.halfHolds b .a + ba.toNat ≠ ra.toNat + fa.toNat →
      Gives (exec (.ladleAudit b ra rb fa fb ba bb) s) (fun t => bit t.ladle.evt 1 = true ∧ t.ladle.vsys = s.ladle.vsys))) ∧
  (∀ (d : Fin 5) (v : Word) (s : State), s.sys.lock = false → fld v 15 0 ≠ 0 → fld v 15 0 ≤ 32767 → fld v 31 16 ≠ 0 →
    exec (.ladleCfgWrite d v) s =
      .next (s.hostWrite.setBucket d ((s.hostWrite.bucket d).configure (fld v 15 0) (fld v 31 16))).settle) ∧
  (∀ (d : Fin 5) (v : Word) (s : State), s.sys.lock = true →
    Gives (exec (.ladleCfgWrite d v) s) (fun t => bit t.sys.evt 3 = true ∧ t.ladle.vsys = s.ladle.vsys))

/-- R453: the books balance: L + H + S = B in every domain after each of the Ladle's commands where it held before. -/
def Obligations.LadleBooksBalance : Prop :=
  ∀ (c : Instr) (s t : State),
    ((∃ d, c = .ladleGrant d) ∨ (∃ d, c = .ladleOverdraw d) ∨ (∃ d site, c = .ladleReturn d site) ∨
      (∃ d, c = .ladleRefill d) ∨ (∃ b ra rb fa fb ba bb, c = .ladleAudit b ra rb fa fb ba bb) ∨
      (∃ d v, c = .ladleCfgWrite d v)) →
    (∀ d : Nat, (s.bucket d).balanced = true) → exec c s = .next t → ∀ d : Nat, (t.bucket d).balanced = true

/-- R196, R201, R202, R72: a latch arms from RELEASABLE with the permit on, stays ARMED without an active term and leaves it with one; a
Lid whose mask fails its check is faulty, none of its latches is ARMED or RELEASABLE, and SAFE_OK is low. -/
def Obligations.LidLatchesAndMasks : Prop :=
  (∀ (arm rel permit hit : BitVec 64) (o : Nat), o < 64 →
    bit (nextArmed arm rel permit hit) o = ((bit arm o || bit rel o && bit permit o) && !bit hit o) ∧
    bit (nextReleasable arm permit hit) o = (!bit arm o && !bit permit o && !bit hit o)) ∧
  (∀ (o : Fin 64) (s : State),
    Gives (exec (.lidMaskCheck .a o) s) (fun t => t.lid.faultA = true ∧ bit t.lid.evt 1 = true ∧ t.sys.safeOk = false ∧
      (s.lid.faultA = false → t.lid.armA = 0 ∧ t.lid.relA = 0)) ∧
    Gives (exec (.lidMaskCheck .b o) s) (fun t => t.lid.faultB = true ∧ bit t.lid.evt 1 = true ∧ t.sys.safeOk = false ∧
      (s.lid.faultB = false → t.lid.armB = 0 ∧ t.lid.relB = 0)))

/-! ### Cells, permits, pairs and debug (R48, R60 to R65, R213, R220 to R237, R285 to R306, R484, R525) -/

/-- R265, R285 to R287, R292, R60, R61, R65: a release of a running cell that is due runs its version on its engine, one that is not
due (log entry 90: the first 5 µs of the window) does not: the dispatch puts the engine, and with it the follower of a pair, in
cell mode at the entry with the cell's tag, ET_WD at the budget, an empty mode shadow and Whisk from its seed; no release of a cell
that is not loaded or is HELD; a bit that is not renewed in two cycles and 5 µs clears, alone, and RENEW_EVT sets; the
degraded-mode timer reports 50 % and 90 % once and asks for the stop at its limit. -/
def Obligations.CellsReleaseRenewExpire : Prop :=
  (∀ (c : Fin 1024) (v : CellImg) (s : State), s.pwr.phase = .service → s.coreUp = true → (s.cell c).st = .running →
    (s.cell c).ver = some v → (s.cell c).nver = none →
      (s.releaseDue v (s.cell c).relAt = true → exec (.cellRelease c) s =
        .next (s.releaseOn c v false (s.cell c).eng (s.cell c).onP (s.cell c).slot (s.cell c).cblk).settle) ∧
      (s.releaseDue v (s.cell c).relAt = false → exec (.cellRelease c) s = .next s.settle)) ∧
  (∀ (c : Fin 1024) (v : CellImg) (e slot blk : Nat) (s : State), (s.cell c).st = .running → (s.cell c).expd = false →
    (s.cell c).first = false → s.groupsOf c = [] →
      (s.canRelease e false = true →
        (s.releaseOn c v false e false slot blk).eng e = (s.eng e).dispatch c v false slot blk 0xFFFFFFFF#32) ∧
      (s.canRelease e true = true → (s.eng e).whisk = (s.eng (e + 1)).whisk →
        (s.releaseOn c v false e true slot blk).eng e = (s.eng e).dispatch c v false slot blk 0xFFFFFFFF#32 ∧
        (s.releaseOn c v false e true slot blk).eng (e + 1) = (s.eng (e + 1)).dispatch c v false slot blk 0xFFFFFFFF#32)) ∧
  (∀ (x : Engine) (c slot blk : Nat) (v : CellImg) (nv : Bool) (w : Word),
    (x.dispatch c v nv slot blk w).cellM = true ∧ (x.dispatch c v nv slot blk w).cell = some c ∧
    (x.dispatch c v nv slot blk w).pc = BitVec.ofNat 32 (1024 * blk + 4 * v.entry) ∧
    (x.dispatch c v nv slot blk w).ctag = slotTag slot ∧ (x.dispatch c v nv slot blk w).wd = v.dw 2 &&& 0xFFFFFFFC#32 ∧
    (x.dispatch c v nv slot blk w).hnd = false ∧ (x.dispatch c v nv slot blk w).mp = 0 ∧
    (x.dispatch c v nv slot blk w).g = x.g ∧ (x.dispatch c v nv slot blk w).k = x.k) ∧
  (∀ (c : Fin 1024) (s : State), (s.cell c).st = .held ∨ (s.cell c).st = .unloaded ∨ (s.cell c).st = .loading →
    exec (.cellRelease c) s = .next s) ∧
  (∀ (n : Fin 256) (c : Nat) (v : CellImg) (s : State), (Tab.get {} s.perm.slots n).cell = some c → (s.cell c).ver = some v →
    (Tab.get {} s.perm.slots n).use0 = true → (Tab.get {} s.perm.slots n).p0 = true →
      (2 * v.cycle + 5000 ≤ s.since (Tab.get {} s.perm.slots n).t0 →
        Gives (exec (.permitRenewalExpiry n false) s) (fun t => (Tab.get {} t.perm.slots n).p0 = false ∧
          bit t.regs.cellEvt 7 = true ∧ ∀ m : Nat, m ≠ n → Tab.get {} t.perm.slots m = Tab.get {} s.perm.slots m)) ∧
      (s.since (Tab.get {} s.perm.slots n).t0 < 2 * v.cycle + 5000 → exec (.permitRenewalExpiry n false) s = .next s)) ∧
  (∀ (c : Fin 1024) (d lim : Nat) (s : State), s.degrTime c = some (d, lim) → (s.cell c).degraded = true →
    (lim ≤ 2 * d → (s.cell c).r50 = false → Gives (exec (.degr50 c) s) (fun t => (t.cell c).r50 = true ∧ t.perm = s.perm)) ∧
    (9 * lim ≤ 10 * d → (s.cell c).r90 = false →
      Gives (exec (.degr90 c) s) (fun t => (t.cell c).r90 = true ∧ t.perm = s.perm)) ∧
    (lim ≤ d → (s.cell c).st = .running → (s.cell c).expd = false → s.handingOver c = false →
      Gives (exec (.degrExpiry c) s) (fun t => (t.cell c).expd = true ∧ t.perm = s.perm ∧ t.engs = s.engs)))

/-- R220, R222, R224: a mismatch halts both engines with empty request buffers, counts, keeps its cause and leaves the pair
resolving; a seal that misses its partner is one of cause 2; two passed self-tests bring the pair back, one passed leaves the
other engine out of service and the survivor alone. -/
def Obligations.PairsResolveMismatches : Prop :=
  (∀ (k cause : Nat) (s : State),
    ((s.mismatch k cause).eng (2 * k)).role = .halted ∧ ((s.mismatch k cause).eng (2 * k)).reqs = [] ∧
    ((s.mismatch k cause).eng (2 * k + 1)).role = .halted ∧ ((s.mismatch k cause).eng (2 * k + 1)).reqs = [] ∧
    ((s.mismatch k cause).epair k).st = .resolving ∧ ((s.mismatch k cause).epair k).cause = BitVec.ofNat 3 cause ∧
    ((s.mismatch k cause).epair k).mm = satInc (s.epair k).mm) ∧
  (∀ (k : Fin 32) (s : State), (s.eng (2 * k)).role = .leader → (s.eng (2 * k + 1)).role = .follower →
    (s.epair k).l.isSome ≠ (s.epair k).f.isSome →
      (s.past (s.epair k).sealAt 400 = true → exec (.sealTimeout k) s = .next (s.mismatch k 2).settle) ∧
      (s.past (s.epair k).sealAt 400 = false → exec (.sealTimeout k) s = .next s)) ∧
  (∀ (k : Fin 32) (s : State), (s.epair k).st = .resolving →
    ((s.epair k).disc5 = false → (s.epair k).both = [] →
      Gives (exec (.mismatchSelfTestEnd k true true) s) (fun t => (t.eng (2 * k)).role = .leader ∧
        (t.eng (2 * k + 1)).role = .follower ∧ (t.epair k).st = .paired)) ∧
    ((s.epair k).disc5 = true →
      exec (.mismatchSelfTestEnd k true true) s = .next (s.comparatorFault k).settle) ∧
    ((s.eng (2 * k + 1)).role = .halted →
      Gives (exec (.mismatchSelfTestEnd k true false) s) (fun t => (t.eng (2 * k)).role = .single ∧
        (t.eng (2 * k + 1)).role = .out ∧ t.isOut (siteEngine (2 * k + 1)) = true)) ∧
    ((s.eng (2 * k)).role = .halted →
      Gives (exec (.mismatchSelfTestEnd k false true) s) (fun t => (t.eng (2 * k + 1)).role = .single ∧
        (t.eng (2 * k)).role = .out ∧ t.isOut (siteEngine (2 * k)) = true)))

/-- R30, R48, R212, R213, R227: a passed idle self-test is noted, a failed one takes the engine out of service; a scrub read in a region
that is down does nothing; otherwise it finds the word with what has come upon it: a block that no one owns is not read, a word
without an error stays, one bit in error is corrected and counted, two are uncorrectable, are recorded and make the owner safe. -/
def Obligations.SelfTestsAndScrubbing : Prop :=
  (∀ (e : Fin 64) (s : State), (s.eng e).role = .single →
    exec (.engineSelfTestPeriodic e true) s = .next (s.updEng e (fun x => { x with tested := s.now })).settle ∧
    Gives (exec (.engineSelfTestPeriodic e false) s) (fun t =>
      (t.eng e).role = .out ∧ t.isOut (siteEngine e) = true ∧ bit t.regs.pairEvt 1 = true)) ∧
  (∀ (c : Fin 16) (w : Half) (ups : List Upset) (s : State), s.regionUp (c / 4) = false →
    exec (.scrubRead c w ups) s = .next s) ∧
  (∀ (c : Fin 16) (w : Half) (ups : List Upset) (s u : State), s.regionUp (c / 4) = true → w ≠ 0xFFFF#16 →
    u = s.updClu c (fun m => ups.foldl (fun m x => m.upset x) m) →
      ((Tab.get {} (u.clu c).own (w.toNat / 256)).tag = 0 → exec (.scrubRead c w ups) s = .next u.settle) ∧
      ((Tab.get {} (u.clu c).own (w.toNat / 256)).tag ≠ 0 → (Tab.get {} (u.clu c).own (w.toNat / 256)).badPar = false →
        (u.clu c).wroteTag w.toNat = (Tab.get {} (u.clu c).own (w.toNat / 256)).tag →
        (u.clu c).wroteAt w.toNat = BitVec.ofNat 16 w.toNat →
          (Tab.get 0 (u.clu c).err w.toNat = 0 → exec (.scrubRead c w ups) s = .next u.settle) ∧
          (Tab.get 0 (u.clu c).err w.toNat = 1 → exec (.scrubRead c w ups) s =
            .next ((u.updClu c (fun m => { m with err := Tab.drop m.err w.toNat })).countCe c).settle) ∧
          (Tab.get 0 (u.clu c).err w.toNat = 2 → exec (.scrubRead c w ups) s =
            .next (((u.countUe c).record { src := 8, code := 1, site := siteCluster c 4, d6 := BitVec.ofNat 32 w.toNat }).ownerSafe
              c (w.toNat / 256)).settle)))

/-- R234 to R237, R250, R484, R525, R528: BRK halts the engine where debug is enabled and is illegal where not; a halt over JTAG is
answered; a release leaves the engine idle; at a halted engine JTAG writes and reads words under its tags, reads its registers,
steps and sets a breakpoint, and nowhere else; EXTEST, CLAMP and SCAN_EN act
only with BOOT_HOLD in force, which is taken only while RSTN is low; SCAN_EN clears the credentials first. -/
def Obligations.DebugAndTestAccess : Prop :=
  (∀ (e : Fin 64) (s : State), SingleReady s e → PlainPlace (s.eng e) →
    (s.loaded && s.cfg.dbgEn) = false → exec (.brk e) s = .next (faulted s e 3 0).settle) ∧
  (∀ (e : Fin 64) (s : State), SingleReady s e → PlainPlace (s.eng e) → s.debugOk e = true →
    exec (.brk e) s = .next (((issued s e (fun x => x.retire x)).debugHalt e).overflow e).settle) ∧
  (∀ (e : Fin 64) (s : State),
    (s.debugOk e = true → (s.eng (s.head e)).wdHit = false → s.interrupted (s.head e) = false →
      exec (.engineDebugHalt e) s = .next ((s.debugHalt e).emit (.tap true)).settle) ∧
    (s.debugOk e = false → exec (.engineDebugHalt e) s = .next (s.emit (.tap false)).settle)) ∧
  (∀ (e : Nat) (s : State), (s.eng e).role = .single →
    ((s.debugHalt e).eng e).role = .halted ∧ ((s.debugHalt e).eng e).dbg = true ∧ ((s.debugHalt e).eng e).reqs = [] ∧
    ((s.debugHalt e).epair (e / 2)).st = .debug) ∧
  (∀ (e : Fin 64) (s : State), (s.eng e).role = .halted → (s.eng e).dbg = true →
    Gives (exec (.debugRelease e) s) (fun t => (t.eng e).role = .idle ∧ (t.eng e).dbg = false ∧ t.epairs = s.epairs)) ∧
  (∀ (e : Fin 64) (a : BitVec 18) (v : Word) (tag : Byte) (s : State), (s.eng e).role = .halted → (s.eng e).dbg = true →
    (s.debugReach e a tag true = true → exec (.debugMemoryWrite e a (.write v) tag) s =
      .next ((s.updClu (e / 4) (fun m => m.putWord (a.toNat / 4 * 4) v (some tag))).emit (.tap true)).settle) ∧
    (s.debugReach e a tag true = false → exec (.debugMemoryWrite e a (.write v) tag) s = .next (s.emit (.tap false)).settle) ∧
    (s.debugReach e a tag false = true → cleanWord s (e / 4) (a.toNat / 4) tag = true →
      exec (.debugMemoryWrite e a .read tag) s =
        .next ((s.ret ((s.clu (e / 4)).word (4 * (a.toNat / 4)))).emit (.tap true)).settle) ∧
    (s.debugReach e a tag false = false → exec (.debugMemoryWrite e a .read tag) s = .next (s.emit (.tap false)).settle)) ∧
  (∀ (e : Fin 64) (a : BitVec 18) (tag : Byte) (s : State), (s.eng e).role = .halted → (s.eng e).dbg = true →
    (∀ n : Fin 32, exec (.debugMemoryWrite e a (.reg (.g n)) tag) s = .next ((s.ret ((s.eng e).gr n)).emit (.tap true)).settle) ∧
    exec (.debugMemoryWrite e a (.reg .pc) tag) s = .next ((s.ret (s.eng e).pc).emit (.tap true)).settle ∧
    exec (.debugMemoryWrite e a .step tag) s =
      .next ((s.updEng e (fun x => { x with step1 := true })).emit (.tap true)).settle ∧
    ∀ b : Option Word, exec (.debugMemoryWrite e a (.breakpoint b) tag) s =
      .next ((s.updEng e (fun x => { x with bp := b })).emit (.tap true)).settle) ∧
  (∀ (e : Fin 64) (addr : BitVec 18) (a : DebugAccess) (tag : Byte) (s : State), (s.eng e).role ≠ .halted →
    exec (.debugMemoryWrite e addr a tag) s = .next (s.emit (.tap false)).settle) ∧
  (∀ s : State, exec .tapReset s = .next ({ s with bist := { s.bist with tap := 0 } }).settle ∧
    exec .bypass s = .next ({ s with bist := { s.bist with tap := 0 } }.emit (.tap true)).settle ∧
    exec .samplePreload s = .next ({ s with bist := { s.bist with tap := 1 } }.emit (.tap true)).settle) ∧
  (∀ s : State, s.bist.inHold = false → exec .extest s = .next (s.emit (.tap false)).settle ∧
    exec .clamp s = .next (s.emit (.tap false)).settle ∧ ∀ ok : Bool, exec (.scanEn ok) s = .next (s.emit (.tap false)).settle) ∧
  (∀ s : State, s.bist.inHold = true →
    exec .extest s = .next ({ s with bist := { s.bist with tap := 2 } }.emit (.tap true)).settle ∧
    exec .clamp s = .next ({ s with bist := { s.bist with tap := 3 } }.emit (.tap true)).settle ∧
    Gives (exec (.scanEn true) s) (fun t => t.bist.cleared = true ∧ t.bist.scan = true ∧ t.bist.tap = 5 ∧
      t.store.maint.sess = none ∧ t.store.safety.sess = none)) ∧
  (∀ s : State, (s.pwr.rstn = true → exec .bootHold s = .next (s.emit (.tap false)).settle) ∧
    (s.pwr.rstn = false → exec .bootHold s =
      .next ({ s with bist := { s.bist with hold := true, tap := 4 } }.emit (.tap true)).settle))

/-- R295 to R306, R231 to R233, R400: a cell-control command of a queue pair waits while another runs; CELL_EXCHANGE takes its cells in
order: the committed version with the running SIG is refused with 0x38, one that passes every check of R295 is prepared at
its place, and with the store die lost every one is refused (R24); a load of it that is done is armed or takes force; the carry
copy writes the new state area in the gap before X; the instants act once due; one longer cycle after X the cell is its new
version.
R97, R207, R232, R233, R303: the channels of a hand-over act at their instants: of a cell's exchange or move; at H of a pair's
split or merge both engines halt and the pair is in HANDOVER; at its release both are SINGLE and the pair SPLIT, or leader and
follower and PAIRED. -/
def Obligations.CellCommandsAndHandovers : Prop :=
  ((∀ (q : Fin 64) (s : State), s.controlFree = false →
     exec (.cellExchange q) s = .next s ∧ exec (.cellMove q) s = .next s ∧ exec (.pairSplit q) s = .next s ∧
     exec (.cellRestart q) s = .next s ∧ ∀ a b i : Bool, exec (.pairMerge q a b i) s = .next s) ∧
   (∀ (q : Fin 64) (d : Desc) (s : State), s.controlFree = true → CanRun s q 0x20 .safety d →
     fld (d.p 0) 31 5 = 0 → 1 ≤ fld (d.p 0) 4 0 → fld (d.p 0) 4 0 ≤ 20 → d.cellListOk 1 (fld (d.p 0) 4 0) = true →
       exec (.cellExchange q) s = .next ({ (s.touchSession q d.sess).markRan q d with
         ho := { step := .idle, kind := .exchange, qp := q, rest := d.cellList 1 (fld (d.p 0) 4 0), done := 0 } }.exchangeNext).settle) ∧
   (∀ (c : Nat) (v w : CellImg) (s : State),
     (v.sig = w.sig → s.exchangeCode c v w = 0x38) ∧
     (v.sig ≠ w.sig → v.eng ≠ w.eng → s.exchangeCode c v w = 0x36)) ∧
   (∀ (c : Nat) (rest : List Nat) (s : State), s.ho.rest = c :: rest → s.store.lost = true →
     s.exchangeNext = ({ s with ho := { s.ho with cell := c, rest := rest } }).hoEnd 0x18) ∧
   (∀ (c e : Nat) (v w : CellImg) (rest : List Nat) (pl : Nat × Nat × Nat) (s u : State), s.ho.rest = c :: rest →
     s.store.lost = false → s.committed.cell c = some v → (s.cell c).ver = some w → (s.cell c).st = .running → (s.cell c).eng = e →
     u = { s with ho := { s.ho with cell := c, rest := rest, axes := s.committed.axes, groups := s.committed.groups,
                                    conns := s.committed.conns } } →
     u.exchangeCode c v w = 0 → u.findPlace v (e / 4) false = some pl →
       s.exchangeNext = u.prepare c .exchange v e (s.cell c).onP pl) ∧
   (∀ (q : Fin 64) (c e : Nat) (onP : Bool) (d : Desc) (v : CellImg) (pl : Nat × Nat × Nat) (s u : State),
     s.controlFree = true → CanRun s q 0x21 .maint d → fld (d.p 0) 31 10 = 0 → fld (d.p 1) 31 7 = 0 →
     c = fld (d.p 0) 9 0 → e = fld (d.p 1) 5 0 → onP = bit (d.p 1) 6 → (onP = false ∨ e % 2 = 0) →
     (s.cell c).ver = some v → (s.cell c).st = .running →
     u = { (s.touchSession q d.sess).markRan q d with
         ho := { step := .idle, kind := .move, cell := c, qp := q, axes := s.cfg.axes, groups := s.cfg.groups,
                 conns := s.cfg.conns } } →
       (u.moveCode c v e onP = 0 → u.findPlace v (e / 4) false = some pl →
         exec (.cellMove q) s = .next (u.prepare c .move v e onP pl).settle) ∧
       (u.moveCode c v e onP ≠ 0 →
         exec (.cellMove q) s = .next (u.hoEnd (u.moveCode c v e onP)).settle)) ∧
   (∀ (c : Nat) (v : CellImg) (x : CellS) (s : State), s.ho.step = .loading → s.ho.cell = c → s.cell c = x →
     x.nver = some v → x.st = .loading → exec .exchangeLoadDone s = .next (s.finishLoad c v).settle) ∧
   (∀ (c : Nat) (v w : CellImg) (s : State), s.ho.step = .loading → s.ho.cell = c → (s.cell c).nver = some v →
     (s.cell c).ver = some w → (s.cell c).st = .running →
       exec .exchangeLoadDone s = .next ((s.writeAreas v ((s.cell c).neng / 4) (s.cell c).nslot (s.cell c).ncblk
         (s.cell c).nsblk).chooseInstant c v w).settle) ∧
   (∀ (v w : CellImg) (s : State), s.ho.step = .waiting → s.ho.kind = .exchange → (s.cell s.ho.cell).ver = some w →
     (s.cell s.ho.cell).nver = some v →
       (s.inGap w = true → exec .exchangeCarryCopy s =
         .next (State.settle { s.updClu ((s.cell s.ho.cell).neng / 4) (fun m => m.putWords
           (1024 * (s.cell s.ho.cell).nsblk) (carried w v ((s.clu ((s.cell s.ho.cell).eng / 4)).words
             (1024 * (s.cell s.ho.cell).sblk) (256 * w.stateN)))) with ho := { s.ho with copied := true } })) ∧
       (s.inGap w = false → exec .exchangeCarryCopy s = .next s)) ∧
   (∀ (v w : CellImg) (s : State), s.inHandCycle s.ho.cell = true → (s.cell s.ho.cell).ver = some w →
     (s.cell s.ho.cell).nver = some v →
       (s.past s.ho.x.toNat (max v.cycle w.cycle) = true →
         exec .handoverEnd s = .next (s.endCycle s.ho.cell v w).settle) ∧
       (s.past s.ho.x.toNat (max v.cycle w.cycle) = false → exec .handoverEnd s = .next s))) ∧
  ((∀ (n : Fin 256) (c : Nat) (s u : State), s.due n = true → (s.chan n).code = 6 → (s.chan n).use = .cell c →
     u = (s.fired n).updChan n (fun h => { h with use := .none }) → u.handingOver c = true → u.ho.step = .waiting →
       exec (.tcmpCellExchange n) s = .next (u.handInstant c).settle) ∧
   (∀ (n : Fin 256) (c : Nat) (s u : State), s.due n = true → (s.chan n).code = 8 → (s.chan n).use = .cell c →
     u = (s.fired n).updChan n (fun h => { h with use := .none }) → u.handingOver c = true → u.ho.step = .waiting →
       exec (.tcmpHandover n) s = .next (u.handInstant c).settle) ∧
   (∀ (n : Fin 256) (k : Nat) (s u : State), s.due n = true → (s.chan n).code = 8 → (s.chan n).use = .pair k →
     u = (s.fired n).updChan n (fun h => { h with use := .none }) → u.ho.step = .waiting → u.ho.pair = k →
       (u.ho.kind = .split → exec (.tcmpHandover n) s = .next (u.haltPair k).settle) ∧
       (u.ho.kind = .merge → exec (.tcmpHandover n) s = .next (u.beginMerge k).settle)) ∧
   (∀ (k : Nat) (s : State),
     ((s.haltPair k).eng (2 * k)).role = .halted ∧ ((s.haltPair k).eng (2 * k + 1)).role = .halted ∧
     ((s.haltPair k).epair k).formed = false ∧ (s.haltPair k).ho.step = .running ∧
     ((s.epair k).st ≠ .debug → ((s.haltPair k).epair k).st = .handover)) ∧
   (∀ (k : Nat) (s : State), s.ho.step = .running → s.ho.pair = k → (s.eng (2 * k)).role = .halted →
     (s.eng (2 * k + 1)).role = .halted →
       (s.ho.kind = .split → exec .handoverEnd s = .next (s.doSplit k).settle) ∧
       (s.ho.kind = .merge → exec .handoverEnd s = .next (s.doMerge k).settle)) ∧
   (∀ (k : Nat) (s : State),
     ((s.doSplit k).eng (2 * k)).role = .single ∧ ((s.doSplit k).eng (2 * k + 1)).role = .single ∧
     ((s.doSplit k).epair k).st = .split ∧ ((s.doMerge k).eng (2 * k)).role = .leader ∧
     ((s.doMerge k).eng (2 * k + 1)).role = .follower ∧
     ((s.epair k).st ≠ .debug → ((s.doMerge k).epair k).st = .paired)))

/-- R18, R20, R231, R306, R469, R470: PAIR_SPLIT and PAIR_MERGE complete with their refusal, CELL_RESTART refuses a cell that is not
HELD, UNIT_RESET refuses a unit in use and otherwise resets it, and completes with the outcome and its log entry: that of a unit
in an isolated region is absorbed (R29) and completes with the reset of the region; an engine whose test passes is idle and in
service, one whose test fails is out of service. -/
def Obligations.PairAndUnitCommands : Prop :=
  (∀ (q : Fin 64) (d : Desc) (s u : State), s.controlFree = true → CanRun s q 0x22 .maint d → fld (d.p 0) 31 5 = 0 →
    fld (d.p 1) 31 5 = 0 → fld (d.p 1) 4 0 ≤ 18 → d.cellListOk 2 (fld (d.p 1) 4 0) = true →
    u = { (s.touchSession q d.sess).markRan q d with ho :=
      { step := .idle, kind := .split, pair := fld (d.p 0) 4 0, qp := q, odd := d.cellList 2 (fld (d.p 1) 4 0),
        at_ := s.now } } →
      (∀ code : Nat, u.splitCode (fld (d.p 0) 4 0) (d.cellList 2 (fld (d.p 1) 4 0)) = code → code ≠ 0 →
        exec (.pairSplit q) s = .next (u.hoEnd code).settle) ∧
      (∀ h : Nat, u.splitCode (fld (d.p 0) 4 0) (d.cellList 2 (fld (d.p 1) 4 0)) = 0 →
        u.pairBoundary (fld (d.p 0) 4 0) = some h →
          exec (.pairSplit q) s = .next (u.armHand h 8 (.pair (fld (d.p 0) 4 0))).settle)) ∧
  (∀ (q : Fin 64) (a b i : Bool) (d : Desc) (s u : State), s.controlFree = true → CanRun s q 0x23 .maint d →
    fld (d.p 0) 31 5 = 0 →
    u = { (s.touchSession q d.sess).markRan q d with ho :=
      { step := .idle, kind := .merge, pair := fld (d.p 0) 4 0, qp := q, at_ := s.now } } →
      (u.mergeCode (fld (d.p 0) 4 0) ≠ 0 →
        exec (.pairMerge q a b i) s = .next (u.hoEnd (u.mergeCode (fld (d.p 0) 4 0))).settle) ∧
      (∀ (h : Nat) (w : State), u.mergeCode (fld (d.p 0) 4 0) = 0 → a = true → b = true → i = true →
        w = u.when (!u.carries (2 * fld (d.p 0) 4 0) || !u.carries (2 * fld (d.p 0) 4 0 + 1))
          (fun s => s.abandonRun (fld (d.p 0) 4 0 / 8)) →
        w.pairBoundary (fld (d.p 0) 4 0) = some h →
          exec (.pairMerge q a b i) s = .next (w.armHand h 8 (.pair (fld (d.p 0) 4 0))).settle)) ∧
  (∀ (k : Nat) (odd : List Nat) (s : State), (s.epair k).st ≠ .debug → s.pairBusy (2 * k) = false → (s.epair k).st ≠ .paired →
    s.splitCode k odd = 0x39) ∧
  (∀ (q : Fin 64) (d : Desc) (s : State), s.controlFree = true → CanRun s q 0x24 .maint d → fld (d.p 0) 31 10 = 0 →
    (s.cell (fld (d.p 0) 9 0)).st ≠ .held →
      exec (.cellRestart q) s = .next ((s.touchSession q d.sess).complete q d { status := 0x30 }).settle) ∧
  (∀ (q : Fin 64) (c : Nat) (d : Desc) (v w : CellImg) (x : CellS) (sl cb sb : Nat) (s u t r : State), s.controlFree = true →
    CanRun s q 0x24 .maint d → fld (d.p 0) 31 10 = 0 → c = fld (d.p 0) 9 0 → u = s.touchSession q d.sess → u.cell c = x →
    x.st = .held → x.dEng = false → u.placeUp x.eng x.onP = true → u.committed.cell c = some v → x.ver = some w →
    t = (u.freeAreas w (x.eng / 4) x.cblk x.sblk).updCell c (fun y => { y with st := .loading }) →
    t.findPlace v (x.eng / 4) false = some (sl, cb, sb) → u.ownershipOk c v = true →
    r = ((((t.adopt c v u.committed).updCell c (fun y => { y with st := .held })).wakeSingle x.eng x.onP).loadCell c v
      x.eng x.onP sl cb sb).log
        { kind := 12, role := (u.sessionTag q d.sess).1, handle := (u.sessionTag q d.sess).2, cell := some c,
          oldSig := w.sig, newSig := v.sig, bankSeq := u.winSeq, site := u.cellSite c } →
      exec (.cellRestart q) s = .next (r.complete q d {}).settle) ∧
  (∀ (q : Fin 64) (pass : Bool) (els : List ElTest) (tps : List TpTest) (d : Desc) (t : Target) (s u r : State),
    CanRun s q 0x25 .maint d → fld (d.p 0) 31 19 = 0 → u = s.touchSession q d.sess → t = u.targetOf (d.p 0) →
    r = (u.resetTarget t pass els tps).resetEnds q d (u.resetPasses t pass els tps) →
      (u.resetCode t ≠ 0 → exec (.unitReset q ⟨pass, els, tps⟩) s = .next (u.complete q d { status := u.resetCode t }).settle) ∧
      (u.resetCode t = 0 → ∀ g : Nat, t.regionOf = some g →
        (u.regionUp g = false → exec (.unitReset q ⟨pass, els, tps⟩) s = .next (u.markRan q d).settle) ∧
        (u.regionUp g = true → exec (.unitReset q ⟨pass, els, tps⟩) s = .next r.settle)) ∧
      (u.resetCode t = 0 → t.regionOf = none → (∀ g : Nat, t ≠ .region g) →
        exec (.unitReset q ⟨pass, els, tps⟩) s = .next r.settle) ∧
      (∀ g : Nat, u.resetCode t = 0 → t = .region g →
        exec (.unitReset q ⟨pass, els, tps⟩) s = .next (r.endAbsorbed g).settle)) ∧
  (∀ (q : Nat) (d : Desc) (s : State) (ok : Bool), s.resetEnds q d ok =
    (s.log { kind := 0x0D, role := (s.sessionTag q d.sess).1, handle := (s.sessionTag q d.sess).2,
             site := levelMask (fld (d.p 0) 18 16) (fld (d.p 0) 15 0), level := fld (d.p 0) 18 16,
             d12 := if ok then 1 else 0 }).complete q d { status := if ok then 0 else 0x3E }) ∧
  (∀ (e : Nat) (s : State),
    ((s.resetEngine e true).eng e) = { role := .idle, tested := s.now } ∧ (s.resetEngine e true).isOut (siteEngine e) = false ∧
    ((s.eng e).role = .idle → ((s.resetEngine e false).eng e).role = .out ∧
      (s.resetEngine e false).isOut (siteEngine e) = true))

/-! ### Wilis, Ethernet and FiminLink (R339 to R386) -/

/-- R345, R347 to R353, R357, R358: a DATA frame that passes every check and is newer by 1 to 32,767 is accepted, a repeated
one only keeps its path alive, any other is discarded; an expired watchdog comes first; CONNECT with the parameter check of
the record opens a responder and answers, with another one rejects; ACCEPT opens an originator, REJECT and CLOSE fail the
connection. R345, R349 to R351, R353, R354, R357 to R361: an open connection sends its data, 0 where they are passivated, with
SEQ one higher; an originator sends CONNECT; the watchdog and a path's expiry act when due and not before; a failed connection
tries again; a received Ethernet frame is counted by what it shows, and one for the host goes to the oldest buffer of its
queue pair as the tick ends, or is dropped and counted; a link change sets its event. -/
def Obligations.WilisFramesAndTimers : Prop :=
  ((∀ (m : Fin 4) (x : Encap) (f : List Byte) (s u : State), s.admitFrame m x f ftData = (none, u) →
     exec (.data m x f) s = .next u.settle) ∧
   (∀ (m : Fin 4) (x : Encap) (f : List Byte) (n : Nat) (s u : State), s.admitFrame m x f ftData = (some n, u) →
     (u.wdDue n = true → exec (.data m x f) s = .next ((u.failConn n 1).discard m 9 (some n)).settle) ∧
     (u.wdDue n = false → (u.conn n).st = .open → u.freshFrame n f = true →
       (1 ≤ (fSeq f - (u.conn n).rx).toNat → (fSeq f - (u.conn n).rx).toNat ≤ 32767 →
         exec (.data m x f) s = .next (((u.acceptData n f).macStat m 5).alive n (fPath f)).settle) ∧
       (fSeq f = (u.conn n).rx → exec (.data m x f) s = .next ((u.discard m 9 (some n)).alive n (fPath f)).settle) ∧
       (32767 < (fSeq f - (u.conn n).rx).toNat → exec (.data m x f) s = .next (u.discard m 9 (some n)).settle))) ∧
   (∀ (n : Nat) (f : List Byte) (s : State), ((s.acceptData n f).conn n).rx = fSeq f ∧
     ((s.acceptData n f).conn n).stamp = fStamp f ∧ ((s.acceptData n f).conn n).valid = true ∧
     ((s.acceptData n f).conn n).passv = fSafe f ∧ ((s.acceptData n f).conn n).rxAt = s.now) ∧
   (∀ (m : Fin 4) (x : Encap) (f : List Byte) (s u : State), s.admitFrame m x f ftConnect = (none, u) →
     exec (.connect m x f) s = .next (u.rejectUnknown m x f).settle) ∧
   (∀ (m : Fin 4) (x : Encap) (f : List Byte) (n : Nat) (s u : State), s.admitFrame m x f ftConnect = (some n, u) →
     u.connResp n = true → u.freshFrame n f = true → (u.conn n).st = .connecting ∨ (u.conn n).st = .open →
       (fData f 0 = u.connParam n → exec (.connect m x f) s = .next (((u.sendFrame n ftAccept false u.startSeq
         [u.connParam n]).openConn n u.startSeq (fSeq f) (fStamp f)).macStat m 5).settle) ∧
       (fData f 0 ≠ u.connParam n → exec (.connect m x f) s = .next (((u.sendFrame n ftReject false u.startSeq
         [1]).failConn n 4).macStat m 5).settle)) ∧
   (∀ (m : Fin 4) (x : Encap) (f : List Byte) (n : Nat) (s u : State), s.admitFrame m x f ftAccept = (some n, u) →
     u.connResp n = false → u.freshFrame n f = true → (u.conn n).st = .connecting → fData f 0 = u.connParam n →
       exec (.accept m x f) s = .next ((u.openConn n (u.conn n).tx (fSeq f) (fStamp f)).macStat m 5).settle) ∧
   (∀ (m : Fin 4) (x : Encap) (f : List Byte) (n : Nat) (s u : State), s.admitFrame m x f ftReject = (some n, u) →
     u.connResp n = false → u.freshFrame n f = true → (u.conn n).st = .connecting ∨ (u.conn n).st = .open →
       exec (.reject m x f) s = .next ((u.failConn n (if fData f 0 = 1 then 4 else 5)).macStat m 5).settle) ∧
   (∀ (m : Fin 4) (x : Encap) (f : List Byte) (n : Nat) (s u : State), s.admitFrame m x f ftClose = (some n, u) →
     ((u.conn n).st = .open → exec (.close m x f) s = .next ((u.failConn n 6).macStat m 5).settle) ∧
     ((u.conn n).st ≠ .open → exec (.close m x f) s = .next (u.discard m 9 (some n)).settle)) ∧
   (∀ (n code : Nat) (tx rx : Half) (st : Word) (s : State),
     ((s.openConn n tx rx st).conn n).st = .open ∧ ((s.openConn n tx rx st).conn n).tx = tx ∧
     ((s.openConn n tx rx st).conn n).rx = rx ∧ ((s.openConn n tx rx st).conn n).valid = false ∧
     ((s.openConn n tx rx st).conn n).first = true ∧ ((s.failConn n code).conn n).st = .failed ∧
     ((s.failConn n code).conn n).valid = false ∧ ((s.failConn n code).conn n).code = BitVec.ofNat 8 code)) ∧
  ((∀ (c : Fin 1024) (s : State), (s.conn c).st = .open → s.txDue c = true →
     (s.passive c = false → exec (.wilisDataTransmit c) s = .next ((s.updConn c
       (fun k => { k with tx := k.tx + 1, txAt := some s.now })).sendFrame
       c ftData false ((s.conn c).tx + 1)
       ((List.range (s.connTx c)).map (fun j => Tab.get 0 (s.conn c).out j ||| Tab.get 0 (s.conn c).cmdOr j))).settle) ∧
     (s.passive c = true → exec (.wilisDataTransmit c) s = .next ((s.updConn c
       (fun k => { k with tx := k.tx + 1, txAt := some s.now })).sendFrame
       c ftData true ((s.conn c).tx + 1) ((List.range (s.connTx c)).map (fun _ => 0))).settle)) ∧
   (∀ (c : Fin 1024) (s : State), (s.conn c).st ≠ .open ∨ s.txDue c = false → exec (.wilisDataTransmit c) s = .next s) ∧
   (∀ (c : Fin 1024) (s : State), (s.conn c).st = .connecting → s.connResp c = false → s.txDue c = true →
     exec (.connectTransmit c) s = .next ((s.updConn c (fun k => { k with tx := s.startSeq, txAt := some s.now })).sendFrame
       c ftConnect false s.startSeq [s.connParam c]).settle) ∧
   (∀ (c : Fin 1024) (s : State),
     (s.wdDue c = true → exec (.wilisWatchdogExpiry c) s = .next (s.failConn c 1).settle) ∧
     (s.wdDue c = false → exec (.wilisWatchdogExpiry c) s = .next s)) ∧
   (∀ (c : Fin 1024) (s : State), (s.conn c).st = .open → s.wdDue c = false → s.connDual c = true →
     s.pathDue c false = true → (s.conn c).up1 = false →
       exec (.pathDown c false) s = .next ((s.updConn c (fun k => { k with up0 := false, code := 2 })).wlEvt 2).settle) ∧
   (∀ (c : Fin 1024) (s : State), (s.conn c).st = .failed → s.past (s.conn c).since (s.connWd c) = true →
     exec (.failedRetry c) s = .next (s.updConn c (fun k => k.enter .connecting s.now)).settle) ∧
   (∀ (m : Fin 4) (f : List Byte) (pause : Bool) (s : State), (s.mac m).en = true → (s.mac m).link = true →
     exec (.ethernetFrameReceive m f false pause) s = .next (((s.macStat m 0).macStat m 1).macEvt m 2).settle ∧
     (f.length < 60 → exec (.ethernetFrameReceive m f true pause) s = .next ((s.macStat m 0).macStat m 2).settle) ∧
     (60 ≤ f.length → f.length ≤ 1518 →
       exec (.ethernetFrameReceive m f true false) s = .next ((s.macStat m 0).deliver m f).settle ∧
       exec (.ethernetFrameReceive m f true true) s = .next (((s.macStat m 0).macStat m 3).macEvt m 3).settle)) ∧
   (∀ (m q : Nat) (f : List Byte) (s : State), s.netQp m = some q →
     s.deliver m f = { s with hif := { s.hif with rx := s.hif.rx ++ [(q, f, s.tb.tb.extractLsb' 0 32)] } }) ∧
   (∀ (q : Nat) (f : List Byte) (stamp : Word) (s : State),
     ((s.qp q).posts = [] ∨ (s.qp q).st ≠ .active → s.takeFrame q f stamp = s.updQp q (fun x => { x with drop := satInc x.drop })) ∧
     (∀ (d : Desc) (l : List Desc), (s.qp q).st = .active → (s.qp q).posts = d :: l →
       s.takeFrame q f stamp = ((s.macStat (s.qp q).mac.toNat 4).updQp q (fun x => { x with posts := l })).complete q d
         { status := if d.len < f.length then 0x05 else 0, res0 := stamp, xlen := f.length, data := f.take d.len })) ∧
   (∀ (m : Fin 4) (l : Link) (s : State), Gives (exec (.sgmiiLinkChange m l) s) (fun t =>
     (t.mac m).link = ((s.mac m).en && l == .up) ∧
     ((s.mac m).link ≠ ((s.mac m).en && l == .up) → bit (t.mac m).evt 0 = true) ∧
     (l = .bad → bit (t.mac m).evt 1 = true))))

/-- R367, R368, R370 to R373, R376 to R381: link changes are kept; a listening module backs off once 100 µs have passed without a SYNC,
and after its own wait is ring master of itself at the next cycle start; the own slot leaves when it is due, with its check value,
and is kept; the lowest sender leads from the cycle start; a frame with a false check value is counted and not used, a good one in
its slot is; the lost module is no longer admitted and every term imported from it is active. -/
def Obligations.FiminLinkRing : Prop :=
  (∀ (r : AB) (s : State),
    Gives (exec (.fiminlinkLinkDown r) s) (fun t => t.ringUp r = false ∧ t.flk.role = s.flk.role ∧
      t.ringUp r.other = s.ringUp r.other) ∧
    Gives (exec (.fiminlinkLinkUp r) s) (fun t => t.ringUp r = true ∧ t.ringUp r.other = s.ringUp r.other)) ∧
  (∀ s : State, s.flkUp = true →
    (s.flk.role = .listen →
      (s.past s.flk.roleAt 100000 = true → exec .listenExpiry s = .next (s.setRole .backoff).settle) ∧
      (s.past s.flk.roleAt 100000 = false → exec .listenExpiry s = .next s)) ∧
    (s.flk.role = .backoff →
      (s.past s.flk.roleAt (100000 * s.modAddr) = true →
        exec .backoffExpiry s = .next (State.settle { s with flk := { s.flk with lead := true } })) ∧
      (s.past s.flk.roleAt (100000 * s.modAddr) = false → exec .backoffExpiry s = .next s))) ∧
  (∀ s : State, s.sends = true →
    (s.slotDue = true → Gives (exec .fiminlinkSlotAssembly s) (fun t =>
      t.flk.last = s.slotBody ∧ t.flk.left = s.flk.leave ∧ t.flk.role = s.flk.role ∧ t.flk.sentIn = some s.cycNo)) ∧
    (s.slotDue = false → exec .fiminlinkSlotAssembly s = .next s)) ∧
  (∀ s : State, s.flkUp = true → s.now % 50000 < 2000 → s.flk.cycAt ≠ some s.cycNo → s.flk.syncB = none →
    (s.flk.role ≠ .backoff ∨ s.flk.lead = false) → Gives (exec .fiminlinkCycleStart s) (fun t =>
      t.flk.isMaster = (s.sends && s.senders.all (fun m => decide (s.modAddr ≤ m))) ∧ t.flk.cycAt = some s.cycNo)) ∧
  (∀ s : State, s.flk.role = .backoff → s.flk.lead = true →
    s.takeLead.flk.role = .run ∧ s.takeLead.flk.isMaster = true ∧ s.takeLead.flk.master = BitVec.ofNat 4 s.modAddr) ∧
  (∀ (r : AB) (body : List Byte) (slot : Fin 16) (arr : Int) (s : State),
    (s.flkUp = false ∨ s.ringUp r = false → exec (.fiminlinkSlotReceive r body true slot arr) s = .next s) ∧
    (s.flkUp = true → s.ringUp r = true → s.configured (fld (body.getD 0 0) 3 0) = false → body.length = 128 →
      s.chkOk body 124 = false →
        exec (.fiminlinkSlotReceive r body true slot arr) s = .next (s.chkFail r slot).settle)) ∧
  (∀ (r : AB) (body : List Byte) (slot : Fin 16) (arr : Int) (c : Word) (s u : State), s.flkUp = true → s.ringUp r = true →
    fld (body.getD 0 0) 3 0 = slot.val → slot.val ≠ s.modAddr → s.configured slot = true → body.length = 128 →
    s.chkOk body 124 = true → slotShape body = true → c = BitVec.ofNat 32 (((s.now : Int) - arr).toNat / 50000) →
    word4 (body.drop 4) = c → u = (s.emit (.forward r body)).measureLink r slot body arr → u.linkLong r = false →
    u.pathKnown r slot = true → (arr - u.pathDelay r slot).natAbs ≤ 200 →
      exec (.fiminlinkSlotReceive r body true slot arr) s =
        .next (u.validSlot r slot body c (arr - u.pathDelay r slot)).settle) ∧
  (∀ (r : AB) (body : List Byte) (cap : Int) (s : State), s.flkUp = true → s.ringUp r = true → body.length = 16 →
    s.configured (fld (body.getD 0 0) 3 0) = true → s.flk.isMaster = false →
      (s.chkOk body 12 = false →
        exec (.fiminlinkSyncReceive r body cap) s = .next ((s.emit (.forward r body)).flkEvt 7).settle) ∧
      (s.chkOk body 12 = true → syncShape body = true → s.linkLong r = false →
        exec (.fiminlinkSyncReceive r body cap) s = .next ((s.emit (.forward r body)).validSync r body cap).settle)) ∧
  (∀ (m : Fin 16) (s : State), s.flkUp = true → m.val ≠ s.modAddr → (s.peer m).adm = true → (s.peer m).leave = true →
    Gives (exec (.moduleLost m) s) (fun t => (t.peer m).adm = false ∧ (t.peer m).lost = true ∧
      ∀ e ∈ s.cfg.imports, e.2.1 = m.val → e.1 < 192 → bit t.lid.im e.1 = true ∧ bit t.lid.evt 3 = true))

/-! ### Host interface, sessions, store, self-test and registers (R387 to R436, R472 to R504) -/

/-- R393 to R396, R407, R410, R411: a doorbell within the queue moves its index, which a fetch of the same tick does not see; one beyond
it is an error of the queue pair, on the CQ judged as the tick ends; one to a queue pair that is not ACTIVE or with high bits only
sets DB_EVT; a read of a doorbell returns the last index accepted; the queue pair whose turn it is fetches at most four entries, as
far as the credit allows; a valid set-up enables with every index 0; entries and buffers that arrive join, a failed entry read is
ERROR 2; the interrupt timer raises the vector of its queue. -/
def Obligations.QueuePairsRun : Prop :=
  (∀ (q : Fin 64) (v : Word) (s u : State), u = s.hostWrite →
    (fld v 31 16 ≠ 0 ∨ (u.qp q).st ≠ .active →
      exec (.sqDoorbell q v) s = .next (u.hifEvt 4).settle ∧ exec (.cqDoorbell q v) s = .next (u.hifEvt 4).settle) ∧
    (fld v 31 16 = 0 → (u.qp q).st = .active →
      ((v.extractLsb' 0 16 - (u.qp q).sqc).toNat ≤ 2 ^ (u.qp q).sqExp →
        exec (.sqDoorbell q v) s = .next (u.updQp q (fun x => x.ring u.now (v.extractLsb' 0 16))).settle) ∧
      (2 ^ (u.qp q).sqExp < (v.extractLsb' 0 16 - (u.qp q).sqc).toNat →
        exec (.sqDoorbell q v) s = .next (u.qpError q 1).checkSilence.settle) ∧
      ((v.extractLsb' 0 16 - (u.qp q).cqc).toNat ≤ ((u.qp q).cqp - (u.qp q).cqc).toNat →
        exec (.cqDoorbell q v) s = .next (u.updQp q (fun x => { x with cqc := v.extractLsb' 0 16 })).settle) ∧
      (((u.qp q).cqp - (u.qp q).cqc).toNat < (v.extractLsb' 0 16 - (u.qp q).cqc).toNat →
        exec (.cqDoorbell q v) s =
          .next (State.settle { u with hif := { u.hif with late := u.hif.late ++ [(q.val, v.extractLsb' 0 16)] } })))) ∧
  (∀ (q : Nat) (c : Half) (s : State), (s.qp q).st = .active →
    ((c - (s.qp q).cqc).toNat ≤ ((s.qp q).cqp - (s.qp q).cqc).toNat → s.lateDoorbell q c = s.updQp q (fun x => { x with cqc := c })) ∧
    (((s.qp q).cqp - (s.qp q).cqc).toNat < (c - (s.qp q).cqc).toNat → s.lateDoorbell q c = (s.qpError q 5).checkSilence)) ∧
  (∀ (x : Qp) (now : Nat) (p : Half), (x.ring now p).sqp = p ∧ (x.sqpAt ≠ some now → (x.ring now p).sqpSeen now = x.sqp) ∧
    (∀ later : Nat, later ≠ now → (x.ring now p).sqpSeen later = p)) ∧
  (∀ (q : Fin 64) (s : State),
    exec (.reservedRangeRead true (BitVec.ofNat 14 (8 * q)) 4) s =
      .next ({ s with rd := { lo := (s.qp q).sqp.zeroExtend 32, hi := 0 } }).settle ∧
    exec (.reservedRangeRead true (BitVec.ofNat 14 (8 * q + 4)) 4) s =
      .next ({ s with rd := { lo := (s.qp q).cqc.zeroExtend 32, hi := 0 } }).settle) ∧
  (∀ (q : Fin 64) (n : Nat) (s u : State), s.busUp = true → s.hostPath = true → s.sqReads < 8 →
    (s.qp q).fetchable s.now = n → u = { s with hif := { s.hif with turn := q.val } } →
      (s.fetchTurn = some q.val → exec (.sqFetch q) s = .next ((u.updQp q (fun x => { x with
        sqc := x.sqc + BitVec.ofNat 16 n, out := x.out + n, reading := some (x.sqc, n) })).emit
          (.fetch q (s.qp q).sqc.toNat n)).settle) ∧
      (s.fetchTurn ≠ some q.val → exec (.sqFetch q) s = .next s)) ∧
  (∀ (x : Qp) (now : Nat), x.fetchable now ≤ 4 ∧ x.fetchable now ≤ (x.sqpSeen now - x.sqc).toNat ∧
    x.fetchable now ≤ 2 ^ x.cqExp - ((x.cqp - x.cqc).toNat + x.out)) ∧
  (∀ (q : Fin 64) (v : Word) (s : State), (s.hostWrite.qp q).st = .disabled → bit v 0 = true →
    (s.hostWrite.updQp q (fun x => { x with cls := bit v 1, mac := v.extractLsb' 2 2 })).setupOk q = true →
      Gives (exec (.qpEnable q v) s) (fun t => (t.qp q).st = .active ∧ (t.qp q).en = true ∧ (t.qp q).sqp = 0 ∧
        (t.qp q).sqc = 0 ∧ (t.qp q).cqp = 0 ∧ (t.qp q).cqc = 0 ∧ (t.qp q).cls = bit v 1)) ∧
  (∀ (q : Fin 64) (v : Word) (s : State),
    exec (.qpDisable q v) s = .next ((s.hostWrite.writeQpCtl q v).advance).settle) ∧
  (∀ (q : Fin 64) (l : List (List Word)) (b : List Byte) (s : State),
    exec (.dmaReadCompletion q (.entries l)) s = .next (s.arriveAll q l).settle ∧
    exec (.dmaReadCompletion q (.buffer b)) s = .next (s.bufferRead q (fun d => { d with buf := some b })).settle ∧
    exec (.dmaReadCompletion q (.failed true)) s = .next (s.entryReadFailed q).settle ∧
    exec (.dmaReadCompletion q (.failed false)) s = .next (s.bufferRead q (fun d => { d with memErr := true })).settle ∧
    exec (.dmaReadCompletion q .cqeFailed) s = .next (s.cqWriteFailed q).settle ∧
    exec (.completionTimeout q true) s = .next (s.entryReadFailed q).settle ∧
    exec (.completionTimeout q false) s = .next (s.bufferRead q (fun d => { d with memErr := true })).settle) ∧
  (∀ (q n : Nat) (f : Half) (s : State), (s.qp q).reading = some (f, n) → (s.qp q).st = .active →
    (s.qp q).en = true →
    ((s.entryReadFailed q).qp q).st = .error ∧ ((s.entryReadFailed q).qp q).cause = 2 ∧
    ((s.entryReadFailed q).qp q).reading = none) ∧
  (∀ (q : Fin 64) (s : State), (s.qp q).irqOn = true → (s.qp q).irq ≠ 0 →
    s.past (s.qp q).irqAt (1000 * fld (s.qp q).cqCfg 22 13) = true →
      exec (.cqInterruptTimer q) s = .next ((s.updQp q (fun x => { x with irq := 0 })).raise (q + 1)).settle)

/-- R387, R390, R403, R408, R409, R411: a reset of the host interface disables every queue pair, leaves no session or set mask and
touches no cell; the link down and PE_PERSTN low do the same with the link down; the link trains unless PE_PERSTN or a failed
endpoint (R43) holds it; D3hot is kept and left; T_HSIL without a write is silence as the tick ends, which asserts FAULTN. -/
def Obligations.HostLinkResetAndSilence : Prop :=
  (∀ s : State, (∀ q : Nat, (s.hostReset.qp q).st = .disabled ∧ (s.hostReset.qp q).en = false ∧ (s.hostReset.qp q).posts = []) ∧
    s.hostReset.hif.mask = State.reset.hif.mask ∧ s.hostReset.hif.d3 = false ∧
    s.hostReset.hif.evt = 0 ∧ s.hostReset.hif.linkUp = s.hif.linkUp ∧ s.hostReset.store.maint.sess = none ∧
    s.hostReset.store.safety.sess = none ∧ s.hostReset.cells = s.cells ∧ s.hostReset.perm = s.perm ∧
    s.hostReset.engs = s.engs) ∧
  (∀ s : State, exec .functionLevelReset s = .next (s.hostReset.checkSilence.advance).settle ∧
    exec .hotReset s = .next (s.hostReset.checkSilence.advance).settle ∧
    exec .dlDown s = .next (s.linkLost.advance).settle ∧
    exec .pePerstnLow s = .next (({ s with hif := { s.hif with perstn := false } }.linkLost).advance).settle ∧
    exec .pePerstnRelease s = .next ({ s with hif := { s.hif with perstn := true } }).settle) ∧
  (∀ s : State, s.linkLost.hif.linkUp = false ∧ s.linkLost.cells = s.cells) ∧
  (∀ s : State, (s.isOut (siteSpine 0 0 7) = false → s.hif.perstn = true →
      s.pwr.phase.hostUp = true ∨ s.pwr.phase = .starting →
      exec .dlUp s = .next ({ s with hif := { s.hif with linkUp := true } }.checkSilence).settle) ∧
    (s.isOut (siteSpine 0 0 7) = true ∨ s.hif.perstn = false ∨ s.pwr.phase = .reset ∨ s.pwr.phase = .standby →
      exec .dlUp s = .next s)) ∧
  (∀ s : State, Gives (exec (.d3hotTransition true) s) (fun t => t.hif.d3 = true ∧ t.hif.qps = s.hif.qps) ∧
    Gives (exec (.d3hotTransition false) s) (fun t => t.hif.d3 = false)) ∧
  (∀ s : State, s.anyActive = true → s.hif.tHsil ≠ 0 →
    s.past s.hif.lastW (1000000 * (10 * s.hif.tHsil.toNat)) = true →
      exec .hostSilenceOnset s = .next (State.settle { s with hif := { s.hif with silTo := true } })) ∧
  (∀ s : State, s.pwr.phase = .service → s.hif.silTo = true → s.hif.silent = false → s.anyActive = true → s.hif.late = [] →
    s.hif.rx = [] → s.hostTick.hif.silent = true ∧ s.hostTick.sys.faultn = true ∧ s.hostTick.cells = s.cells)

/-- R391, R397, R398, R403: a command on a queue pair of the wrong class completes with 0x04, one with a reserved bit or a
length it does not use with 0x02, one whose buffer could not be read with 0x03, one without the session it needs with its
code; none of them has its effect, and one whose buffer has not arrived waits. -/
def Obligations.QueueCommandsAreChecked : Prop :=
  ∀ (q opc : Nat) (need : Need) (body : State → Desc → State) (d : Desc) (s : State), s.nextCmd q = some d →
    (d.opc ≠ opc → s.runCmd q opc need body = s) ∧
    (d.opc = opc → opc ≠ 1 → d.net ≠ opcNetwork opc → s.runCmd q opc need body = s.complete q d { status := 4 }) ∧
    (d.opc = opc → d.net = opcNetwork opc → d.shapeOk = false → s.runCmd q opc need body = s.complete q d { status := 2 }) ∧
    (d.opc = opc → d.net = opcNetwork opc → d.shapeOk = true → d.memErr = true →
      s.runCmd q opc need body = s.complete q d { status := 3 }) ∧
    (d.opc = opc → d.net = opcNetwork opc → d.shapeOk = true → d.memErr = false → opcReads opc = true → d.buf = none →
      s.runCmd q opc need body = s) ∧
    (d.opc = opc → d.net = opcNetwork opc → d.shapeOk = true → d.memErr = false → (opcReads opc = true → d.buf.isSome = true) →
      s.sessionCode q d.sess need ≠ 0 → s.runCmd q opc need body = s.complete q d { status := s.sessionCode q d.sess need }) ∧
    (CanRun s q opc need d → s.runCmd q opc need body = body (s.touchSession q d.sess) d) ∧
    (s.sessionRole q d.sess = some .maintenance → s.sessionCode q d.sess .safety = 0x11) ∧
    (s.sessionRole q d.sess = none → s.sessionCode q d.sess .maint = 0x10 ∧ s.sessionCode q d.sess .safety = 0x10)

/-- R110, R360, R400 to R406, R432: the commands that answer with what the module holds return it, or BUFFER_SHORT where it
does not fit; PI_WRITE sets the standard outputs it names; ACK marks its record; TIME_SET and OFFSET_SET set TAI and the UTC
offset; FRAME_TX sends and RX_POST posts; LOG_READ reads the log through the store port. -/
def Obligations.HostCommandsAct : Prop :=
  (∀ (q : Fin 64) (d : Desc) (s u : State), u = s.touchSession q d.sess →
    (CanRun s q 0x01 .none d → exec (.nop q) s = .next (u.complete q d {}).settle) ∧
    (CanRun s q 0x02 .none d → d.p 0 = 0 →
      exec (.piRead q) s = .next (u.answer q d ((u.hostImage none).flatMap bytes4)).settle) ∧
    (CanRun s q 0x03 .none d → d.named.all (fun o => (u.outRec o).mode == 2) = true →
      exec (.piWrite q) s =
        .next ((d.named.foldl (fun s o => s.hostLevel o (bit (d.p (2 + o / 32)) (o % 32))) u).complete q d {}).settle) ∧
    (∀ (o : Nat) (level : Bool), (level = false ∨ u.tb.chanOff.contains o = false →
        ((u.hostLevel o level).out o).level = level ∧ ((u.hostLevel o level).out o).stdWait = false) ∧
      (level = true → u.tb.chanOff.contains o = true → u.hostLevel o level = u)) ∧
    (CanRun s q 0x06 .maint d → u.recs.any (fun r => r.seq == d.p 0) = true →
      exec (.ack q) s = .next ((({ u with recs := u.recs.map (fun (r : FRec) =>
          if r.seq = d.p 0 then { r with acked := true } else r) } : State).log
        { kind := 0x0E, role := (u.sessionTag q d.sess).1, handle := (u.sessionTag q d.sess).2, d12 := d.p 0 }).complete q d
          {}).settle) ∧
    (CanRun s q 0x09 .none d → fld (d.p 0) 31 16 = 0 → u.tb.utcSrc ≠ .ptp →
      exec (.offsetSet q) s = .next (((u.hostUtc ((d.p 0).extractLsb' 0 16)).log
        { kind := 0x10, d12 := u.tb.utc.zeroExtend 32, d13 := ((d.p 0).extractLsb' 0 16 : Half).zeroExtend 32 }).complete q d
          {}).settle) ∧
    (CanRun s q 0x05 .maint d → d.len = 0 →
      exec (.logRead q) s = .next (u.complete q d { res0 := u.store.lostN, res1 := u.store.next }).settle) ∧
    (CanRun s q 0x05 .maint d → d.len % 128 = 0 → d.len ≠ 0 → u.store.lost = false →
      exec (.logRead q) s = .next ((u.markRan q d).addWork
        { q := q, d := some { d with ran := true }, jobs := List.replicate ((min 8192 (d.len / 128) + 31) / 32) .readLog, code := 0, res0 := 0 }).settle) ∧
    (CanRun s q 0x30 .none d → 60 ≤ d.len → d.len ≤ 1518 → u.looksWilis ((d.buf.getD []).take d.len) = false →
      (u.mac (u.qp q).mac.toNat).en = true → (u.mac (u.qp q).mac.toNat).link = true →
        exec (.frameTx q) s = .next (((u.emit (.frame (u.qp q).mac.toNat ((d.buf.getD []).take d.len))).macStat
          (u.qp q).mac.toNat 11).complete q d {}).settle) ∧
    (CanRun s q 0x31 .none d → 64 ≤ d.len → (u.qp q).st = .active →
      exec (.rxPost q) s =
        .next (u.updQp q (fun x => { x with cmds := x.cmds.erase d, posts := x.posts ++ [d] })).settle)) ∧
  (∀ (q : Fin 64) (d : Desc) (ofs : Half) (s u : State), u = s.touchSession q d.sess → CanRun s q 0x08 .none d →
    ofs = (d.p 2).extractLsb' 0 16 → fld (d.p 2) 31 16 = 0 → ((d.p 1).toNat * 2 ^ 32 + (d.p 0).toNat) % 64 = 0 →
    ((d.p 1).toNat * 2 ^ 32 + (d.p 0).toNat) / 64 % 2 ^ 20 ≤ 999999 →
    dateExists ((d.p 1).toNat * 2 ^ 32 + (d.p 0).toNat) = true → u.ownRef = true → u.ptpLocked = false →
    u.anyLoaded = false →
      exec (.timeSet q) s = .next (((((u.stepTb (BitVec.ofInt 64
        ((calMicros ((d.p 1).toNat * 2 ^ 32 + (d.p 0).toNat) : Int) * 1000 + ofs.toInt * 1000000000))).hostUtc ofs).setSource 3
          (BitVec.ofNat 4 u.modAddr) 0).log
            { kind := 0x0F, d12 := u.tb.tb.extractLsb' 0 32, d13 := u.tb.tb.extractLsb' 32 32 }).complete q d {}).settle) ∧
  (∀ (q : Fin 64) (d : Desc) (s u : State), u = s.touchSession q d.sess →
    (∀ l : List FRec, CanDiag s q 1 d → d.len % 32 = 0 →
      l = (u.recs.reverse.filter (fun r => decide ((r.seq - d.p 1).toNat < 2 ^ 31))).take (d.len / 32) →
        exec (.diagReadFaultRecords q) s = .next (u.answer q d (l.flatMap (fun r => r.words.flatMap bytes4))
          (BitVec.ofNat 32 l.length) ((l.getLast?.map (fun r => r.seq + 1)).getD (d.p 1))).settle) ∧
    (CanDiag s q 2 d → d.p 1 = 0 →
      exec (.diagReadAvailability q) s = .next (u.answer q d
        ((List.range 1024).flatMap (fun c => bytes8 (u.availNow c)) ++ bytes8 (u.avail.toNat +
          (u.cells.map (fun e => match e.2.since with | some t => u.since t | none => 0)).sum))).settle) ∧
    (CanDiag s q 3 d → (d.p 1).toNat ≤ 63 →
      exec (.diagReadMasks q) s = .next (u.answer q d (u.maskBytes (d.p 1).toNat .a ++ u.maskBytes (d.p 1).toNat .b)).settle) ∧
    (CanDiag s q 4 d → (d.p 1).toNat ≤ 1023 → (u.cell (d.p 1).toNat).st = .unloaded →
      exec (.diagReadDescriptor q) s = .next (u.answer q d ((padTo 64 []).flatMap bytes4)).settle) ∧
    (∀ v : CellImg, CanDiag s q 4 d → (d.p 1).toNat ≤ 1023 → (u.cell (d.p 1).toNat).st ≠ .unloaded →
      (u.cell (d.p 1).toNat).ver = some v →
        exec (.diagReadDescriptor q) s = .next (u.answer q d ((padTo 64 v.desc).flatMap bytes4)
          (BitVec.ofNat 32 (u.cell (d.p 1).toNat).st.n)).settle) ∧
    (CanDiag s q 5 d → fld (d.p 1) 31 19 = 0 → u.siteRef (d.p 1) = none →
      exec (.diagReadSite q) s = .next (u.complete q d { status := 0x20 }).settle) ∧
    (∀ site lv : Nat, CanDiag s q 5 d → fld (d.p 1) 31 19 = 0 → u.siteRef (d.p 1) = some (site, lv) →
      exec (.diagReadSite q) s = .next (u.answer q d (bytes4 (atBit 32 0 (!(u.statusOf site lv).oos) |||
        atLsb 32 8 (u.statusOf site lv).code.toNat ||| atLsb 32 16 (u.statusOf site lv).count.toNat))).settle) ∧
    (CanDiag s q 6 d → d.p 1 = 0 →
      exec (.diagReadBist q) s = .next (u.answer q d ((padTo 288 ((List.range 8).flatMap u.bistSummary ++
        u.bist.fails.flatMap (fun f => [f.1.zeroExtend 32 ||| atLsb 32 16 f.2.1.toNat ||| atBit 32 24 f.2.2.1 |||
          atBit 32 25 f.2.2.2.1, f.2.2.2.2]))).flatMap bytes4)).settle)) ∧
  (∀ (q : Nat) (d : Desc) (data : List Byte) (a b : Word) (s : State),
    (d.len < data.length → s.answer q d data a b = s.complete q d { status := 5 }) ∧
    (data.length ≤ d.len →
      s.answer q d data a b = s.complete q d { res0 := a, res1 := b, xlen := data.length, data := data }))

/-- R424, R425, R427, R428, R484: a session opens only for a role that is not locked out and has none open; the right password opens it
under a fresh handle and ends the failures, the fifth wrong one in a row locks the role out; a session closes when asked, after
900 s, and the lockout ends. -/
def Obligations.SessionsOpenAndClose : Prop :=
  (∀ (q : Fin 64) (d : Desc) (r : Role) (s u : State), u = s.touchSession q d.sess → CanRun s q 0x10 .none d →
    d.roleOf = some r → 8 ≤ d.len → d.len ≤ 64 → u.store.lost = false →
      ((u.role r).shut u.now = true → exec (.sessOpen q) s = .next (u.complete q d { status := 0x13 }).settle) ∧
      ((u.role r).shut u.now = false → (u.role r).sess.isSome = true →
        exec (.sessOpen q) s = .next (u.complete q d { status := 0x14 }).settle) ∧
      ((u.role r).shut u.now = false → (u.role r).sess = none → (u.role r).chk = none →
        exec (.sessOpen q) s = .next ((u.markRan q d).updRole r (fun x => { x with chk := some q.val })).settle)) ∧
  (∀ (r : Role) (q : Nat) (d : Desc) (s : State), (s.role r).chk = some q →
    (s.qp q).cmds.find? (fun d => d.ran && d.opc == 0x10 && d.roleOf == some r) = some d → (s.qp q).st = .active →
      (Config.pbkdf2 ((d.buf.getD []).take d.len) (s.credOf r).salt (s.credOf r).iters = (s.credOf r).hash →
        (s.role r).fails = 0 → (s.role r).level = 0 →
          Gives (exec (.passwordCheckDone r) s) (fun t => ∃ h : Half, (t.role r).sess = some (h, q) ∧ h ≠ 0 ∧
            (t.role r).chk = none ∧ (t.role r).locked = (s.role r).locked)) ∧
      (Config.pbkdf2 ((d.buf.getD []).take d.len) (s.credOf r).salt (s.credOf r).iters ≠ (s.credOf r).hash →
        (s.role r).fails = 4 → s.store.works = [] → s.store.holder = none →
          Gives (exec (.passwordCheckDone r) s) (fun t => (t.role r).locked = true ∧ (t.role r).fails = 0 ∧
            (t.role r).lockT = lockTicks (s.role r).level ∧ (t.role r).sess = (s.role r).sess))) ∧
  (∀ (r : Role) (s : State),
    ((s.role r).locked = true → (s.role r).lockT = 0 →
      exec (.lockoutEnd r) s = .next (s.updRole r (fun x => { x with locked := false, freedAt := some s.now })).settle) ∧
    ((s.role r).locked = false ∨ (s.role r).lockT ≠ 0 → exec (.lockoutEnd r) s = .next s) ∧
    (∀ x : RoleS, x.shut s.now = (x.locked || x.freedAt == some s.now)) ∧
    ((s.role r).sess.isSome = true → s.past (s.role r).lastC 900000000000 = true →
      exec (.sessionIdleTimeout r) s = .next (s.closeSession r 1).settle) ∧
    ((s.role r).sess.isSome = false → exec (.sessionIdleTimeout r) s = .next s) ∧
    ((s.closeSession r 1).role r).sess = none) ∧
  (∀ (q : Fin 64) (d : Desc) (r : Role) (s u : State), u = s.touchSession q d.sess → CanRun s q 0x13 .any d →
    u.sessionRole q d.sess = some r →
      exec (.sessClose q) s = .next ((u.closeSession r 0).complete q d {}).settle)

/-- R413 to R423, R445: SESS_WRITE programs its pages after the erases they need; SESS_COMMIT begins its checks; the port is granted
to the chosen requester while it is free, without a freeze or hold-up, and programs and erases only with HOLD_OK; an operation
that ends frees the port, and is cut short only by the hold-up (R414); a failed periodic check sets BANKBAD_EVT. -/
def Obligations.StorePortAndCommit : Prop :=
  (∀ (q : Fin 64) (d : Desc) (s u : State), u = s.touchSession q d.sess → CanRun s q 0x11 .safety d → d.len ≤ 65536 →
    (d.p 0).toNat + d.len ≤ imageMax → u.store.lost = false → u.store.works = [] →
      exec (.sessWrite q) s = .next ((({ u with store := { u.store with begun := true } } : State).markRan q d).addWork
        { q := q, d := some { d with ran := true },
          jobs := (if u.store.begun then [] else [Job.eraseHdr]) ++
            ((List.range 96).filter (fun n => decide ((d.p 0).toNat / 65536 ≤ n) &&
              decide (65536 * n < (d.p 0).toNat + d.len) && !(u.storeBank u.target).fresh.contains n)).map Job.eraseBlk ++
            pagesOf (d.p 0).toNat ((d.buf.getD []).take d.len) (((d.buf.getD []).take d.len).length / 256 + 2),
          code := 0, res0 := 0 }).settle) ∧
  (∀ (q : Fin 64) (d : Desc) (s u : State), u = s.touchSession q d.sess → CanRun s q 0x12 .safety d →
    u.store.lost = false →
      (u.committing = true → exec (.sessCommit q) s = .next (u.complete q d { status := 0x14 }).settle) ∧
      (u.committing = false → exec (.sessCommit q) s = .next ((u.markRan q d).addWork
        { q := q, d := some { d with ran := true }, jobs := [.check], code := 0, res0 := 0 }).settle)) ∧
  (∀ (n : Nat) (s : State), s.store.holder = none → s.store.freeze = false → s.pwr.fail = false → s.store.lost = false →
    s.pwr.phase.hostUp = true → s.chosen = some n →
      Gives (exec .storeGrant s) (fun t => t.store.holder = some n ∧ t.store.op = s.wanted n ∧ t.store.op ≠ .none ∧
        (s.pwr.holdOk = false → t.store.op = .read))) ∧
  (∀ s : State, s.store.holder.isSome = true ∨ s.store.freeze = true ∨ s.pwr.fail = true →
    exec .storeGrant s = .next s) ∧
  (∀ (x : OpEnd) (s : State), x = .done ∨ s.pwr.fail = true → s.store.holder = some 0 →
    exec (.storeOperationDone x) s = .next ({ s with store := { s.store with
      holder := none, op := .none, rtAt := some s.now } }).settle) ∧
  (∀ (x : OpEnd) (s : State), (x = .done ∨ s.pwr.fail = true → exec (.storeOperationDone x) s = .next (s.storeDone x).settle) ∧
    (s.pwr.fail = false → exec (.storeOperationDone .cut) s = .next s)) ∧
  (∀ s u : State, s.store.lost = false → u = { s with store := { s.store with checkAt := s.now } } →
    exec (.storePeriodicCheck 0) s = .next u.settle ∧
    (s.store.bank0.failing false ≠ 0 → exec (.storePeriodicCheck 1) s = .next u.settle) ∧
    (s.store.bank0.failing false = 0 → Gives (exec (.storePeriodicCheck 1) s) (fun t => bit t.store.evt 6 = true ∧
      t.store.bank0.failing false = 4 ∧ t.store.bank0.image = s.store.bank0.image ∧ t.store.win = s.store.win)))

/-- R454, R473 to R478, R485: a run of self-test that is due begins on the next powered region once its conditions and tokens
are there; its end is reported as the tick ends, and counts in the region's summary with the worst it found; a lapse of the
conditions discards it; a row that takes too long is counted; a run that takes too long is abandoned and reported. -/
def Obligations.BuiltInSelfTest : Prop :=
  (∀ (r : Nat) (s : State), s.pwr.phase = .service → s.bist.active = false → s.runDue = true →
    ({ s with bist := { s.bist with conds := true } } : State).condsNow = true →
    ({ s with bist := { s.bist with conds := true } } : State).nextRegion = some r → s.ladle.vsys.queue = [] →
    15 ≤ s.ladle.vsys.level → s.holds 0 (siteSpine 0 0 4) = false →
      Gives (exec .bistRunStart s) (fun t => t.bist.active = true ∧ t.bist.region = BitVec.ofNat 2 r ∧ t.bist.pct = 0 ∧
        t.ladle.vsys.level = s.ladle.vsys.level - 15)) ∧
  (∀ s : State, s.runDue = false → exec .bistRunStart s = .next s.settle) ∧
  (∀ s : State, s.bist.active = true → s.bist.paused = false →
    (∀ l : List BistItem, exec (.bistRunEnd l) s =
      .next (State.settle { s with bist := { s.bist with ended := some l } })) ∧
    Gives (exec .bistConditionLapse s) (fun t => t.bist.active = false ∧ t.bist.again = true ∧ bit t.bist.evt 4 = true ∧
      t.bist.sums = s.bist.sums) ∧
    exec .rowTestTimeout s = .next ({ s with bist := { s.bist with skipped := s.bist.skipped + 1 } }).settle ∧
    (s.past s.bist.runAt 60000000000 = false → exec .bistRunTimeout s = .next s) ∧
    (s.past s.bist.runAt 60000000000 = true → Gives (exec .bistRunTimeout s) (fun t => t.bist.active = false ∧
      (Tab.get {} t.bist.sums s.bist.region.toNat).incompl =
        satInc (Tab.get {} s.bist.sums s.bist.region.toNat).incompl ∧
      ((Tab.get {} s.bist.sums s.bist.region.toNat).incompl = 2 → bit t.bist.evt 3 = true)))) ∧
  (∀ s : State, s.bist.ended = some [] → s.reportRun.bist.active = false ∧ s.reportRun.bist.pct = 100 ∧
    s.reportRun.bist.ended = none ∧ (Tab.get {} s.reportRun.bist.sums s.bist.region.toNat).outcome = 1 ∧
    (Tab.get {} s.reportRun.bist.sums s.bist.region.toNat).runs = (Tab.get {} s.bist.sums s.bist.region.toNat).runs + 1) ∧
  (∀ l : List BistItem, (∀ i ∈ l, i.code = 0) → bistOutcome l = 1)

/-- R8, R9, R389, R407, R489, R493, R495, R498, R500: SYS_LOCK keeps the registers it protects, itself among them; an unaligned or
reserved offset only sets ACC_EVT and reads 0; a scratch write is stored; a one clears a W1C bit but for one that has set in the
tick of the write; a CVU write starts, stops or sets up its unit, and a
width below 8 is refused; an entry of the MSI-X table stores its words. -/
def Obligations.RegisterAccess : Prop :=
  (∀ (v : Word) (s : State),
    (s.sys.lock = false → exec (.sysLockWrite v) s =
      .next ({ s.hostWrite with sys := { s.sys with lock := bit v 0 } }).settle) ∧
    (s.sys.lock = true → Gives (exec (.sysLockWrite v) s) (fun t => t.sys.lock = true ∧ bit t.sys.evt 3 = true))) ∧
  (∀ (a : BitVec 14) (v : Word) (s : State), a.toNat % 4 ≠ 0 ∨ offsetInUse a.toNat = false →
    exec (.registerWrite a v) s = .next (s.hostWrite.hifEvt 5).settle) ∧
  (∀ (v : Word) (s : State), (∀ i : Nat, i < 32 → s.hostWrite.setNow.contains (32 * 0x028 + i) = false) →
    Gives (exec (.registerWrite 0x028 v) s) (fun t => t.sys.scratch = v ∧ t.regs = s.regs)) ∧
  (∀ (n : Fin 8) (v : Word) (s : State), (∀ w, (s.cvu n).was = some w → w.at_ ≠ s.now) →
    (7 ≤ fld v 10 6 → fld v 3 1 ≤ 1 →
      (bit v 0 = true → exec (.cvuStart n v) s = .next (s.hostWrite.updCvu n (fun c => { c with
        ctl := v.extractLsb' 0 19, reg := BitVec.ofNat 32 (c.init.toNat % 2 ^ (fld v 10 6 + 1)), cnt := 0, done := false,
        run := true, was := none, items := [] })).settle) ∧
      (bit v 0 = false → exec (.cvuStop n v) s = .next (s.hostWrite.updCvu n (fun c =>
        { c with ctl := v.extractLsb' 0 19, run := false, was := none, items := [] })).settle)) ∧
    (fld v 10 6 < 7 → exec (.cvuStart n v) s = .next (s.hostWrite.cvuDo n (fun c =>
      { c with evt := setBit c.evt 1 true, was := none, items := [] })).settle) ∧
    exec (.cvuRegisterWrite n 1 v) s = .next (s.hostWrite.updCvu n (fun c =>
      { c with poly := s.w1c (0x2C04 + 0x20 * n) v, run := false, was := none, items := [] })).settle ∧
    exec (.cvuRegisterWrite n 4 v) s = .next (s.hostWrite.updCvu n (fun c =>
      { c with len := s.w1c (0x2C10 + 0x20 * n) v, run := false, was := none, items := [] })).settle) ∧
  (∀ (a : Nat) (v : Word) (s : State),
    (∀ i : Nat, i < 32 → bit (s.w1c a v) i = (bit v i && !s.setNow.contains (32 * a + i)))) ∧
  (∀ (i : Nat) (v : Word) (s : State), i < 7 → bit s.hif.evt i = true → s.hifWrite 0x004 v =
    { s with hif := { s.hif with evt := s.hif.evt &&& ~~~(v.extractLsb' 16 7) } } ∧
    (bit v (16 + i) = true → bit (s.hifWrite 0x004 v).hif.evt i = false) ∧
    (bit v (16 + i) = false → bit (s.hifWrite 0x004 v).hif.evt i = true)) ∧
  (∀ (bar2 : Bool) (a : BitVec 14) (n : Nat) (s : State), readAccepted bar2 a.toNat n = false →
    Gives (exec (.reservedRangeRead bar2 a n) s) (fun t => t.rd = { lo := 0, hi := 0 } ∧ bit t.hif.evt 5 = true)) ∧
  (∀ (i : Fin 65) (v : Word) (s : State),
    Gives (exec (.msiXTableWrite (BitVec.ofNat 12 (0x800 + 16 * i + 12)) v) s) (fun t =>
      bit t.hif.mask i = bit v 0 ∧ Tab.get 0 t.hif.msix (4 * i + 3) = v &&& 1) ∧
    Gives (exec (.msiXTableWrite (BitVec.ofNat 12 (0x800 + 16 * i)) v) s) (fun t =>
      Tab.get 0 t.hif.msix (4 * i) = v ∧ t.hif.mask = s.hif.mask))

/-! ### The whole module -/

/-- A step takes the command at the front of the queue and runs it with the queue's rest; with no command waiting, one
tick passes, in which TB grows by INC where the clock that runs it runs (R82; that the tick stands here is log entry 1); what waits
for the end of a tick is judged before it (log entry 93). -/
def Obligations.StepRunsTheFrontCommand : Prop :=
  (∀ (s : State) (c : Instr) (rest : List Instr),
    step { s with pending := c :: rest } = exec c { s with pending := rest }) ∧
  (∀ s : State, s.pending = [] → s.tb.lfRun = false → s.coreUp = true → s.pwr.phase = .service →
    step s = .next s.tickEnd.fabricTick.seeCleared) ∧
  (∀ s : State, s.pending = [] → s.tb.lfRun = false → s.coreUp = true → s.pwr.phase = .service → Quiet s →
    Gives (step s) (fun t =>
      t.tb.tb ++ t.tb.frac = (s.tb.tb ++ s.tb.frac) + BitVec.zeroExtend 96 s.tb.inc ∧
        t.tb.inc = s.tb.inc ∧ t.lid = s.lid.nextTick ∧ t.outs = s.outs ∧ t.sys = s.sys ∧ t.cells = s.cells ∧ t.mems = s.mems))

/-- Every command of every state runs to a next state: no ordinary data and no mode stops the module. The next state is
the state itself or one in which the pins show their conditions (R27, R72). -/
def Obligations.EveryCommandRuns : Prop :=
  ∀ (c : Instr) (s : State), ∃ t, exec c s = .next t ∧ (t = s ∨ PinsFollow t)

/-- What reset leaves, of the values the rules give: the pins (R27, R72), INC (R82), T_HSIL (R410), the store's priorities
(R435), BG_PER (R486), the Ladle's sizes, rates and costs (R462), latches TRIPPED and imported terms active (R196, R192),
engines IDLE with every register and ENS 0, at 0x4000_0000 in runtime mode, and Whisk at its start value (R207, R217, R242),
cells UNLOADED (R281), groups, motion limits and elements off (R321, R329, R465), connections CLOSED (R349), the link role OFF
(R377), and the invariant. -/
def Obligations.ResetValues : Prop :=
  let s := State.reset
  (s.sys.safeOk = false ∧ s.sys.faultn = true ∧ s.sysReg 0x00C = 2 ∧ s.pwrReg 0x000 = 0 ∧ s.tb.inc = 0x400000000#64 ∧
    s.hif.tHsil = 100 ∧ s.store.prio = 0x1B ∧ s.bist.per = 15) ∧
  (s.ladle.vsys.size = 35 ∧ s.ladle.vsys.rate = 3 ∧ s.ladle.tpc = 30 ∧ s.ladle.oc = [] ∧
    ∀ d, (s.bucket (d + 1)).size = 1000 ∧ (s.bucket (d + 1)).rate = 4096 ∧ (s.bucket (d + 1)).level = 1000) ∧
  (∀ o, bit s.lid.armA o = false ∧ bit s.lid.relA o = false ∧ bit s.lid.armB o = false ∧ bit s.lid.relB o = false ∧
    (s.out o).a.on = false ∧ (s.out o).b.on = false) ∧
  (∀ i, i < 192 → bit s.lid.im i = true) ∧
  (∀ e, (s.eng e).role = .idle ∧ (s.eng e).pc = 0x40000000#32 ∧ (s.eng e).whisk = 0xFFFFFFFF#32 ∧ (s.eng e).cellM = false ∧
    (∀ r, (s.eng e).gr r = 0 ∧ (s.eng e).kr r = false) ∧ (s.eng e).lp0 = { lc := 0, ls := 0, le := 0 } ∧
    (s.eng e).lp1 = { lc := 0, ls := 0, le := 0 } ∧ (s.eng e).ens = 0 ∧ (s.eng e).epc = 0 ∧ (s.eng e).es = 0) ∧
  (∀ i, (s.cell i).st = .unloaded ∧ (s.grp i).st = .unused ∧ (s.conn i).st = .closed ∧ (s.chan i).armed = false) ∧
  s.flk.role = .off ∧ Inv s

/-- The invariant of the module: after every step, whatever command it runs, SAFE_OK and FAULTN show their conditions,
no element conducts without its owners' combined permit, an ARMED latch of its Lid and a field half that may drive it, no
ARMED latch has an active masked term, and a faulty Lid's latches are TRIPPED (R27, R72, R149, R195, R196, R202). -/
def Obligations.EveryStepKeepsTheInvariant : Prop :=
  ∀ s t : State, Inv s → step s = .next t → Inv t
end

