-- ==== Sys2Proof/Laws/Table.lean ====
section
/-! SUPPORT. The laws of the sparse table: a read after a write, and the canonical form kept by every write. -/

namespace Sys2Proof.Laws

open Sys2Proof

variable {α : Type}

/-- A removed key reads as an unlisted one. -/
theorem get_drop_same (d : α) (t : Tab α) (i : Nat) : Tab.get d (Tab.drop t i) i = d := by
  induction t with
  | nil => rfl
  | cons e t ih =>
    obtain ⟨k, v⟩ := e
    by_cases h : k = i
    · simpa [Tab.drop, h] using ih
    · simpa [Tab.drop, h, Tab.get] using ih

/-- Removing a key leaves every other. -/
theorem get_drop_other (d : α) (t : Tab α) {i j : Nat} (h : j ≠ i) :
    Tab.get d (Tab.drop t i) j = Tab.get d t j := by
  induction t with
  | nil => rfl
  | cons e t ih =>
    obtain ⟨k, v⟩ := e
    by_cases hk : k = i
    · subst hk
      simpa [Tab.drop, Tab.get, Ne.symm h] using ih
    · rw [Tab.drop, if_neg hk]
      by_cases hj : k = j <;> simp [Tab.get, hj, ih]

/-- An entry put into a table without its key is read there. -/
theorem get_ins_same (d : α) (t : Tab α) (i : Nat) (x : α) : Tab.get d (Tab.ins (Tab.drop t i) i x) i = x := by
  induction t with
  | nil => simp [Tab.drop, Tab.ins, Tab.get]
  | cons e t ih =>
    obtain ⟨k, v⟩ := e
    by_cases hk : k = i
    · simpa [Tab.drop, hk] using ih
    · by_cases hl : i < k <;> simp [Tab.drop, hk, Tab.ins, hl, Tab.get, ih]

/-- An entry put in changes no other key. -/
theorem get_ins_other (d : α) (t : Tab α) {i j : Nat} (x : α) (h : j ≠ i) :
    Tab.get d (Tab.ins t i x) j = Tab.get d t j := by
  induction t with
  | nil => simp [Tab.ins, Tab.get, Ne.symm h]
  | cons e t ih =>
    obtain ⟨k, v⟩ := e
    by_cases hl : i < k
    · simp [Tab.ins, hl, Tab.get, Ne.symm h]
    · rw [Tab.ins, if_neg hl]
      by_cases hj : k = j <;> simp [Tab.get, hj, ih]

@[simp] theorem get_nil (d : α) (i : Nat) : Tab.get d ([] : Tab α) i = d := rfl

/-! ### The canonical form -/

theorem rising_mono (t : Tab α) {a b : Nat} (h : a ≤ b) (w : Tab.rising t b = true) : Tab.rising t a = true := by
  cases t with
  | nil => rfl
  | cons e t =>
    obtain ⟨k, v⟩ := e
    simp only [Tab.rising, Bool.and_eq_true, decide_eq_true_eq] at w ⊢
    exact ⟨le_trans h w.1, w.2⟩

theorem rising_drop (t : Tab α) (i b : Nat) (w : Tab.rising t b = true) : Tab.rising (Tab.drop t i) b = true := by
  induction t generalizing b with
  | nil => rfl
  | cons e t ih =>
    obtain ⟨k, v⟩ := e
    simp only [Tab.rising, Bool.and_eq_true, decide_eq_true_eq] at w
    by_cases h : k = i
    · simpa [Tab.drop, h] using ih b (rising_mono t (by omega) w.2)
    · simp [Tab.drop, h, Tab.rising, w.1, ih _ w.2]

/-- A removed key is listed nowhere. -/
theorem drop_key_ne (t : Tab α) (i : Nat) : ∀ e ∈ Tab.drop t i, e.1 ≠ i := by
  induction t with
  | nil => simp [Tab.drop]
  | cons e t ih =>
    obtain ⟨k, v⟩ := e
    by_cases h : k = i
    · rw [Tab.drop, if_pos h]; exact ih
    · rw [Tab.drop, if_neg h]
      intro e he
      rcases List.mem_cons.mp he with rfl | he
      · exact h
      · exact ih e he

theorem rising_ins (t : Tab α) (i b : Nat) (x : α) (hb : b ≤ i) (hn : ∀ e ∈ t, e.1 ≠ i)
    (w : Tab.rising t b = true) : Tab.rising (Tab.ins t i x) b = true := by
  induction t generalizing b with
  | nil => simp [Tab.ins, Tab.rising, hb]
  | cons e t ih =>
    obtain ⟨k, v⟩ := e
    simp only [Tab.rising, Bool.and_eq_true, decide_eq_true_eq] at w
    have hk : k ≠ i := hn (k, v) (by simp)
    by_cases h : i < k
    · simp [Tab.ins, h, Tab.rising, hb, w.2]
    · simp only [Tab.ins, h, if_false, Tab.rising, Bool.and_eq_true, decide_eq_true_eq]
      exact ⟨w.1, ih _ (by omega) (fun e he => hn e (by simp [he])) w.2⟩

theorem all_drop (t : Tab α) (i : Nat) (p : Nat × α → Bool) (h : t.all p = true) : (Tab.drop t i).all p = true := by
  induction t with
  | nil => rfl
  | cons e t ih =>
    obtain ⟨k, v⟩ := e
    simp only [List.all_cons, Bool.and_eq_true] at h
    by_cases hk : k = i
    · rw [Tab.drop, if_pos hk]; exact ih h.2
    · rw [Tab.drop, if_neg hk]; simp only [List.all_cons, h.1, ih h.2, Bool.and_self]

theorem all_ins (t : Tab α) (i : Nat) (x : α) (p : Nat × α → Bool) (h : t.all p = true) (hx : p (i, x) = true) :
    (Tab.ins t i x).all p = true := by
  induction t with
  | nil => simp [Tab.ins, hx]
  | cons e t ih =>
    obtain ⟨k, v⟩ := e
    simp only [List.all_cons, Bool.and_eq_true] at h
    by_cases hk : i < k
    · rw [Tab.ins, if_pos hk]; simp only [List.all_cons, hx, h.1, h.2, Bool.and_self]
    · rw [Tab.ins, if_neg hk]; simp only [List.all_cons, h.1, ih h.2, Bool.and_self]

theorem drop_drop (t : Tab α) (i : Nat) : Tab.drop (Tab.drop t i) i = Tab.drop t i := by
  induction t with
  | nil => rfl
  | cons e t ih =>
    obtain ⟨k, v⟩ := e
    by_cases hk : k = i
    · rw [Tab.drop, if_pos hk]; exact ih
    · rw [Tab.drop, if_neg hk, Tab.drop, if_neg hk, ih]

theorem drop_ins (t : Tab α) (i : Nat) (x : α) : Tab.drop (Tab.ins t i x) i = Tab.drop t i := by
  induction t with
  | nil => simp [Tab.ins, Tab.drop]
  | cons e t ih =>
    obtain ⟨k, v⟩ := e
    by_cases hl : i < k
    · rw [Tab.ins, if_pos hl, Tab.drop, if_pos rfl]
    · rw [Tab.ins, if_neg hl]
      by_cases hk : k = i
      · rw [Tab.drop, if_pos hk, Tab.drop, if_pos hk, ih]
      · rw [Tab.drop, if_neg hk, Tab.drop, if_neg hk, ih]

/-! ### Writes -/

variable [DecidableEq α]

/-- A read after a write gives the value written at the key, and what was there before elsewhere. -/
theorem get_put (d : α) (t : Tab α) (i j : Nat) (x : α) :
    Tab.get d (Tab.put d t i x) j = if j = i then x else Tab.get d t j := by
  unfold Tab.put
  by_cases hx : x = d
  · by_cases h : j = i
    · subst h; simp [hx, get_drop_same]
    · simp [hx, h, get_drop_other d t h]
  · by_cases h : j = i
    · subst h; simp [hx, get_ins_same]
    · simp [hx, h, get_ins_other d _ x h, get_drop_other d t h]

@[simp] theorem get_put_same (d : α) (t : Tab α) (i : Nat) (x : α) : Tab.get d (Tab.put d t i x) i = x := by
  simp [get_put]

/-- A changed key reads as the change of what it held. -/
theorem get_upd (d : α) (t : Tab α) (i j : Nat) (f : α → α) :
    Tab.get d (Tab.upd d t i f) j = if j = i then f (Tab.get d t i) else Tab.get d t j := by
  simp [Tab.upd, get_put]

@[simp] theorem get_upd_same (d : α) (t : Tab α) (i : Nat) (f : α → α) :
    Tab.get d (Tab.upd d t i f) i = f (Tab.get d t i) := by
  simp [get_upd]

/-- The last of two writes to one key counts. -/
theorem put_put (d : α) (t : Tab α) (i : Nat) (x y : α) : Tab.put d (Tab.put d t i x) i y = Tab.put d t i y := by
  have h : Tab.drop (Tab.put d t i x) i = Tab.drop t i := by
    unfold Tab.put
    split
    · exact drop_drop t i
    · rw [drop_ins, drop_drop]
  show (if y = d then _ else _) = (if y = d then _ else _)
  rw [h]

/-- Two changes of one key are one. -/
theorem upd_upd (d : α) (t : Tab α) (i : Nat) (f g : α → α) :
    Tab.upd d (Tab.upd d t i f) i g = Tab.upd d t i (fun x => g (f x)) := by
  unfold Tab.upd
  rw [put_put, get_put_same]

/-- Every write keeps the canonical form. -/
theorem wf_put (d : α) (t : Tab α) (i : Nat) (x : α) (w : Tab.wf d t = true) : Tab.wf d (Tab.put d t i x) = true := by
  simp only [Tab.wf, Bool.and_eq_true] at w
  unfold Tab.put
  by_cases hx : x = d
  · simp only [hx, if_true, Tab.wf, Bool.and_eq_true]
    exact ⟨rising_drop t i 0 w.1, all_drop t i _ w.2⟩
  · simp only [hx, if_false, Tab.wf, Bool.and_eq_true]
    exact ⟨rising_ins _ i 0 x (Nat.zero_le _) (drop_key_ne t i) (rising_drop t i 0 w.1),
      all_ins _ i x _ (all_drop t i _ w.2) (by simp [hx])⟩

theorem wf_upd (d : α) (t : Tab α) (i : Nat) (f : α → α) (w : Tab.wf d t = true) : Tab.wf d (Tab.upd d t i f) = true :=
  wf_put d t i _ w

end Sys2Proof.Laws
end

