-- ==== Sys2Proof/Laws/Settle.lean ====
section
/-! SUPPORT. What `settle` can do: it changes the latches and causes of the Lids, the elements, the field domains of the
Ladle, the pins, fault records and their events, and the service state of the Lids, and nothing else. -/

namespace Sys2Proof.Laws

open Sys2Proof Sys2Proof.Machine

/-- `t` is `s` but for what the fabric changes after a command. -/
def Fabric (s t : State) : Prop :=
  t = { s with
    lid := { t.lid with maskA := s.lid.maskA, maskB := s.lid.maskB, im := s.lid.im }
    outs := t.outs
    ladle := { s.ladle with vf := t.ladle.vf }
    sys := { s.sys with safeOk := t.sys.safeOk, faultn := t.sys.faultn, evt := t.sys.evt }
    recs := t.recs
    recSeq := t.recSeq
    hif := { s.hif with evt := t.hif.evt, pend := t.hif.pend }
    port := t.port
    units := t.units
    setNow := t.setNow }

theorem Fabric.refl (s : State) : Fabric s s := rfl

theorem Fabric.trans {s t u : State} (h : Fabric s t) (k : Fabric t u) : Fabric s u := by
  unfold Fabric at *
  rw [k, h]

theorem fabric_when {s : State} {c : Bool} {f : State → State} (h : Fabric s (f s)) : Fabric s (s.when c f) := by
  unfold State.when; cases c
  · exact Fabric.refl s
  · exact h

theorem fabric_foldl {β : Type} (l : List β) (f : State → β → State) (h : ∀ s b, Fabric s (f s b)) :
    ∀ s, Fabric s (l.foldl f s) := by
  induction l with
  | nil => exact Fabric.refl
  | cons b l ih => intro s; exact (h s b).trans (ih (f s b))

theorem fabric_each (n : Nat) (f : State → Nat → State) (h : ∀ s b, Fabric s (f s b)) (s : State) :
    Fabric s (s.each n f) := fabric_foldl _ f h s

theorem fabric_mark (s : State) (reg i : Nat) : Fabric s (s.mark reg i) := rfl

theorem fabric_raise (s : State) (v : Nat) : Fabric s (s.raise v) := by
  unfold State.raise; split <;> rfl

theorem fabric_hifEvt (s : State) (i : Nat) : Fabric s (s.hifEvt i) := by
  unfold State.hifEvt
  extract_lets was src s1
  refine Fabric.trans (t := s1) rfl (fabric_when ?_)
  exact fabric_raise _ 0

theorem fabric_record (s : State) (a : RecArg) : Fabric s (s.record a) := by
  unfold State.record
  extract_lets site r
  exact Fabric.trans (t := { s with recs := (r :: s.recs).take 4096, recSeq := s.recSeq + 1 }) rfl (fabric_hifEvt _ 0)

theorem fabric_takeOut (s : State) (site code : Nat) : Fabric s (s.takeOut site code) := rfl

theorem fabric_lidEvt (s : State) (i : Nat) : Fabric s (s.lidEvt i) := rfl

theorem fabric_noteTrip (s : State) (o : Nat) (a d : Bool) : Fabric s (s.noteTrip o a d) := by
  unfold State.noteTrip
  extract_lets m c again t c' src s1
  have h1 : Fabric s s1 := rfl
  exact h1.trans ((fabric_mark _ _ _).trans (fabric_lidEvt _ _))

theorem fabric_lidFaulty (s : State) (x : AB) : Fabric s (s.lidFaulty x) := by
  unfold State.lidFaulty
  extract_lets left s1 lid src s2
  have h1 : Fabric s s1 := by
    show Fabric s (if _ then _ else _)
    split
    · exact Fabric.refl _
    · exact fabric_each _ _ (fun s o => fabric_when (fabric_noteTrip _ _ _ _)) _
  have h2 : Fabric s1 s2 := by cases x <;> rfl
  exact (h1.trans h2).trans (fabric_record _ _)

theorem fabric_disagree (s : State) (o : Nat) : Fabric s (s.disagree o) := by
  unfold State.disagree
  extract_lets w c recent lid src s1 s2 s3
  have h1 : Fabric s s1 := rfl
  have h2 : Fabric s1 s2 := fabric_when (fabric_noteTrip _ _ _ _)
  have h3 : Fabric s2 s3 := fabric_record _ _
  exact ((h1.trans h2).trans h3).trans
    (fabric_when ((fabric_lidFaulty _ .a).trans (fabric_lidFaulty _ .b)))

theorem fabric_lidTick (s : State) : Fabric s s.lidTick := by
  unfold State.lidTick
  extract_lets permA permB hitA hitB l one armA relA armB relB leftA leftB s1 s2 dis
  have h1 : Fabric s s1 := rfl
  have h2 : Fabric s1 s2 := by
    show Fabric s1 (if _ then _ else _)
    split
    · exact Fabric.refl _
    · exact fabric_each _ _ (fun s o => fabric_when (fabric_noteTrip _ _ _ _)) _
  refine (h1.trans h2).trans ?_
  split
  · exact Fabric.refl _
  · exact fabric_each _ _ (fun s o => fabric_when (fabric_disagree _ _)) _

theorem fabric_setBucket (s : State) (d : Nat) (b : Bucket) (h : d ≠ 0) : Fabric s (s.setBucket d b) := by
  unfold State.setBucket; rw [if_neg h]; rfl

theorem fabric_ladleOff (s : State) (o : Nat) (x : AB) (w : Element) : Fabric s (s.ladleOff o x w) := by
  unfold State.ladleOff
  extract_lets site d s1
  have h1 : Fabric s s1 := fabric_when (fabric_setBucket _ _ _ (by omega))
  exact h1.trans (fabric_when (fabric_setBucket _ _ _ (by omega)))

theorem fabric_obeyAll (s : State) : Fabric s s.obeyAll := by
  unfold State.obeyAll
  extract_lets s1
  refine Fabric.trans (t := s1) rfl (fabric_foldl _ _ (fun t e => ?_) _)
  extract_lets t1
  have h1 : Fabric t t1 := fabric_when (fabric_ladleOff _ _ _ _)
  exact h1.trans (fabric_when (fabric_ladleOff _ _ _ _))

theorem fabric_sysEvt (s : State) (i : Nat) : Fabric s (s.sysEvt i) := rfl

theorem fabric_pins (s : State) : Fabric s s.pins := by
  unfold State.pins
  extract_lets ok f src t t1
  have h0 : Fabric s t := rfl
  have h1 : Fabric t t1 := fabric_when (fabric_sysEvt _ _)
  exact (h0.trans h1).trans (fabric_when (fabric_sysEvt _ _))

/-- Everything `settle` can do. -/
theorem fabric_settle (s : State) : Fabric s s.settle := by
  unfold State.settle
  split
  · exact ((fabric_lidTick s).trans (fabric_obeyAll _)).trans (fabric_pins _)
  · exact (fabric_obeyAll s).trans (fabric_pins _)

@[simp] theorem settle_pending (s : State) : s.settle.pending = s.pending := by rw [fabric_settle s]
@[simp] theorem settle_fresh (s : State) : s.settle.fresh = s.fresh := by rw [fabric_settle s]
@[simp] theorem settle_rd (s : State) : s.settle.rd = s.rd := by rw [fabric_settle s]
@[simp] theorem settle_pwr (s : State) : s.settle.pwr = s.pwr := by rw [fabric_settle s]
@[simp] theorem settle_clk (s : State) : s.settle.clk = s.clk := by rw [fabric_settle s]
@[simp] theorem settle_tb (s : State) : s.settle.tb = s.tb := by rw [fabric_settle s]
@[simp] theorem settle_chans (s : State) : s.settle.chans = s.chans := by rw [fabric_settle s]
@[simp] theorem settle_cfg (s : State) : s.settle.cfg = s.cfg := by rw [fabric_settle s]
@[simp] theorem settle_loaded (s : State) : s.settle.loaded = s.loaded := by rw [fabric_settle s]
@[simp] theorem settle_cfgSeq (s : State) : s.settle.cfgSeq = s.cfgSeq := by rw [fabric_settle s]
@[simp] theorem settle_ins (s : State) : s.settle.ins = s.ins := by rw [fabric_settle s]
@[simp] theorem settle_pairs (s : State) : s.settle.pairs = s.pairs := by rw [fabric_settle s]
@[simp] theorem settle_encs (s : State) : s.settle.encs = s.encs := by rw [fabric_settle s]
@[simp] theorem settle_wets (s : State) : s.settle.wets = s.wets := by rw [fabric_settle s]
@[simp] theorem settle_tps (s : State) : s.settle.tps = s.tps := by rw [fabric_settle s]
@[simp] theorem settle_halves (s : State) : s.settle.halves = s.halves := by rw [fabric_settle s]
@[simp] theorem settle_banks (s : State) : s.settle.banks = s.banks := by rw [fabric_settle s]
@[simp] theorem settle_perm (s : State) : s.settle.perm = s.perm := by rw [fabric_settle s]
@[simp] theorem settle_engs (s : State) : s.settle.engs = s.engs := by rw [fabric_settle s]
@[simp] theorem settle_mems (s : State) : s.settle.mems = s.mems := by rw [fabric_settle s]
@[simp] theorem settle_epairs (s : State) : s.settle.epairs = s.epairs := by rw [fabric_settle s]
@[simp] theorem settle_regions (s : State) : s.settle.regions = s.regions := by rw [fabric_settle s]
@[simp] theorem settle_cells (s : State) : s.settle.cells = s.cells := by rw [fabric_settle s]
@[simp] theorem settle_ho (s : State) : s.settle.ho = s.ho := by rw [fabric_settle s]
@[simp] theorem settle_groups (s : State) : s.settle.groups = s.groups := by rw [fabric_settle s]
@[simp] theorem settle_axes (s : State) : s.settle.axes = s.axes := by rw [fabric_settle s]
@[simp] theorem settle_avail (s : State) : s.settle.avail = s.avail := by rw [fabric_settle s]
@[simp] theorem settle_net (s : State) : s.settle.net = s.net := by rw [fabric_settle s]
@[simp] theorem settle_flk (s : State) : s.settle.flk = s.flk := by rw [fabric_settle s]
@[simp] theorem settle_store (s : State) : s.settle.store = s.store := by rw [fabric_settle s]
@[simp] theorem settle_bist (s : State) : s.settle.bist = s.bist := by rw [fabric_settle s]
@[simp] theorem settle_cvus (s : State) : s.settle.cvus = s.cvus := by rw [fabric_settle s]
@[simp] theorem settle_regs (s : State) : s.settle.regs = s.regs := by rw [fabric_settle s]
@[simp] theorem settle_sys_refreshA (s : State) : s.settle.sys.refreshA = s.sys.refreshA := by rw [fabric_settle s]
@[simp] theorem settle_sys_refreshB (s : State) : s.settle.sys.refreshB = s.sys.refreshB := by rw [fabric_settle s]
@[simp] theorem settle_sys_lock (s : State) : s.settle.sys.lock = s.sys.lock := by rw [fabric_settle s]
@[simp] theorem settle_sys_scratch (s : State) : s.settle.sys.scratch = s.sys.scratch := by rw [fabric_settle s]
@[simp] theorem settle_sys_done (s : State) : s.settle.sys.done = s.sys.done := by rw [fabric_settle s]
@[simp] theorem settle_sys_failStep (s : State) : s.settle.sys.failStep = s.sys.failStep := by rw [fabric_settle s]
@[simp] theorem settle_sys_noBank (s : State) : s.settle.sys.noBank = s.sys.noBank := by rw [fabric_settle s]
@[simp] theorem settle_sys_unlocked (s : State) : s.settle.sys.unlocked = s.sys.unlocked := by rw [fabric_settle s]
@[simp] theorem settle_sys_boot (s : State) : s.settle.sys.boot = s.sys.boot := by rw [fabric_settle s]
@[simp] theorem settle_sys_coreLost (s : State) : s.settle.sys.coreLost = s.sys.coreLost := by rw [fabric_settle s]
@[simp] theorem settle_hif_qps (s : State) : s.settle.hif.qps = s.hif.qps := by rw [fabric_settle s]
@[simp] theorem settle_hif_tHsil (s : State) : s.settle.hif.tHsil = s.hif.tHsil := by rw [fabric_settle s]
@[simp] theorem settle_hif_silent (s : State) : s.settle.hif.silent = s.hif.silent := by rw [fabric_settle s]
@[simp] theorem settle_hif_evtEn (s : State) : s.settle.hif.evtEn = s.hif.evtEn := by rw [fabric_settle s]
@[simp] theorem settle_hif_qpSel (s : State) : s.settle.hif.qpSel = s.hif.qpSel := by rw [fabric_settle s]
@[simp] theorem settle_hif_linkUp (s : State) : s.settle.hif.linkUp = s.hif.linkUp := by rw [fabric_settle s]
@[simp] theorem settle_hif_d3 (s : State) : s.settle.hif.d3 = s.hif.d3 := by rw [fabric_settle s]
@[simp] theorem settle_hif_perstn (s : State) : s.settle.hif.perstn = s.hif.perstn := by rw [fabric_settle s]
@[simp] theorem settle_hif_silAt (s : State) : s.settle.hif.silAt = s.hif.silAt := by rw [fabric_settle s]
@[simp] theorem settle_hif_lastW (s : State) : s.settle.hif.lastW = s.hif.lastW := by rw [fabric_settle s]
@[simp] theorem settle_hif_silTo (s : State) : s.settle.hif.silTo = s.hif.silTo := by rw [fabric_settle s]
@[simp] theorem settle_hif_mask (s : State) : s.settle.hif.mask = s.hif.mask := by rw [fabric_settle s]
@[simp] theorem settle_hif_msix (s : State) : s.settle.hif.msix = s.hif.msix := by rw [fabric_settle s]
@[simp] theorem settle_hif_wakeV (s : State) : s.settle.hif.wakeV = s.hif.wakeV := by rw [fabric_settle s]
@[simp] theorem settle_hif_snap (s : State) : s.settle.hif.snap = s.hif.snap := by rw [fabric_settle s]
@[simp] theorem settle_hif_turn (s : State) : s.settle.hif.turn = s.hif.turn := by rw [fabric_settle s]
@[simp] theorem settle_hif_rx (s : State) : s.settle.hif.rx = s.hif.rx := by rw [fabric_settle s]
@[simp] theorem settle_hif_late (s : State) : s.settle.hif.late = s.hif.late := by rw [fabric_settle s]
@[simp] theorem settle_ladle_vsys (s : State) : s.settle.ladle.vsys = s.ladle.vsys := by rw [fabric_settle s]
@[simp] theorem settle_ladle_evt (s : State) : s.settle.ladle.evt = s.ladle.evt := by rw [fabric_settle s]
@[simp] theorem settle_ladle_overN (s : State) : s.settle.ladle.overN = s.ladle.overN := by rw [fabric_settle s]
@[simp] theorem settle_ladle_tpc (s : State) : s.settle.ladle.tpc = s.ladle.tpc := by rw [fabric_settle s]
@[simp] theorem settle_ladle_oc (s : State) : s.settle.ladle.oc = s.ladle.oc := by rw [fabric_settle s]
@[simp] theorem settle_lid_maskA (s : State) : s.settle.lid.maskA = s.lid.maskA := by rw [fabric_settle s]
@[simp] theorem settle_lid_maskB (s : State) : s.settle.lid.maskB = s.lid.maskB := by rw [fabric_settle s]
@[simp] theorem settle_lid_im (s : State) : s.settle.lid.im = s.lid.im := by rw [fabric_settle s]

/-! ### What never goes back -/

/-- No unit comes back into service and no Lid becomes sound. -/
def Grows (s t : State) : Prop :=
  (∀ site, s.isOut site = true → t.isOut site = true) ∧ (s.lid.faultA = true → t.lid.faultA = true) ∧
    (s.lid.faultB = true → t.lid.faultB = true)

theorem Grows.refl (s : State) : Grows s s := ⟨fun _ h => h, id, id⟩

theorem Grows.trans {s t u : State} (h : Grows s t) (k : Grows t u) : Grows s u :=
  ⟨fun x q => k.1 x (h.1 x q), fun q => k.2.1 (h.2.1 q), fun q => k.2.2 (h.2.2 q)⟩

theorem Grows.same {s t : State} (hu : t.units = s.units) (hl : t.lid.faultA = s.lid.faultA ∧ t.lid.faultB = s.lid.faultB) :
    Grows s t := by
  refine ⟨fun site h => ?_, fun h => by rw [hl.1, h], fun h => by rw [hl.2, h]⟩
  simpa [State.isOut, State.unit, hu] using h

theorem grows_when {s : State} {c : Bool} {f : State → State} (h : Grows s (f s)) : Grows s (s.when c f) := by
  unfold State.when; cases c
  · exact Grows.refl s
  · exact h

theorem grows_foldl {β : Type} (l : List β) (f : State → β → State) (h : ∀ s b, Grows s (f s b)) :
    ∀ s, Grows s (l.foldl f s) := by
  induction l with
  | nil => exact Grows.refl
  | cons b l ih => intro s; exact (h s b).trans (ih (f s b))

theorem grows_each (n : Nat) (f : State → Nat → State) (h : ∀ s b, Grows s (f s b)) (s : State) : Grows s (s.each n f) :=
  grows_foldl _ f h s

theorem grows_record (s : State) (a : RecArg) : Grows s (s.record a) := by
  have hr : ∀ (u : State) (v : Nat), (u.raise v).units = u.units ∧ (u.raise v).lid = u.lid := by
    intro u v; unfold State.raise; split <;> exact ⟨rfl, rfl⟩
  have he : ∀ (u : State) (v : Nat), (u.hifEvt v).units = u.units ∧ (u.hifEvt v).lid = u.lid := by
    intro u v; unfold State.hifEvt State.when; extract_lets; split
    · exact hr _ _
    · exact ⟨rfl, rfl⟩
  unfold State.record
  extract_lets site r
  have := he { s with recs := (r :: s.recs).take 4096, recSeq := s.recSeq + 1 } 0
  exact Grows.same this.1 (by rw [this.2]; exact ⟨rfl, rfl⟩)

theorem grows_takeOut (s : State) (site code : Nat) : Grows s (s.takeOut site code) := by
  refine ⟨fun x h => ?_, id, id⟩
  simp only [State.isOut, State.unit, State.takeOut, State.updUnit, get_upd] at h ⊢
  split
  · rfl
  · exact h

theorem grows_noteTrip (s : State) (o : Nat) (a d : Bool) : Grows s (s.noteTrip o a d) := by
  unfold State.noteTrip
  extract_lets
  exact Grows.same rfl ⟨rfl, rfl⟩

theorem grows_whenTrip (s : State) (o : Nat) (c a d : Bool) : Grows s (s.when c (fun s => s.noteTrip o a d)) := by
  unfold State.when; cases c
  · exact Grows.refl s
  · exact grows_noteTrip s o a d

theorem grows_setLid (s : State) (l : LidS) (ha : s.lid.faultA = true → l.faultA = true)
    (hb : s.lid.faultB = true → l.faultB = true) : Grows s { s with lid := l } := ⟨fun _ h => h, ha, hb⟩

theorem grows_lidFaulty (s : State) (x : AB) : Grows s (s.lidFaulty x) := by
  unfold State.lidFaulty
  extract_lets left s1 lid src s2
  have h1 : Grows s s1 := by
    show Grows s (if _ then _ else _)
    split
    · exact Grows.refl _
    · exact grows_each _ _ (fun s o => by exact grows_whenTrip _ _ _ _ _) _
  refine h1.trans (Grows.trans (t := s2) ?_ (grows_record _ _))
  cases x with
  | a =>
    have h0 := grows_setLid s1 { s1.lid with faultA := true, armA := 0, relA := 0 } (fun _ => rfl) (fun h => h)
    exact h0.trans (grows_takeOut _ _ _)
  | b =>
    have h0 := grows_setLid s1 { s1.lid with faultB := true, armB := 0, relB := 0 } (fun h => h) (fun _ => rfl)
    exact h0.trans (grows_takeOut _ _ _)

theorem grows_disagree (s : State) (o : Nat) : Grows s (s.disagree o) := by
  unfold State.disagree
  extract_lets w c recent lid src s1 s2 s3
  have h1 : Grows s s1 := Grows.same rfl ⟨rfl, rfl⟩
  have h2 : Grows s1 s2 := grows_when (grows_noteTrip _ _ _ _)
  have h3 : Grows s2 s3 := grows_record _ _
  exact ((h1.trans h2).trans h3).trans (grows_when ((grows_lidFaulty _ .a).trans (grows_lidFaulty _ .b)))

theorem grows_whenDisagree (s : State) (o : Nat) (c : Bool) : Grows s (s.when c (fun s => s.disagree o)) := by
  unfold State.when; cases c
  · exact Grows.refl s
  · exact grows_disagree s o

theorem grows_lidTick (s : State) : Grows s s.lidTick := by
  unfold State.lidTick
  extract_lets permA permB hitA hitB l one armA relA armB relB leftA leftB s1 s2 dis
  have h1 : Grows s s1 := Grows.same rfl ⟨rfl, rfl⟩
  have h2 : Grows s1 s2 := by
    show Grows s1 (if _ then _ else _)
    split
    · exact Grows.refl _
    · exact grows_each _ _ (fun s o => by exact grows_whenTrip _ _ _ _ _) _
  refine (h1.trans h2).trans ?_
  split
  · exact Grows.refl _
  · exact grows_each _ _ (fun s o => by exact grows_whenDisagree _ _ _) _

theorem grows_ladleOff (s : State) (o : Nat) (x : AB) (w : Element) : Grows s (s.ladleOff o x w) := by
  have hb : ∀ (u : State) (d : Nat) (b : Bucket), Grows u (u.setBucket d b) := by
    intro u d b; unfold State.setBucket; split <;> exact Grows.same rfl ⟨rfl, rfl⟩
  unfold State.ladleOff
  extract_lets site d s1
  exact (grows_when (hb _ _ _)).trans (grows_when (hb _ _ _))

theorem grows_obeyAll (s : State) : Grows s s.obeyAll := by
  unfold State.obeyAll
  extract_lets s1
  refine Grows.trans (t := s1) (Grows.same rfl ⟨rfl, rfl⟩) (grows_foldl _ _ (fun t e => ?_) _)
  extract_lets t1
  exact (grows_when (grows_ladleOff _ _ _ _)).trans (grows_when (grows_ladleOff _ _ _ _))

theorem grows_pins (s : State) : Grows s s.pins := by
  have he : ∀ (u : State) (i : Nat), Grows u (u.sysEvt i) := fun u i => Grows.same rfl ⟨rfl, rfl⟩
  unfold State.pins
  extract_lets ok f src t t1
  have h0 : Grows s t := Grows.same rfl ⟨rfl, rfl⟩
  have h1 : Grows t t1 := grows_when (he _ _)
  exact (h0.trans h1).trans (grows_when (he _ _))

/-- `settle` puts no unit back into service and makes no Lid sound. -/
theorem grows_settle (s : State) : Grows s s.settle := by
  unfold State.settle
  split
  · exact ((grows_lidTick s).trans (grows_obeyAll _)).trans (grows_pins _)
  · exact (grows_obeyAll s).trans (grows_pins _)

end Sys2Proof.Laws
end

