-- ==== Sys2Proof/Laws/Issue.lean ====
section
/-! SUPPORT. What `issue` comes to on an engine that is ready: the effect of the instruction alone. -/

namespace Sys2Proof.Laws

open Sys2Proof Sys2Proof.Machine Sys2Proof.Safety

@[simp] theorem eng_updEng_same (s : State) (e : Nat) (f : Engine → Engine) : (s.updEng e f).eng e = f (s.eng e) := by
  simp [State.eng, State.updEng]

theorem eng_updEng (s : State) (e k : Nat) (f : Engine → Engine) :
    (s.updEng e f).eng k = if k = e then f (s.eng e) else s.eng k := by
  simp [State.eng, State.updEng, get_upd]

/-- Two changes of one engine are one. -/
theorem updEng_updEng (s : State) (e : Nat) (f g : Engine → Engine) :
    (s.updEng e f).updEng e g = s.updEng e (fun x => g (f x)) := by
  simp [State.updEng, upd_upd]

/-- A change of an engine is what it makes of that engine. -/
theorem updEng_congr (s : State) (e : Nat) (f g : Engine → Engine) (h : f (s.eng e) = g (s.eng e)) :
    s.updEng e f = s.updEng e g := by
  simp only [State.updEng, Tab.upd]
  rw [show f (Tab.get {} s.engs e) = g (Tab.get {} s.engs e) from h]

/-- A word without an error reads as memory holds it, and the read changes nothing (R210, R213). -/
theorem readWord_clean (s : State) (cl w : Nat) (tag : Byte) (h : cleanWord s cl w tag = true) :
    s.readWord cl w tag = (some ((s.clu cl).word (4 * w)), s) := by
  simp only [cleanWord, Bool.and_eq_true, decide_eq_true_eq] at h
  have h8 : ones (0#8) = 0 := by decide
  have h16 : ones (0#16) = 0 := by decide
  unfold State.readWord
  extract_lets m d flips
  have hd : d = 0 := by
    show ones (m.wroteTag w ^^^ tag) + ones (m.wroteAt w ^^^ BitVec.ofNat 16 w) = 0
    rw [show m.wroteTag w = tag from h.1.1, show m.wroteAt w = BitVec.ofNat 16 w from h.1.2]
    simp only [BitVec.xor_self, h8, h16]
  rw [if_pos ⟨h.2, hd⟩]

/-- A clean fetch brings the word into the buffer, and what follows is the instruction's own (R263). -/
theorem runOne_fetched (s : State) (e : Nat) (i : Ins) (hf : cleanFetch s e = true) :
    s.runOne e none i =
      (if (s.eng e).illegal i then (s.updEng e (fun x => x.fetched (fetchWord s e))).ranFault e 3 0 false (some { word := fetchWord s e })
      else (s.updEng e (fun x => x.fetched (fetchWord s e))).runAct e none { word := fetchWord s e }
        (i.act (fetchedEng s e))) := by
  unfold cleanFetch at hf
  rw [Bool.and_eq_true, decide_eq_true_eq] at hf
  obtain ⟨h4, hf⟩ := hf
  have hw : ∀ p, s.admitFetch e (s.eng e) (s.eng e).pc.toNat = .ok p → fetchWord s e =
      (match p with | .mem _ => (s.clu (e / 4)).word (4 * ((s.eng e).pc.toNat / 4)) | _ => Config.romWord ((s.eng e).pc.toNat / 4)) := by
    intro p hp; unfold fetchWord; rw [hp]; cases p <;> rfl
  unfold State.runOne fetchedEng
  extract_lets x
  cases h : s.admitFetch e (s.eng e) (s.eng e).pc.toNat with
  | error c => simp [h] at hf
  | ok place =>
    simp only [h] at hf
    have hw := hw _ h
    cases place with
    | mem tag =>
      simp only [x, readWord_clean s _ _ tag hf, hw]
      simp [h4]
    | rom => simp only [x, hw]; simp [h4]
    | image => simp only [x, hw]; simp [h4]
    | clock => simp only [x, hw]; simp [h4]
    | window => simp only [x, hw]; simp [h4]

/-- A clean fetch of a legal instruction comes to the instruction's own effect. -/
theorem runOne_clean (s : State) (e : Nat) (i : Ins) (hf : cleanFetch s e = true) (hi : (s.eng e).illegal i = false) :
    s.runOne e none i = (s.updEng e (fun x => x.fetched (fetchWord s e))).runAct e none { word := fetchWord s e }
      (i.act (fetchedEng s e)) := by
  rw [runOne_fetched s e i hf, if_neg (by simp [hi])]

/-- A single engine that is ready can issue, and nothing comes first. -/
theorem issue_ready (s : State) (e : Nat) (i : Ins) (k : State → State) (half : State → Bool → State) (h : SingleReady s e) :
    s.issue e i k half =
      match (s.runOne e none i).trap with
      | none => (k (s.runOne e none i).s).overflow e
      | some t => (s.runOne e none i).s.consequence e t (s.running e) := by
  obtain ⟨hc, hr, hs, hse, hd, ⟨hw, hn, hb⟩, -, -⟩ := h
  have hci : s.canIssue e = true := by simp [State.canIssue, hr, hs, hse, hd, hc]
  have h1 : ¬(s.eng e).role = .halted := by simp [hr]
  have h2 : ¬(s.eng e).role = .leader := by simp [hr]
  unfold State.issue
  rw [if_neg (by simp [hci]), if_neg h1, if_neg (by simp [hw]), if_neg (by simp [hn]), if_neg (by simp [hb])]
  simp only [if_neg h2]
  all_goals (cases (s.runOne e none i).trap <;> rfl)

/-- A single engine that is ready issues a legal instruction. -/
theorem issue_single (s : State) (e : Nat) (i : Ins) (k : State → State) (half : State → Bool → State)
    (h : SingleReady s e) (hi : (s.eng e).illegal i = false) :
    s.issue e i k half =
      (let r := (s.updEng e (fun x => x.fetched (fetchWord s e))).runAct e none { word := fetchWord s e } (i.act (fetchedEng s e))
       match r.trap with
       | none => (k r.s).overflow e
       | some t => r.s.consequence e t (s.running e)) := by
  rw [issue_ready s e i k half h, runOne_clean s e i h.2.2.2.2.2.2.2 hi]

/-- A single engine that is ready takes an illegal instruction as cause 3 (R249, R255, R263). -/
theorem issue_single_illegal (s : State) (e : Nat) (i : Ins) (k : State → State) (half : State → Bool → State)
    (h : SingleReady s e) (hi : (s.eng e).illegal i = true) :
    s.issue e i k half = faulted s e 3 0 := by
  rw [issue_ready s e i k half h, runOne_fetched s e i h.2.2.2.2.2.2.2, if_pos (by simp [hi])]
  simp only [State.ranFault, faulted, eng_updEng_same, updEng_updEng, fetchedEng]

/-- What R255 bars is illegal in a delay slot. -/
theorem illegal_slot (x : Engine) (i : Ins) (d : DSlot) (hb : i.barred = true) (hd : x.ds = some d) : x.illegal i = true := by
  simp [Engine.illegal, hb, hd]

@[simp] theorem fold_epc (x : Engine) (k : Nat) (v : Word) : (x.fold k v).epc = x.epc := by
  unfold Engine.fold; split <;> rfl
@[simp] theorem fold_pc (x : Engine) (k : Nat) (v : Word) : (x.fold k v).pc = x.pc := by
  unfold Engine.fold; split <;> rfl

@[simp] theorem shadow_role (x : Engine) (m : BitVec 2) : (x.shadow m).role = x.role := by
  unfold Engine.shadow; split <;> rfl
@[simp] theorem shadow_nreq (x : Engine) (m : BitVec 2) : (x.shadow m).nreq = x.nreq := by
  unfold Engine.shadow; split <;> rfl
@[simp] theorem shadow_qbad (x : Engine) (m : BitVec 2) : (x.shadow m).qbad = x.qbad := by
  unfold Engine.shadow; split <;> rfl
@[simp] theorem sequence_role (x : Engine) (p : Word) : (x.sequence p).role = x.role := by
  unfold Engine.sequence; repeat' split
  all_goals rfl
@[simp] theorem sequence_nreq (x : Engine) (p : Word) : (x.sequence p).nreq = x.nreq := by
  unfold Engine.sequence; repeat' split
  all_goals rfl
@[simp] theorem sequence_qbad (x : Engine) (p : Word) : (x.sequence p).qbad = x.qbad := by
  unfold Engine.sequence; repeat' split
  all_goals rfl
@[simp] theorem endLoops_role (x : Engine) (a b : Word) : (x.endLoops a b).role = x.role := rfl
@[simp] theorem endLoops_nreq (x : Engine) (a b : Word) : (x.endLoops a b).nreq = x.nreq := rfl
@[simp] theorem endLoops_qbad (x : Engine) (a b : Word) : (x.endLoops a b).qbad = x.qbad := rfl

@[simp] theorem retire_role (x o : Engine) : (x.retire o).role = x.role := by
  unfold Engine.retire
  cases o.ds with
  | none => simp
  | some d =>
    rcases d with ⟨br, tg, en, mp⟩
    cases tg with
    | none => simp
    | some t => cases en <;> simp [Engine.endLoops]
@[simp] theorem retire_nreq (x o : Engine) : (x.retire o).nreq = x.nreq := by
  unfold Engine.retire
  cases o.ds with
  | none => simp
  | some d =>
    rcases d with ⟨br, tg, en, mp⟩
    cases tg with
    | none => simp
    | some t => cases en <;> simp [Engine.endLoops]
@[simp] theorem retire_qbad (x o : Engine) : (x.retire o).qbad = x.qbad := by
  unfold Engine.retire
  cases o.ds with
  | none => simp
  | some d =>
    rcases d with ⟨br, tg, en, mp⟩
    cases tg with
    | none => simp
    | some t => cases en <;> simp [Engine.endLoops]

/-- A single engine with at most 256 requests keeps its interval. -/
theorem overflow_single (s : State) (e : Nat) (hr : (s.eng e).role = .single) (hn : (s.eng e).nreq ≤ 256) :
    s.overflow e = s := by
  unfold State.overflow
  extract_lets x
  have h2 : decide ((s.eng e).nreq > 256) = false := by simp; omega
  simp [x, hr, h2]

@[simp] theorem fetched_role (x : Engine) (w : Word) : (x.fetched w).role = x.role := rfl
@[simp] theorem fetched_nreq (x : Engine) (w : Word) : (x.fetched w).nreq = x.nreq := rfl
@[simp] theorem fetched_pc (x : Engine) (w : Word) : (x.fetched w).pc = x.pc := rfl
@[simp] theorem fetched_ds (x : Engine) (w : Word) : (x.fetched w).ds = x.ds := rfl

/-- An instruction of a single engine that only changes its registers. -/
theorem issue_single_step (s : State) (e : Nat) (i : Ins) (h : SingleReady s e) (hi : (s.eng e).illegal i = false)
    (y : Engine) (ha : i.act (fetchedEng s e) = .step y) (hr : y.role = .single) (hn : y.nreq ≤ 256) :
    s.issue e i = s.updEng e (fun _ => y.retire (fetchedEng s e)) := by
  rw [issue_single s e i id _ h hi, ha]
  show State.overflow _ e = _
  rw [overflow_single]
  · simp only [State.runAct, State.ranOk, updEng_updEng, eng_updEng_same, fetchedEng]
    rfl
  · simp [State.runAct, State.ranOk, hr]
  · simp [State.runAct, State.ranOk, hn]

end Sys2Proof.Laws
end

