-- ==== Sys2Proof/Laws/Memory.lean ====
section
/-! SUPPORT. Every operation on a cluster memory keeps its canonical form, and a byte write is read back. -/

namespace Sys2Proof.Laws

open Sys2Proof Sys2Proof.Machine

theorem wf_putBytes (m : Cluster) (a : Nat) (l : List Byte) (w : Memory.wf m.mem = true) :
    Memory.wf (m.putBytes a l).mem = true := by
  induction l generalizing m a with
  | nil => exact w
  | cons b l ih => exact ih { m with mem := Tab.put 0 m.mem a b } (a + 1) (wf_put 0 m.mem a b w)

theorem wf_putWord (m : Cluster) (a : Nat) (x : Word) (t : Option Byte) (w : Memory.wf m.mem = true) :
    Memory.wf (m.putWord a x t).mem = true := wf_putBytes m a (bytes4 x) w

theorem wf_putWords (m : Cluster) (a : Nat) (l : List Word) (w : Memory.wf m.mem = true) :
    Memory.wf (m.putWords a l).mem = true := by
  induction l generalizing m a with
  | nil => exact w
  | cons x l ih => exact ih (m.putWord a x none) (a + 4) (wf_putWord m a x none w)

/-- The bytes of a write lie where they were put, and every other byte is as before. -/
theorem byte_putBytes (m : Cluster) (a : Nat) (l : List Byte) (b : Nat) :
    (m.putBytes a l).byte b = if a ≤ b ∧ b < a + l.length then l.getD (b - a) 0 else m.byte b := by
  induction l generalizing m a with
  | nil =>
    rw [if_neg (by simp)]
    rfl
  | cons x l ih =>
    rw [Cluster.putBytes, ih]
    by_cases h : b = a
    · subst h
      rw [if_neg (by omega), if_pos (by simp)]
      simp [Cluster.byte]
    · by_cases k : a + 1 ≤ b ∧ b < a + 1 + l.length
      · rw [if_pos k, if_pos (by simp; omega)]
        have : b - a = (b - (a + 1)) + 1 := by omega
        rw [this]; simp
      · rw [if_neg k, if_neg (by simp; omega)]
        simp [Cluster.byte, get_put, h]

theorem byte_putWord (m : Cluster) (a : Nat) (x : Word) (t : Option Byte) (b : Nat) :
    (m.putWord a x t).byte b = if a ≤ b ∧ b < a + 4 then (bytes4 x).getD (b - a) 0 else m.byte b :=
  byte_putBytes m a (bytes4 x) b

end Sys2Proof.Laws
end

