-- ==== Sys2Proof/Laws/Settled.lean ====
section
/-! SUPPORT. Every meaning either leaves the state as it was or ends in `settle`. -/

namespace Sys2Proof.Laws

open Sys2Proof Sys2Proof.Machine

set_option linter.unusedTactic false
set_option linter.unreachableTactic false

/-- The outcome is the state itself or a settled one. -/
def Ends (s : State) (o : Host.Outcome State Fault Refusal) : Prop := o = .next s ∨ ∃ u, o = doneSettled u

theorem Ends.same (s : State) : Ends s (.next s) := .inl rfl

theorem Ends.settled (s u : State) : Ends s (doneSettled u) := .inr ⟨u, rfl⟩

theorem Ends.ite {s : State} {c : Prop} [Decidable c] {a b : Host.Outcome State Fault Refusal} (ha : Ends s a) (hb : Ends s b) :
    Ends s (if c then a else b) := by split <;> assumption

theorem execVsysStartThreshold_ends (s : State) : Ends s (execVsysStartThreshold s) := by
  unfold execVsysStartThreshold
  repeat' first | with_reducible exact Ends.settled _ _ | with_reducible exact Ends.same _ | with_reducible refine Ends.ite ?_ ?_ | split | extract_lets

theorem execStartUp_ends (obs : StartObs) (s : State) : Ends s (execStartUp obs s) := by
  unfold execStartUp
  repeat' first | with_reducible exact Ends.settled _ _ | with_reducible exact Ends.same _ | with_reducible refine Ends.ite ?_ ?_ | split | extract_lets

theorem execUnlockedLoad_ends (s : State) : Ends s (execUnlockedLoad s) := by
  unfold execUnlockedLoad
  repeat' first | with_reducible exact Ends.settled _ _ | with_reducible exact Ends.same _ | with_reducible refine Ends.ite ?_ ?_ | split | extract_lets

theorem execVsysHoldUpCrossing_ends (s : State) : Ends s (execVsysHoldUpCrossing s) := by
  unfold execVsysHoldUpCrossing
  repeat' first | with_reducible exact Ends.settled _ _ | with_reducible exact Ends.same _ | with_reducible refine Ends.ite ?_ ?_ | split | extract_lets

theorem execDipRideThrough_ends (s : State) : Ends s (execDipRideThrough s) := by
  unfold execDipRideThrough
  repeat' first | with_reducible exact Ends.settled _ _ | with_reducible exact Ends.same _ | with_reducible refine Ends.ite ?_ ?_ | split | extract_lets

theorem execPowerFailure_ends (s : State) : Ends s (execPowerFailure s) := by
  unfold execPowerFailure
  repeat' first | with_reducible exact Ends.settled _ _ | with_reducible exact Ends.same _ | with_reducible refine Ends.ite ?_ ?_ | split | extract_lets

theorem execPowerFailReset_ends (s : State) : Ends s (execPowerFailReset s) := by
  unfold execPowerFailReset
  repeat' first | with_reducible exact Ends.settled _ _ | with_reducible exact Ends.same _ | with_reducible refine Ends.ite ?_ ?_ | split | extract_lets

theorem execOvervoltageEvent_ends (s : State) : Ends s (execOvervoltageEvent s) := by
  unfold execOvervoltageEvent
  repeat' first | with_reducible exact Ends.settled _ _ | with_reducible exact Ends.same _ | with_reducible refine Ends.ite ?_ ?_ | split | extract_lets

theorem execRailOutOfWindow_ends (r : Rail) (s : State) : Ends s (execRailOutOfWindow r s) := by
  unfold execRailOutOfWindow
  repeat' first | with_reducible exact Ends.settled _ _ | with_reducible exact Ends.same _ | with_reducible refine Ends.ite ?_ ?_ | split | extract_lets

theorem execCoreOvertemperature_ends (t : Byte) (s : State) : Ends s (execCoreOvertemperature t s) := by
  unfold execCoreOvertemperature
  repeat' first | with_reducible exact Ends.settled _ _ | with_reducible exact Ends.same _ | with_reducible refine Ends.ite ?_ ?_ | split | extract_lets

theorem execHoldNotCharged_ends (hold : BitVec 10) (s : State) : Ends s (execHoldNotCharged hold s) := by
  unfold execHoldNotCharged
  repeat' first | with_reducible exact Ends.settled _ _ | with_reducible exact Ends.same _ | with_reducible refine Ends.ite ?_ ?_ | split | extract_lets

theorem execRstnLow_ends (ns : Nat) (s : State) : Ends s (execRstnLow ns s) := by
  unfold execRstnLow
  repeat' first | with_reducible exact Ends.settled _ _ | with_reducible exact Ends.same _ | with_reducible refine Ends.ite ?_ ?_ | split | extract_lets

theorem execRstnRelease_ends (s : State) : Ends s (execRstnRelease s) := by
  unfold execRstnRelease
  repeat' first | with_reducible exact Ends.settled _ _ | with_reducible exact Ends.same _ | with_reducible refine Ends.ite ?_ ?_ | split | extract_lets

theorem execStbynLow_ends (s : State) : Ends s (execStbynLow s) := by
  unfold execStbynLow
  repeat' first | with_reducible exact Ends.settled _ _ | with_reducible exact Ends.same _ | with_reducible refine Ends.ite ?_ ?_ | split | extract_lets

theorem execStandbyRequest_ends (s : State) : Ends s (execStandbyRequest s) := by
  unfold execStandbyRequest
  repeat' first | with_reducible exact Ends.settled _ _ | with_reducible exact Ends.same _ | with_reducible refine Ends.ite ?_ ?_ | split | extract_lets

theorem execWakeByStbyn_ends (s : State) : Ends s (execWakeByStbyn s) := by
  unfold execWakeByStbyn
  repeat' first | with_reducible exact Ends.settled _ _ | with_reducible exact Ends.same _ | with_reducible refine Ends.ite ?_ ?_ | split | extract_lets

theorem execWakeByWake_ends (s : State) : Ends s (execWakeByWake s) := by
  unfold execWakeByWake
  repeat' first | with_reducible exact Ends.settled _ _ | with_reducible exact Ends.same _ | with_reducible refine Ends.ite ?_ ?_ | split | extract_lets

theorem execPePerstnLow_ends (s : State) : Ends s (execPePerstnLow s) := by
  unfold execPePerstnLow
  repeat' first | with_reducible exact Ends.settled _ _ | with_reducible exact Ends.same _ | with_reducible refine Ends.ite ?_ ?_ | split | extract_lets

theorem execFunctionLevelReset_ends (s : State) : Ends s (execFunctionLevelReset s) := by
  unfold execFunctionLevelReset
  repeat' first | with_reducible exact Ends.settled _ _ | with_reducible exact Ends.same _ | with_reducible refine Ends.ite ?_ ?_ | split | extract_lets

theorem execHotReset_ends (s : State) : Ends s (execHotReset s) := by
  unfold execHotReset
  repeat' first | with_reducible exact Ends.settled _ _ | with_reducible exact Ends.same _ | with_reducible refine Ends.ite ?_ ?_ | split | extract_lets

theorem execDlDown_ends (s : State) : Ends s (execDlDown s) := by
  unfold execDlDown
  repeat' first | with_reducible exact Ends.settled _ _ | with_reducible exact Ends.same _ | with_reducible refine Ends.ite ?_ ?_ | split | extract_lets

theorem execD3hotTransition_ends (enter : Bool) (s : State) : Ends s (execD3hotTransition enter s) := by
  unfold execD3hotTransition
  repeat' first | with_reducible exact Ends.settled _ _ | with_reducible exact Ends.same _ | with_reducible refine Ends.ite ?_ ?_ | split | extract_lets

theorem execPllLockLoss_ends (s : State) : Ends s (execPllLockLoss s) := by
  unfold execPllLockLoss
  repeat' first | with_reducible exact Ends.settled _ _ | with_reducible exact Ends.same _ | with_reducible refine Ends.ite ?_ ?_ | split | extract_lets

theorem execRefclkCheck_ends (ppm : Int) (s : State) : Ends s (execRefclkCheck ppm s) := by
  unfold execRefclkCheck
  repeat' first | with_reducible exact Ends.settled _ _ | with_reducible exact Ends.same _ | with_reducible refine Ends.ite ?_ ?_ | split | extract_lets

theorem execLfOscillatorChange_ends (runs : Bool) (s : State) : Ends s (execLfOscillatorChange runs s) := by
  unfold execLfOscillatorChange
  repeat' first | with_reducible exact Ends.settled _ _ | with_reducible exact Ends.same _ | with_reducible refine Ends.ite ?_ ?_ | split | extract_lets

theorem execSafeOkRefreshLoss_ends (s : State) : Ends s (execSafeOkRefreshLoss s) := by
  unfold execSafeOkRefreshLoss
  repeat' first | with_reducible exact Ends.settled _ _ | with_reducible exact Ends.same _ | with_reducible refine Ends.ite ?_ ?_ | split | extract_lets

theorem execTbLoRead_ends (p : Party) (what : TbRead) (s : State) : Ends s (execTbLoRead p what s) := by
  unfold execTbLoRead
  repeat' first | with_reducible exact Ends.settled _ _ | with_reducible exact Ends.same _ | with_reducible refine Ends.ite ?_ ?_ | split | extract_lets

theorem execCapLoRead_ends (e : Fin 8) (r : CapReader) (s : State) : Ends s (execCapLoRead e r s) := by
  unfold execCapLoRead
  repeat' first | with_reducible exact Ends.settled _ _ | with_reducible exact Ends.same _ | with_reducible refine Ends.ite ?_ ?_ | split | extract_lets

theorem execStatLoRead_ends (s : State) : Ends s (execStatLoRead s) := by
  unfold execStatLoRead
  repeat' first | with_reducible exact Ends.settled _ _ | with_reducible exact Ends.same _ | with_reducible refine Ends.ite ?_ ?_ | split | extract_lets

theorem execClkIncLoRead_ends (s : State) : Ends s (execClkIncLoRead s) := by
  unfold execClkIncLoRead
  repeat' first | with_reducible exact Ends.settled _ _ | with_reducible exact Ends.same _ | with_reducible refine Ends.ite ?_ ?_ | split | extract_lets

theorem execTcmpLoWrite_ends (n : Fin 256) (v : Word) (s : State) : Ends s (execTcmpLoWrite n v s) := by
  unfold execTcmpLoWrite
  repeat' first | with_reducible exact Ends.settled _ _ | with_reducible exact Ends.same _ | with_reducible refine Ends.ite ?_ ?_ | split | extract_lets

theorem execTcmpHiWrite_ends (n : Fin 256) (v : Word) (s : State) : Ends s (execTcmpHiWrite n v s) := by
  unfold execTcmpHiWrite
  repeat' first | with_reducible exact Ends.settled _ _ | with_reducible exact Ends.same _ | with_reducible refine Ends.ite ?_ ?_ | split | extract_lets

theorem execTcmpActWrite_ends (n : Fin 32) (v : Word) (s : State) : Ends s (execTcmpActWrite n v s) := by
  unfold execTcmpActWrite
  repeat' first | with_reducible exact Ends.settled _ _ | with_reducible exact Ends.same _ | with_reducible refine Ends.ite ?_ ?_ | split | extract_lets

theorem execTcmpFlagOnly_ends (n : Fin 256) (s : State) : Ends s (execTcmpFlagOnly n s) := by
  unfold execTcmpFlagOnly
  repeat' first | with_reducible exact Ends.settled _ _ | with_reducible exact Ends.same _ | with_reducible refine Ends.ite ?_ ?_ | split | extract_lets

theorem execTcmpSetStandardOutput_ends (n : Fin 256) (s : State) : Ends s (execTcmpSetStandardOutput n s) := by
  unfold execTcmpSetStandardOutput
  repeat' first | with_reducible exact Ends.settled _ _ | with_reducible exact Ends.same _ | with_reducible refine Ends.ite ?_ ?_ | split | extract_lets

theorem execTcmpHostSnapshot_ends (n : Fin 256) (s : State) : Ends s (execTcmpHostSnapshot n s) := by
  unfold execTcmpHostSnapshot
  repeat' first | with_reducible exact Ends.settled _ _ | with_reducible exact Ends.same _ | with_reducible refine Ends.ite ?_ ?_ | split | extract_lets

theorem execTcmpCellSnapshot_ends (n : Fin 256) (s : State) : Ends s (execTcmpCellSnapshot n s) := by
  unfold execTcmpCellSnapshot
  repeat' first | with_reducible exact Ends.settled _ _ | with_reducible exact Ends.same _ | with_reducible refine Ends.ite ?_ ?_ | split | extract_lets

theorem execTcmpPermitRelease_ends (n : Fin 256) (s : State) : Ends s (execTcmpPermitRelease n s) := by
  unfold execTcmpPermitRelease
  repeat' first | with_reducible exact Ends.settled _ _ | with_reducible exact Ends.same _ | with_reducible refine Ends.ite ?_ ?_ | split | extract_lets

theorem execTcmpTestPulseScheduleStart_ends (n : Fin 256) (s : State) : Ends s (execTcmpTestPulseScheduleStart n s) := by
  unfold execTcmpTestPulseScheduleStart
  repeat' first | with_reducible exact Ends.settled _ _ | with_reducible exact Ends.same _ | with_reducible refine Ends.ite ?_ ?_ | split | extract_lets

theorem execTcmpCellExchange_ends (n : Fin 256) (s : State) : Ends s (execTcmpCellExchange n s) := by
  unfold execTcmpCellExchange
  repeat' first | with_reducible exact Ends.settled _ _ | with_reducible exact Ends.same _ | with_reducible refine Ends.ite ?_ ?_ | split | extract_lets

theorem execTcmpSs1Launch_ends (n : Fin 256) (s : State) : Ends s (execTcmpSs1Launch n s) := by
  unfold execTcmpSs1Launch
  repeat' first | with_reducible exact Ends.settled _ _ | with_reducible exact Ends.same _ | with_reducible refine Ends.ite ?_ ?_ | split | extract_lets

theorem execTcmpHandover_ends (n : Fin 256) (s : State) : Ends s (execTcmpHandover n s) := by
  unfold execTcmpHandover
  repeat' first | with_reducible exact Ends.settled _ _ | with_reducible exact Ends.same _ | with_reducible refine Ends.ite ?_ ?_ | split | extract_lets

theorem execEtFire_ends (e : Fin 64) (i : Fin 4) (s : State) : Ends s (execEtFire e i s) := by
  unfold execEtFire
  repeat' first | with_reducible exact Ends.settled _ _ | with_reducible exact Ends.same _ | with_reducible refine Ends.ite ?_ ?_ | split | extract_lets

theorem execEtReload_ends (e : Fin 64) (i : Fin 4) (s : State) : Ends s (execEtReload e i s) := by
  unfold execEtReload
  repeat' first | with_reducible exact Ends.settled _ _ | with_reducible exact Ends.same _ | with_reducible refine Ends.ite ?_ ?_ | split | extract_lets

theorem execCycleBudgetOverrun_ends (e : Fin 64) (both : Bool) (s : State) : Ends s (execCycleBudgetOverrun e both s) := by
  unfold execCycleBudgetOverrun
  repeat' first | with_reducible exact Ends.settled _ _ | with_reducible exact Ends.same _ | with_reducible refine Ends.ite ?_ ?_ | split | extract_lets

theorem execEtValueWrite_ends (e : Fin 64) (i : Fin 4) (v : Word) (s : State) : Ends s (execEtValueWrite e i v s) := by
  unfold execEtValueWrite
  repeat' first | with_reducible exact Ends.settled _ _ | with_reducible exact Ends.same _ | with_reducible refine Ends.ite ?_ ?_ | split | extract_lets

theorem execEtModeWrite_ends (e : Fin 64) (v : Word) (s : State) : Ends s (execEtModeWrite e v s) := by
  unfold execEtModeWrite
  repeat' first | with_reducible exact Ends.settled _ _ | with_reducible exact Ends.same _ | with_reducible refine Ends.ite ?_ ?_ | split | extract_lets

theorem execEtWdWrite_ends (e : Fin 64) (v : Word) (s : State) : Ends s (execEtWdWrite e v s) := by
  unfold execEtWdWrite
  repeat' first | with_reducible exact Ends.settled _ _ | with_reducible exact Ends.same _ | with_reducible refine Ends.ite ?_ ?_ | split | extract_lets

theorem execPtpMessageReceive_ends (m : Fin 4) (msg : PtpMsg) (s : State) : Ends s (execPtpMessageReceive m msg s) := by
  unfold execPtpMessageReceive
  repeat' first | with_reducible exact Ends.settled _ _ | with_reducible exact Ends.same _ | with_reducible refine Ends.ite ?_ ?_ | split | extract_lets

theorem execLockTimeout_ends (s : State) : Ends s (execLockTimeout s) := by
  unfold execLockTimeout
  repeat' first | with_reducible exact Ends.settled _ _ | with_reducible exact Ends.same _ | with_reducible refine Ends.ite ?_ ?_ | split | extract_lets

theorem execLeapSecondMidnight_ends (s : State) : Ends s (execLeapSecondMidnight s) := by
  unfold execLeapSecondMidnight
  repeat' first | with_reducible exact Ends.settled _ _ | with_reducible exact Ends.same _ | with_reducible refine Ends.ite ?_ ?_ | split | extract_lets

theorem execInputEdge_ends (n : Fin 128) (level : Bool) (partner : Option Bool) (s : State) : Ends s (execInputEdge n level partner s) := by
  unfold execInputEdge
  repeat' first | with_reducible exact Ends.settled _ _ | with_reducible exact Ends.same _ | with_reducible refine Ends.ite ?_ ?_ | split | extract_lets

theorem execLidMaskCheck_ends (l : AB) (o : Fin 64) (s : State) : Ends s (execLidMaskCheck l o s) := by
  unfold execLidMaskCheck
  repeat' first | with_reducible exact Ends.settled _ _ | with_reducible exact Ends.same _ | with_reducible refine Ends.ite ?_ ?_ | split | extract_lets

theorem execInputLaneStatusWord_ends (n : Fin 128) (w : Word) (ok : Bool) (s : State) : Ends s (execInputLaneStatusWord n w ok s) := by
  unfold execInputLaneStatusWord
  repeat' first | with_reducible exact Ends.settled _ _ | with_reducible exact Ends.same _ | with_reducible refine Ends.ite ?_ ?_ | split | extract_lets

theorem execWettingEnd_ends (h : Fin 8) (sinkOk : Bool) (s : State) : Ends s (execWettingEnd h sinkOk s) := by
  unfold execWettingEnd
  repeat' first | with_reducible exact Ends.settled _ _ | with_reducible exact Ends.same _ | with_reducible refine Ends.ite ?_ ?_ | split | extract_lets

theorem execTpWindowStart_ends (n : Fin 128) (s : State) : Ends s (execTpWindowStart n s) := by
  unfold execTpWindowStart
  repeat' first | with_reducible exact Ends.settled _ _ | with_reducible exact Ends.same _ | with_reducible refine Ends.ite ?_ ?_ | split | extract_lets

theorem execTpWindowEnd_ends (n : Fin 128) (s : State) : Ends s (execTpWindowEnd n s) := by
  unfold execTpWindowEnd
  repeat' first | with_reducible exact Ends.settled _ _ | with_reducible exact Ends.same _ | with_reducible refine Ends.ite ?_ ?_ | split | extract_lets

theorem execForeignWindowEnd_ends (n : Fin 128) (k : Fin 8) (s : State) : Ends s (execForeignWindowEnd n k s) := by
  unfold execForeignWindowEnd
  repeat' first | with_reducible exact Ends.settled _ _ | with_reducible exact Ends.same _ | with_reducible refine Ends.ite ?_ ?_ | split | extract_lets

theorem execOssdHoldExpiry_ends (n : Fin 128) (s : State) : Ends s (execOssdHoldExpiry n s) := by
  unfold execOssdHoldExpiry
  repeat' first | with_reducible exact Ends.settled _ _ | with_reducible exact Ends.same _ | with_reducible refine Ends.ite ?_ ?_ | split | extract_lets

theorem execOssdNoTest_ends (n : Fin 128) (s : State) : Ends s (execOssdNoTest n s) := by
  unfold execOssdNoTest
  repeat' first | with_reducible exact Ends.settled _ _ | with_reducible exact Ends.same _ | with_reducible refine Ends.ite ?_ ?_ | split | extract_lets

theorem execFilterExpiry_ends (n : Fin 128) (s : State) : Ends s (execFilterExpiry n s) := by
  unfold execFilterExpiry
  repeat' first | with_reducible exact Ends.settled _ _ | with_reducible exact Ends.same _ | with_reducible refine Ends.ite ?_ ?_ | split | extract_lets

theorem execWireBreakMeasurement_ends (n : Fin 128) (below : Bool) (s : State) : Ends s (execWireBreakMeasurement n below s) := by
  unfold execWireBreakMeasurement
  repeat' first | with_reducible exact Ends.settled _ _ | with_reducible exact Ends.same _ | with_reducible refine Ends.ite ?_ ?_ | split | extract_lets

theorem execDiscTimerExpiry_ends (p : Fin 64) (s : State) : Ends s (execDiscTimerExpiry p s) := by
  unfold execDiscTimerExpiry
  repeat' first | with_reducible exact Ends.settled _ _ | with_reducible exact Ends.same _ | with_reducible refine Ends.ite ?_ ?_ | split | extract_lets

theorem execSinkProbe_ends (n : Fin 128) (sinkOk : Bool) (s : State) : Ends s (execSinkProbe n sinkOk s) := by
  unfold execSinkProbe
  repeat' first | with_reducible exact Ends.settled _ _ | with_reducible exact Ends.same _ | with_reducible refine Ends.ite ?_ ?_ | split | extract_lets

theorem execInputApplied_ends (p : Fin 64) (s : State) : Ends s (execInputApplied p s) := by
  unfold execInputApplied
  repeat' first | with_reducible exact Ends.settled _ _ | with_reducible exact Ends.same _ | with_reducible refine Ends.ite ?_ ?_ | split | extract_lets

theorem execEncoderEdge_ends (e : Fin 8) (a b : Bool) (s : State) : Ends s (execEncoderEdge e a b s) := by
  unfold execEncoderEdge
  repeat' first | with_reducible exact Ends.settled _ _ | with_reducible exact Ends.same _ | with_reducible refine Ends.ite ?_ ?_ | split | extract_lets

theorem execOutputTurnOff_ends (o : Fin 64) (s : State) : Ends s (execOutputTurnOff o s) := by
  unfold execOutputTurnOff
  repeat' first | with_reducible exact Ends.settled _ _ | with_reducible exact Ends.same _ | with_reducible refine Ends.ite ?_ ?_ | split | extract_lets

theorem execOutputTurnOn_ends (o : Fin 64) (s : State) : Ends s (execOutputTurnOn o s) := by
  unfold execOutputTurnOn
  repeat' first | with_reducible exact Ends.settled _ _ | with_reducible exact Ends.same _ | with_reducible refine Ends.ite ?_ ?_ | split | extract_lets

theorem execLadleGrant_ends (d : Fin 5) (s : State) : Ends s (execLadleGrant d s) := by
  unfold execLadleGrant
  repeat' first | with_reducible exact Ends.settled _ _ | with_reducible exact Ends.same _ | with_reducible refine Ends.ite ?_ ?_ | split | extract_lets

theorem execLadleOverdraw_ends (d : Fin 5) (s : State) : Ends s (execLadleOverdraw d s) := by
  unfold execLadleOverdraw
  repeat' first | with_reducible exact Ends.settled _ _ | with_reducible exact Ends.same _ | with_reducible refine Ends.ite ?_ ?_ | split | extract_lets

theorem execLadleReturn_ends (d : Fin 5) (site : Half) (s : State) : Ends s (execLadleReturn d site s) := by
  unfold execLadleReturn
  repeat' first | with_reducible exact Ends.settled _ _ | with_reducible exact Ends.same _ | with_reducible refine Ends.ite ?_ ?_ | split | extract_lets

theorem execLadleRefill_ends (d : Fin 5) (s : State) : Ends s (execLadleRefill d s) := by
  unfold execLadleRefill
  repeat' first | with_reducible exact Ends.settled _ _ | with_reducible exact Ends.same _ | with_reducible refine Ends.ite ?_ ?_ | split | extract_lets

theorem execLadleAudit_ends (b : Fin 4) (repA repB flightA flightB backA backB : Half) (s : State) : Ends s (execLadleAudit b repA repB flightA flightB backA backB s) := by
  unfold execLadleAudit
  repeat' first | with_reducible exact Ends.settled _ _ | with_reducible exact Ends.same _ | with_reducible refine Ends.ite ?_ ?_ | split | extract_lets

theorem execLadleCfgWrite_ends (d : Fin 5) (v : Word) (s : State) : Ends s (execLadleCfgWrite d v s) := by
  unfold execLadleCfgWrite
  repeat' first | with_reducible exact Ends.settled _ _ | with_reducible exact Ends.same _ | with_reducible refine Ends.ite ?_ ?_ | split | extract_lets

theorem execCurrentLimitExpiry_ends (o : Fin 64) (s : State) : Ends s (execCurrentLimitExpiry o s) := by
  unfold execCurrentLimitExpiry
  repeat' first | with_reducible exact Ends.settled _ _ | with_reducible exact Ends.same _ | with_reducible refine Ends.ite ?_ ?_ | split | extract_lets

theorem execThermalShutdown_ends (j : Junction) (s : State) : Ends s (execThermalShutdown j s) := by
  unfold execThermalShutdown
  repeat' first | with_reducible exact Ends.settled _ _ | with_reducible exact Ends.same _ | with_reducible refine Ends.ite ?_ ?_ | split | extract_lets

theorem execBankCurrentAverage_ends (b : Fin 4) (h : AB) (r : BankReport) (s : State) : Ends s (execBankCurrentAverage b h r s) := by
  unfold execBankCurrentAverage
  repeat' first | with_reducible exact Ends.settled _ _ | with_reducible exact Ends.same _ | with_reducible refine Ends.ite ?_ ?_ | split | extract_lets

theorem execElementOffPulse_ends (o : Fin 64) (x : AB) (s : State) : Ends s (execElementOffPulse o x s) := by
  unfold execElementOffPulse
  repeat' first | with_reducible exact Ends.settled _ _ | with_reducible exact Ends.same _ | with_reducible refine Ends.ite ?_ ?_ | split | extract_lets

theorem execPulseVerdict_ends (o : Fin 64) (r : PulseReadings) (fallen : BitVec 16) (s : State) : Ends s (execPulseVerdict o r fallen s) := by
  unfold execPulseVerdict
  repeat' first | with_reducible exact Ends.settled _ _ | with_reducible exact Ends.same _ | with_reducible refine Ends.ite ?_ ?_ | split | extract_lets

theorem execOffCheck_ends (o : Fin 64) (ra rb : Reading) (s : State) : Ends s (execOffCheck o ra rb s) := by
  unfold execOffCheck
  repeat' first | with_reducible exact Ends.settled _ _ | with_reducible exact Ends.same _ | with_reducible refine Ends.ite ?_ ?_ | split | extract_lets

theorem execDarkTestProbe_ends (o : Fin 64) (x : AB) (readings : Option (Reading × Reading)) (fallen : BitVec 16) (s : State) : Ends s (execDarkTestProbe o x readings fallen s) := by
  unfold execDarkTestProbe
  repeat' first | with_reducible exact Ends.settled _ _ | with_reducible exact Ends.same _ | with_reducible refine Ends.ite ?_ ?_ | split | extract_lets

theorem execContinuousOutputCheck_ends (o : Fin 64) (h : AB) (r : Reading) (limiting : Bool) (s : State) : Ends s (execContinuousOutputCheck o h r limiting s) := by
  unfold execContinuousOutputCheck
  repeat' first | with_reducible exact Ends.settled _ _ | with_reducible exact Ends.same _ | with_reducible refine Ends.ite ?_ ?_ | split | extract_lets

theorem execControlLaneReport_ends (o : Fin 64) (h : AB) (verdict : Byte) (raw : List Byte) (s : State) : Ends s (execControlLaneReport o h verdict raw s) := by
  unfold execControlLaneReport
  repeat' first | with_reducible exact Ends.settled _ _ | with_reducible exact Ends.same _ | with_reducible refine Ends.ite ?_ ?_ | split | extract_lets

theorem execOutputLaneStatusWord_ends (o : Fin 64) (x : AB) (w : Word) (ok : Bool) (s : State) : Ends s (execOutputLaneStatusWord o x w ok s) := by
  unfold execOutputLaneStatusWord
  repeat' first | with_reducible exact Ends.settled _ _ | with_reducible exact Ends.same _ | with_reducible refine Ends.ite ?_ ?_ | split | extract_lets

theorem execStdMismatch_ends (r : BallReading) (s : State) : Ends s (execStdMismatch r s) := by
  unfold execStdMismatch
  repeat' first | with_reducible exact Ends.settled _ _ | with_reducible exact Ends.same _ | with_reducible refine Ends.ite ?_ ?_ | split | extract_lets

theorem execOutputCodeClear_ends (o : Fin 64) (s : State) : Ends s (execOutputCodeClear o s) := by
  unfold execOutputCodeClear
  repeat' first | with_reducible exact Ends.settled _ _ | with_reducible exact Ends.same _ | with_reducible refine Ends.ite ?_ ?_ | split | extract_lets

theorem execHeartbeat_ends (b : Fin 4) (h : AB) (w : HbWord) (ok : Bool) (s : State) : Ends s (execHeartbeat b h w ok s) := by
  unfold execHeartbeat
  repeat' first | with_reducible exact Ends.settled _ _ | with_reducible exact Ends.same _ | with_reducible refine Ends.ite ?_ ?_ | split | extract_lets

theorem execSilExpired_ends (b : Fin 4) (h : AB) (s : State) : Ends s (execSilExpired b h s) := by
  unfold execSilExpired
  repeat' first | with_reducible exact Ends.settled _ _ | with_reducible exact Ends.same _ | with_reducible refine Ends.ite ?_ ?_ | split | extract_lets

theorem execVfLow_ends (b : Fin 4) (h : AB) (s : State) : Ends s (execVfLow b h s) := by
  unfold execVfLow
  repeat' first | with_reducible exact Ends.settled _ _ | with_reducible exact Ends.same _ | with_reducible refine Ends.ite ?_ ?_ | split | extract_lets

theorem execVfHigh_ends (b : Fin 4) (h : AB) (s : State) : Ends s (execVfHigh b h s) := by
  unfold execVfHigh
  repeat' first | with_reducible exact Ends.settled _ _ | with_reducible exact Ends.same _ | with_reducible refine Ends.ite ?_ ?_ | split | extract_lets

theorem execVfDip_ends (b : Fin 4) (h : AB) (s : State) : Ends s (execVfDip b h s) := by
  unfold execVfDip
  repeat' first | with_reducible exact Ends.settled _ _ | with_reducible exact Ends.same _ | with_reducible refine Ends.ite ?_ ?_ | split | extract_lets

theorem execVfRecovery_ends (r : BankUp) (s : State) : Ends s (execVfRecovery r s) := by
  unfold execVfRecovery
  repeat' first | with_reducible exact Ends.settled _ _ | with_reducible exact Ends.same _ | with_reducible refine Ends.ite ?_ ?_ | split | extract_lets

theorem execHalfBrownOut_ends (b : Fin 4) (h : AB) (s : State) : Ends s (execHalfBrownOut b h s) := by
  unfold execHalfBrownOut
  repeat' first | with_reducible exact Ends.settled _ _ | with_reducible exact Ends.same _ | with_reducible refine Ends.ite ?_ ?_ | split | extract_lets

theorem execTpSourceOffPulse_ends (t : Fin 32) (start : Bool) (s : State) : Ends s (execTpSourceOffPulse t start s) := by
  unfold execTpSourceOffPulse
  repeat' first | with_reducible exact Ends.settled _ _ | with_reducible exact Ends.same _ | with_reducible refine Ends.ite ?_ ?_ | split | extract_lets

theorem execTpSourceReadback_ends (t : Fin 32) (r : TpReading) (s : State) : Ends s (execTpSourceReadback t r s) := by
  unfold execTpSourceReadback
  repeat' first | with_reducible exact Ends.settled _ _ | with_reducible exact Ends.same _ | with_reducible refine Ends.ite ?_ ?_ | split | extract_lets

theorem execTpOverload_ends (t : Fin 32) (s : State) : Ends s (execTpOverload t s) := by
  unfold execTpOverload
  repeat' first | with_reducible exact Ends.settled _ _ | with_reducible exact Ends.same _ | with_reducible refine Ends.ite ?_ ?_ | split | extract_lets

theorem execTpSourceRetry_ends (t : Fin 32) (good : Bool) (s : State) : Ends s (execTpSourceRetry t good s) := by
  unfold execTpSourceRetry
  repeat' first | with_reducible exact Ends.settled _ _ | with_reducible exact Ends.same _ | with_reducible refine Ends.ite ?_ ?_ | split | extract_lets

theorem execCellRelease_ends (c : Fin 1024) (s : State) : Ends s (execCellRelease c s) := by
  unfold execCellRelease
  repeat' first | with_reducible exact Ends.settled _ _ | with_reducible exact Ends.same _ | with_reducible refine Ends.ite ?_ ?_ | split | extract_lets

theorem execPermitRenewalExpiry_ends (slot : Fin 256) (second : Bool) (s : State) : Ends s (execPermitRenewalExpiry slot second s) := by
  unfold execPermitRenewalExpiry
  repeat' first | with_reducible exact Ends.settled _ _ | with_reducible exact Ends.same _ | with_reducible refine Ends.ite ?_ ?_ | split | extract_lets

theorem execDegr50_ends (c : Fin 1024) (s : State) : Ends s (execDegr50 c s) := by
  unfold execDegr50
  repeat' first | with_reducible exact Ends.settled _ _ | with_reducible exact Ends.same _ | with_reducible refine Ends.ite ?_ ?_ | split | extract_lets

theorem execDegr90_ends (c : Fin 1024) (s : State) : Ends s (execDegr90 c s) := by
  unfold execDegr90
  repeat' first | with_reducible exact Ends.settled _ _ | with_reducible exact Ends.same _ | with_reducible refine Ends.ite ?_ ?_ | split | extract_lets

theorem execDegrExpiry_ends (c : Fin 1024) (s : State) : Ends s (execDegrExpiry c s) := by
  unfold execDegrExpiry
  repeat' first | with_reducible exact Ends.settled _ _ | with_reducible exact Ends.same _ | with_reducible refine Ends.ite ?_ ?_ | split | extract_lets

theorem execAdd_ends (e : Fin 64) (rd rs rt : Fin 32) (s : State) : Ends s (execAdd e rd rs rt s) := by
  unfold execAdd
  repeat' first | with_reducible exact Ends.settled _ _ | with_reducible exact Ends.same _ | with_reducible refine Ends.ite ?_ ?_ | split | extract_lets

theorem execSub_ends (e : Fin 64) (rd rs rt : Fin 32) (s : State) : Ends s (execSub e rd rs rt s) := by
  unfold execSub
  repeat' first | with_reducible exact Ends.settled _ _ | with_reducible exact Ends.same _ | with_reducible refine Ends.ite ?_ ?_ | split | extract_lets

theorem execAnd_ends (e : Fin 64) (rd rs rt : Fin 32) (s : State) : Ends s (execAnd e rd rs rt s) := by
  unfold execAnd
  repeat' first | with_reducible exact Ends.settled _ _ | with_reducible exact Ends.same _ | with_reducible refine Ends.ite ?_ ?_ | split | extract_lets

theorem execOr_ends (e : Fin 64) (rd rs rt : Fin 32) (s : State) : Ends s (execOr e rd rs rt s) := by
  unfold execOr
  repeat' first | with_reducible exact Ends.settled _ _ | with_reducible exact Ends.same _ | with_reducible refine Ends.ite ?_ ?_ | split | extract_lets

theorem execXor_ends (e : Fin 64) (rd rs rt : Fin 32) (s : State) : Ends s (execXor e rd rs rt s) := by
  unfold execXor
  repeat' first | with_reducible exact Ends.settled _ _ | with_reducible exact Ends.same _ | with_reducible refine Ends.ite ?_ ?_ | split | extract_lets

theorem execNor_ends (e : Fin 64) (rd rs rt : Fin 32) (s : State) : Ends s (execNor e rd rs rt s) := by
  unfold execNor
  repeat' first | with_reducible exact Ends.settled _ _ | with_reducible exact Ends.same _ | with_reducible refine Ends.ite ?_ ?_ | split | extract_lets

theorem execSll_ends (e : Fin 64) (rd rs rt : Fin 32) (s : State) : Ends s (execSll e rd rs rt s) := by
  unfold execSll
  repeat' first | with_reducible exact Ends.settled _ _ | with_reducible exact Ends.same _ | with_reducible refine Ends.ite ?_ ?_ | split | extract_lets

theorem execSrl_ends (e : Fin 64) (rd rs rt : Fin 32) (s : State) : Ends s (execSrl e rd rs rt s) := by
  unfold execSrl
  repeat' first | with_reducible exact Ends.settled _ _ | with_reducible exact Ends.same _ | with_reducible refine Ends.ite ?_ ?_ | split | extract_lets

theorem execSra_ends (e : Fin 64) (rd rs rt : Fin 32) (s : State) : Ends s (execSra e rd rs rt s) := by
  unfold execSra
  repeat' first | with_reducible exact Ends.settled _ _ | with_reducible exact Ends.same _ | with_reducible refine Ends.ite ?_ ?_ | split | extract_lets

theorem execSlt_ends (e : Fin 64) (rd rs rt : Fin 32) (s : State) : Ends s (execSlt e rd rs rt s) := by
  unfold execSlt
  repeat' first | with_reducible exact Ends.settled _ _ | with_reducible exact Ends.same _ | with_reducible refine Ends.ite ?_ ?_ | split | extract_lets

theorem execSltu_ends (e : Fin 64) (rd rs rt : Fin 32) (s : State) : Ends s (execSltu e rd rs rt s) := by
  unfold execSltu
  repeat' first | with_reducible exact Ends.settled _ _ | with_reducible exact Ends.same _ | with_reducible refine Ends.ite ?_ ?_ | split | extract_lets

theorem execMul_ends (e : Fin 64) (rd rs rt : Fin 32) (s : State) : Ends s (execMul e rd rs rt s) := by
  unfold execMul
  repeat' first | with_reducible exact Ends.settled _ _ | with_reducible exact Ends.same _ | with_reducible refine Ends.ite ?_ ?_ | split | extract_lets

theorem execMulh_ends (e : Fin 64) (rd rs rt : Fin 32) (s : State) : Ends s (execMulh e rd rs rt s) := by
  unfold execMulh
  repeat' first | with_reducible exact Ends.settled _ _ | with_reducible exact Ends.same _ | with_reducible refine Ends.ite ?_ ?_ | split | extract_lets

theorem execMulhu_ends (e : Fin 64) (rd rs rt : Fin 32) (s : State) : Ends s (execMulhu e rd rs rt s) := by
  unfold execMulhu
  repeat' first | with_reducible exact Ends.settled _ _ | with_reducible exact Ends.same _ | with_reducible refine Ends.ite ?_ ?_ | split | extract_lets

theorem execDiv_ends (e : Fin 64) (rd rs rt : Fin 32) (s : State) : Ends s (execDiv e rd rs rt s) := by
  unfold execDiv
  repeat' first | with_reducible exact Ends.settled _ _ | with_reducible exact Ends.same _ | with_reducible refine Ends.ite ?_ ?_ | split | extract_lets

theorem execDivu_ends (e : Fin 64) (rd rs rt : Fin 32) (s : State) : Ends s (execDivu e rd rs rt s) := by
  unfold execDivu
  repeat' first | with_reducible exact Ends.settled _ _ | with_reducible exact Ends.same _ | with_reducible refine Ends.ite ?_ ?_ | split | extract_lets

theorem execRem_ends (e : Fin 64) (rd rs rt : Fin 32) (s : State) : Ends s (execRem e rd rs rt s) := by
  unfold execRem
  repeat' first | with_reducible exact Ends.settled _ _ | with_reducible exact Ends.same _ | with_reducible refine Ends.ite ?_ ?_ | split | extract_lets

theorem execRemu_ends (e : Fin 64) (rd rs rt : Fin 32) (s : State) : Ends s (execRemu e rd rs rt s) := by
  unfold execRemu
  repeat' first | with_reducible exact Ends.settled _ _ | with_reducible exact Ends.same _ | with_reducible refine Ends.ite ?_ ?_ | split | extract_lets

theorem execMin_ends (e : Fin 64) (rd rs rt : Fin 32) (s : State) : Ends s (execMin e rd rs rt s) := by
  unfold execMin
  repeat' first | with_reducible exact Ends.settled _ _ | with_reducible exact Ends.same _ | with_reducible refine Ends.ite ?_ ?_ | split | extract_lets

theorem execMax_ends (e : Fin 64) (rd rs rt : Fin 32) (s : State) : Ends s (execMax e rd rs rt s) := by
  unfold execMax
  repeat' first | with_reducible exact Ends.settled _ _ | with_reducible exact Ends.same _ | with_reducible refine Ends.ite ?_ ?_ | split | extract_lets

theorem execAddsat_ends (e : Fin 64) (rd rs rt : Fin 32) (s : State) : Ends s (execAddsat e rd rs rt s) := by
  unfold execAddsat
  repeat' first | with_reducible exact Ends.settled _ _ | with_reducible exact Ends.same _ | with_reducible refine Ends.ite ?_ ?_ | split | extract_lets

theorem execSubsat_ends (e : Fin 64) (rd rs rt : Fin 32) (s : State) : Ends s (execSubsat e rd rs rt s) := by
  unfold execSubsat
  repeat' first | with_reducible exact Ends.settled _ _ | with_reducible exact Ends.same _ | with_reducible refine Ends.ite ?_ ?_ | split | extract_lets

theorem execKand_ends (e : Fin 64) (rd rs rt : Fin 32) (s : State) : Ends s (execKand e rd rs rt s) := by
  unfold execKand
  repeat' first | with_reducible exact Ends.settled _ _ | with_reducible exact Ends.same _ | with_reducible refine Ends.ite ?_ ?_ | split | extract_lets

theorem execKor_ends (e : Fin 64) (rd rs rt : Fin 32) (s : State) : Ends s (execKor e rd rs rt s) := by
  unfold execKor
  repeat' first | with_reducible exact Ends.settled _ _ | with_reducible exact Ends.same _ | with_reducible refine Ends.ite ?_ ?_ | split | extract_lets

theorem execKxor_ends (e : Fin 64) (rd rs rt : Fin 32) (s : State) : Ends s (execKxor e rd rs rt s) := by
  unfold execKxor
  repeat' first | with_reducible exact Ends.settled _ _ | with_reducible exact Ends.same _ | with_reducible refine Ends.ite ?_ ?_ | split | extract_lets

theorem execKandn_ends (e : Fin 64) (rd rs rt : Fin 32) (s : State) : Ends s (execKandn e rd rs rt s) := by
  unfold execKandn
  repeat' first | with_reducible exact Ends.settled _ _ | with_reducible exact Ends.same _ | with_reducible refine Ends.ite ?_ ?_ | split | extract_lets

theorem execKorn_ends (e : Fin 64) (rd rs rt : Fin 32) (s : State) : Ends s (execKorn e rd rs rt s) := by
  unfold execKorn
  repeat' first | with_reducible exact Ends.settled _ _ | with_reducible exact Ends.same _ | with_reducible refine Ends.ite ?_ ?_ | split | extract_lets

theorem execKnot_ends (e : Fin 64) (rd rs : Fin 32) (s : State) : Ends s (execKnot e rd rs s) := by
  unfold execKnot
  repeat' first | with_reducible exact Ends.settled _ _ | with_reducible exact Ends.same _ | with_reducible refine Ends.ite ?_ ?_ | split | extract_lets

theorem execKmov_ends (e : Fin 64) (rd rs : Fin 32) (s : State) : Ends s (execKmov e rd rs s) := by
  unfold execKmov
  repeat' first | with_reducible exact Ends.settled _ _ | with_reducible exact Ends.same _ | with_reducible refine Ends.ite ?_ ?_ | split | extract_lets

theorem execKeq_ends (e : Fin 64) (rd rs rt : Fin 32) (s : State) : Ends s (execKeq e rd rs rt s) := by
  unfold execKeq
  repeat' first | with_reducible exact Ends.settled _ _ | with_reducible exact Ends.same _ | with_reducible refine Ends.ite ?_ ?_ | split | extract_lets

theorem execKne_ends (e : Fin 64) (rd rs rt : Fin 32) (s : State) : Ends s (execKne e rd rs rt s) := by
  unfold execKne
  repeat' first | with_reducible exact Ends.settled _ _ | with_reducible exact Ends.same _ | with_reducible refine Ends.ite ?_ ?_ | split | extract_lets

theorem execKlt_ends (e : Fin 64) (rd rs rt : Fin 32) (s : State) : Ends s (execKlt e rd rs rt s) := by
  unfold execKlt
  repeat' first | with_reducible exact Ends.settled _ _ | with_reducible exact Ends.same _ | with_reducible refine Ends.ite ?_ ?_ | split | extract_lets

theorem execKltu_ends (e : Fin 64) (rd rs rt : Fin 32) (s : State) : Ends s (execKltu e rd rs rt s) := by
  unfold execKltu
  repeat' first | with_reducible exact Ends.settled _ _ | with_reducible exact Ends.same _ | with_reducible refine Ends.ite ?_ ?_ | split | extract_lets

theorem execKge_ends (e : Fin 64) (rd rs rt : Fin 32) (s : State) : Ends s (execKge e rd rs rt s) := by
  unfold execKge
  repeat' first | with_reducible exact Ends.settled _ _ | with_reducible exact Ends.same _ | with_reducible refine Ends.ite ?_ ?_ | split | extract_lets

theorem execKgeu_ends (e : Fin 64) (rd rs rt : Fin 32) (s : State) : Ends s (execKgeu e rd rs rt s) := by
  unfold execKgeu
  repeat' first | with_reducible exact Ends.settled _ _ | with_reducible exact Ends.same _ | with_reducible refine Ends.ite ?_ ?_ | split | extract_lets

theorem execKbit_ends (e : Fin 64) (rd rs rt : Fin 32) (s : State) : Ends s (execKbit e rd rs rt s) := by
  unfold execKbit
  repeat' first | with_reducible exact Ends.settled _ _ | with_reducible exact Ends.same _ | with_reducible refine Ends.ite ?_ ?_ | split | extract_lets

theorem execGfk_ends (e : Fin 64) (rd rs : Fin 32) (s : State) : Ends s (execGfk e rd rs s) := by
  unfold execGfk
  repeat' first | with_reducible exact Ends.settled _ _ | with_reducible exact Ends.same _ | with_reducible refine Ends.ite ?_ ?_ | split | extract_lets

theorem execKfg_ends (e : Fin 64) (rd rs : Fin 32) (s : State) : Ends s (execKfg e rd rs s) := by
  unfold execKfg
  repeat' first | with_reducible exact Ends.settled _ _ | with_reducible exact Ends.same _ | with_reducible refine Ends.ite ?_ ?_ | split | extract_lets

theorem execSel_ends (e : Fin 64) (rd rs rt k : Fin 32) (s : State) : Ends s (execSel e rd rs rt k s) := by
  unfold execSel
  repeat' first | with_reducible exact Ends.settled _ _ | with_reducible exact Ends.same _ | with_reducible refine Ends.ite ?_ ?_ | split | extract_lets

theorem execAddI_ends (e : Fin 64) (rd rs : Fin 32) (imm : Half) (s : State) : Ends s (execAddI e rd rs imm s) := by
  unfold execAddI
  repeat' first | with_reducible exact Ends.settled _ _ | with_reducible exact Ends.same _ | with_reducible refine Ends.ite ?_ ?_ | split | extract_lets

theorem execAndI_ends (e : Fin 64) (rd rs : Fin 32) (imm : Half) (s : State) : Ends s (execAndI e rd rs imm s) := by
  unfold execAndI
  repeat' first | with_reducible exact Ends.settled _ _ | with_reducible exact Ends.same _ | with_reducible refine Ends.ite ?_ ?_ | split | extract_lets

theorem execOrI_ends (e : Fin 64) (rd rs : Fin 32) (imm : Half) (s : State) : Ends s (execOrI e rd rs imm s) := by
  unfold execOrI
  repeat' first | with_reducible exact Ends.settled _ _ | with_reducible exact Ends.same _ | with_reducible refine Ends.ite ?_ ?_ | split | extract_lets

theorem execXorI_ends (e : Fin 64) (rd rs : Fin 32) (imm : Half) (s : State) : Ends s (execXorI e rd rs imm s) := by
  unfold execXorI
  repeat' first | with_reducible exact Ends.settled _ _ | with_reducible exact Ends.same _ | with_reducible refine Ends.ite ?_ ?_ | split | extract_lets

theorem execSltI_ends (e : Fin 64) (rd rs : Fin 32) (imm : Half) (s : State) : Ends s (execSltI e rd rs imm s) := by
  unfold execSltI
  repeat' first | with_reducible exact Ends.settled _ _ | with_reducible exact Ends.same _ | with_reducible refine Ends.ite ?_ ?_ | split | extract_lets

theorem execSltuI_ends (e : Fin 64) (rd rs : Fin 32) (imm : Half) (s : State) : Ends s (execSltuI e rd rs imm s) := by
  unfold execSltuI
  repeat' first | with_reducible exact Ends.settled _ _ | with_reducible exact Ends.same _ | with_reducible refine Ends.ite ?_ ?_ | split | extract_lets

theorem execHi16_ends (e : Fin 64) (rd : Fin 32) (imm : Half) (s : State) : Ends s (execHi16 e rd imm s) := by
  unfold execHi16
  repeat' first | with_reducible exact Ends.settled _ _ | with_reducible exact Ends.same _ | with_reducible refine Ends.ite ?_ ?_ | split | extract_lets

theorem execShI_ends (e : Fin 64) (rd rs : Fin 32) (k : ShKind) (amount : BitVec 5) (s : State) : Ends s (execShI e rd rs k amount s) := by
  unfold execShI
  repeat' first | with_reducible exact Ends.settled _ _ | with_reducible exact Ends.same _ | with_reducible refine Ends.ite ?_ ?_ | split | extract_lets

theorem execLdw_ends (e : Fin 64) (rd rs : Fin 32) (imm : Half) (s : State) : Ends s (execLdw e rd rs imm s) := by
  unfold execLdw
  repeat' first | with_reducible exact Ends.settled _ _ | with_reducible exact Ends.same _ | with_reducible refine Ends.ite ?_ ?_ | split | extract_lets

theorem execLdh_ends (e : Fin 64) (rd rs : Fin 32) (imm : Half) (s : State) : Ends s (execLdh e rd rs imm s) := by
  unfold execLdh
  repeat' first | with_reducible exact Ends.settled _ _ | with_reducible exact Ends.same _ | with_reducible refine Ends.ite ?_ ?_ | split | extract_lets

theorem execLdhu_ends (e : Fin 64) (rd rs : Fin 32) (imm : Half) (s : State) : Ends s (execLdhu e rd rs imm s) := by
  unfold execLdhu
  repeat' first | with_reducible exact Ends.settled _ _ | with_reducible exact Ends.same _ | with_reducible refine Ends.ite ?_ ?_ | split | extract_lets

theorem execLdb_ends (e : Fin 64) (rd rs : Fin 32) (imm : Half) (s : State) : Ends s (execLdb e rd rs imm s) := by
  unfold execLdb
  repeat' first | with_reducible exact Ends.settled _ _ | with_reducible exact Ends.same _ | with_reducible refine Ends.ite ?_ ?_ | split | extract_lets

theorem execLdbu_ends (e : Fin 64) (rd rs : Fin 32) (imm : Half) (s : State) : Ends s (execLdbu e rd rs imm s) := by
  unfold execLdbu
  repeat' first | with_reducible exact Ends.settled _ _ | with_reducible exact Ends.same _ | with_reducible refine Ends.ite ?_ ?_ | split | extract_lets

theorem execStw_ends (e : Fin 64) (rd rs : Fin 32) (imm : Half) (s : State) : Ends s (execStw e rd rs imm s) := by
  unfold execStw
  repeat' first | with_reducible exact Ends.settled _ _ | with_reducible exact Ends.same _ | with_reducible refine Ends.ite ?_ ?_ | split | extract_lets

theorem execSth_ends (e : Fin 64) (rd rs : Fin 32) (imm : Half) (s : State) : Ends s (execSth e rd rs imm s) := by
  unfold execSth
  repeat' first | with_reducible exact Ends.settled _ _ | with_reducible exact Ends.same _ | with_reducible refine Ends.ite ?_ ?_ | split | extract_lets

theorem execStb_ends (e : Fin 64) (rd rs : Fin 32) (imm : Half) (s : State) : Ends s (execStb e rd rs imm s) := by
  unfold execStb
  repeat' first | with_reducible exact Ends.settled _ _ | with_reducible exact Ends.same _ | with_reducible refine Ends.ite ?_ ?_ | split | extract_lets

theorem execOrq_ends (e : Fin 64) (rd rs : Fin 32) (imm : Half) (s : State) : Ends s (execOrq e rd rs imm s) := by
  unfold execOrq
  repeat' first | with_reducible exact Ends.settled _ _ | with_reducible exact Ends.same _ | with_reducible refine Ends.ite ?_ ?_ | split | extract_lets

theorem execOrk_ends (e : Fin 64) (rd rs : Fin 32) (imm : Half) (s : State) : Ends s (execOrk e rd rs imm s) := by
  unfold execOrk
  repeat' first | with_reducible exact Ends.settled _ _ | with_reducible exact Ends.same _ | with_reducible refine Ends.ite ?_ ?_ | split | extract_lets

theorem execBeq_ends (e : Fin 64) (rs rt : Fin 32) (off : Half) (s : State) : Ends s (execBeq e rs rt off s) := by
  unfold execBeq
  repeat' first | with_reducible exact Ends.settled _ _ | with_reducible exact Ends.same _ | with_reducible refine Ends.ite ?_ ?_ | split | extract_lets

theorem execBne_ends (e : Fin 64) (rs rt : Fin 32) (off : Half) (s : State) : Ends s (execBne e rs rt off s) := by
  unfold execBne
  repeat' first | with_reducible exact Ends.settled _ _ | with_reducible exact Ends.same _ | with_reducible refine Ends.ite ?_ ?_ | split | extract_lets

theorem execBlt_ends (e : Fin 64) (rs rt : Fin 32) (off : Half) (s : State) : Ends s (execBlt e rs rt off s) := by
  unfold execBlt
  repeat' first | with_reducible exact Ends.settled _ _ | with_reducible exact Ends.same _ | with_reducible refine Ends.ite ?_ ?_ | split | extract_lets

theorem execBge_ends (e : Fin 64) (rs rt : Fin 32) (off : Half) (s : State) : Ends s (execBge e rs rt off s) := by
  unfold execBge
  repeat' first | with_reducible exact Ends.settled _ _ | with_reducible exact Ends.same _ | with_reducible refine Ends.ite ?_ ?_ | split | extract_lets

theorem execBltu_ends (e : Fin 64) (rs rt : Fin 32) (off : Half) (s : State) : Ends s (execBltu e rs rt off s) := by
  unfold execBltu
  repeat' first | with_reducible exact Ends.settled _ _ | with_reducible exact Ends.same _ | with_reducible refine Ends.ite ?_ ?_ | split | extract_lets

theorem execBgeu_ends (e : Fin 64) (rs rt : Fin 32) (off : Half) (s : State) : Ends s (execBgeu e rs rt off s) := by
  unfold execBgeu
  repeat' first | with_reducible exact Ends.settled _ _ | with_reducible exact Ends.same _ | with_reducible refine Ends.ite ?_ ?_ | split | extract_lets

theorem execBkt_ends (e : Fin 64) (rs : Fin 32) (off : Half) (s : State) : Ends s (execBkt e rs off s) := by
  unfold execBkt
  repeat' first | with_reducible exact Ends.settled _ _ | with_reducible exact Ends.same _ | with_reducible refine Ends.ite ?_ ?_ | split | extract_lets

theorem execBkf_ends (e : Fin 64) (rs : Fin 32) (off : Half) (s : State) : Ends s (execBkf e rs off s) := by
  unfold execBkf
  repeat' first | with_reducible exact Ends.settled _ _ | with_reducible exact Ends.same _ | with_reducible refine Ends.ite ?_ ?_ | split | extract_lets

theorem execJ_ends (e : Fin 64) (off : BitVec 26) (s : State) : Ends s (execJ e off s) := by
  unfold execJ
  repeat' first | with_reducible exact Ends.settled _ _ | with_reducible exact Ends.same _ | with_reducible refine Ends.ite ?_ ?_ | split | extract_lets

theorem execCall_ends (e : Fin 64) (off : BitVec 26) (s : State) : Ends s (execCall e off s) := by
  unfold execCall
  repeat' first | with_reducible exact Ends.settled _ _ | with_reducible exact Ends.same _ | with_reducible refine Ends.ite ?_ ?_ | split | extract_lets

theorem execJmpr_ends (e : Fin 64) (rd rs : Fin 32) (s : State) : Ends s (execJmpr e rd rs s) := by
  unfold execJmpr
  repeat' first | with_reducible exact Ends.settled _ _ | with_reducible exact Ends.same _ | with_reducible refine Ends.ite ?_ ?_ | split | extract_lets

theorem execLoop_ends (e : Fin 64) (imm : Bool) (rs : Fin 32) (cnt last : BitVec 10) (s : State) : Ends s (execLoop e imm rs cnt last s) := by
  unfold execLoop
  repeat' first | with_reducible exact Ends.settled _ _ | with_reducible exact Ends.same _ | with_reducible refine Ends.ite ?_ ?_ | split | extract_lets

theorem execWait_ends (e : Fin 64) (s : State) : Ends s (execWait e s) := by
  unfold execWait
  repeat' first | with_reducible exact Ends.settled _ _ | with_reducible exact Ends.same _ | with_reducible refine Ends.ite ?_ ?_ | split | extract_lets

theorem execBrk_ends (e : Fin 64) (s : State) : Ends s (execBrk e s) := by
  unfold execBrk
  repeat' first | with_reducible exact Ends.settled _ _ | with_reducible exact Ends.same _ | with_reducible refine Ends.ite ?_ ?_ | split | extract_lets

theorem execMode_ends (e : Fin 64) (cell : Bool) (s : State) : Ends s (execMode e cell s) := by
  unfold execMode
  repeat' first | with_reducible exact Ends.settled _ _ | with_reducible exact Ends.same _ | with_reducible refine Ends.ite ?_ ?_ | split | extract_lets

theorem execChkp_ends (e : Fin 64) (c : Checked) (s : State) : Ends s (execChkp e c s) := by
  unfold execChkp
  repeat' first | with_reducible exact Ends.settled _ _ | with_reducible exact Ends.same _ | with_reducible refine Ends.ite ?_ ?_ | split | extract_lets

theorem execChkpTest_ends (e : Fin 64) (ident : Half) (cmpX cmpY : Bool) (s : State) : Ends s (execChkpTest e ident cmpX cmpY s) := by
  unfold execChkpTest
  repeat' first | with_reducible exact Ends.settled _ _ | with_reducible exact Ends.same _ | with_reducible refine Ends.ite ?_ ?_ | split | extract_lets

theorem execSealTimeout_ends (k : Fin 32) (s : State) : Ends s (execSealTimeout k s) := by
  unfold execSealTimeout
  repeat' first | with_reducible exact Ends.settled _ _ | with_reducible exact Ends.same _ | with_reducible refine Ends.ite ?_ ?_ | split | extract_lets

theorem execMismatchSelfTestEnd_ends (k : Fin 32) (passEven passOdd : Bool) (s : State) : Ends s (execMismatchSelfTestEnd k passEven passOdd s) := by
  unfold execMismatchSelfTestEnd
  repeat' first | with_reducible exact Ends.settled _ _ | with_reducible exact Ends.same _ | with_reducible refine Ends.ite ?_ ?_ | split | extract_lets

theorem execEngineSelfTestPeriodic_ends (e : Fin 64) (pass : Bool) (s : State) : Ends s (execEngineSelfTestPeriodic e pass s) := by
  unfold execEngineSelfTestPeriodic
  repeat' first | with_reducible exact Ends.settled _ _ | with_reducible exact Ends.same _ | with_reducible refine Ends.ite ?_ ?_ | split | extract_lets

theorem execSadj_ends (e : Fin 64) (r : Fin 32) (s : State) : Ends s (execSadj e r s) := by
  unfold execSadj
  repeat' first | with_reducible exact Ends.settled _ _ | with_reducible exact Ends.same _ | with_reducible refine Ends.ite ?_ ?_ | split | extract_lets

theorem execRdh_ends (e : Fin 64) (r c : Fin 32) (s : State) : Ends s (execRdh e r c s) := by
  unfold execRdh
  repeat' first | with_reducible exact Ends.settled _ _ | with_reducible exact Ends.same _ | with_reducible refine Ends.ite ?_ ?_ | split | extract_lets

theorem execWrh_ends (e : Fin 64) (r c : Fin 32) (s : State) : Ends s (execWrh e r c s) := by
  unfold execWrh
  repeat' first | with_reducible exact Ends.settled _ _ | with_reducible exact Ends.same _ | with_reducible refine Ends.ite ?_ ?_ | split | extract_lets

theorem execSys_ends (e : Fin 64) (imm : Half) (s : State) : Ends s (execSys e imm s) := by
  unfold execSys
  repeat' first | with_reducible exact Ends.settled _ _ | with_reducible exact Ends.same _ | with_reducible refine Ends.ite ?_ ?_ | split | extract_lets

theorem execRth_ends (e : Fin 64) (s : State) : Ends s (execRth e s) := by
  unfold execRth
  repeat' first | with_reducible exact Ends.settled _ _ | with_reducible exact Ends.same _ | with_reducible refine Ends.ite ?_ ?_ | split | extract_lets

theorem execEventEntry_ends (e : Fin 64) (s : State) : Ends s (execEventEntry e s) := by
  unfold execEventEntry
  repeat' first | with_reducible exact Ends.settled _ _ | with_reducible exact Ends.same _ | with_reducible refine Ends.ite ?_ ?_ | split | extract_lets

theorem execScrubRead_ends (c : Fin 16) (w : Half) (upsets : List Upset) (s : State) : Ends s (execScrubRead c w upsets s) := by
  unfold execScrubRead
  repeat' first | with_reducible exact Ends.settled _ _ | with_reducible exact Ends.same _ | with_reducible refine Ends.ite ?_ ?_ | split | extract_lets

theorem execEngineDebugHalt_ends (e : Fin 64) (s : State) : Ends s (execEngineDebugHalt e s) := by
  unfold execEngineDebugHalt
  repeat' first | with_reducible exact Ends.settled _ _ | with_reducible exact Ends.same _ | with_reducible refine Ends.ite ?_ ?_ | split | extract_lets

theorem execDebugRelease_ends (e : Fin 64) (s : State) : Ends s (execDebugRelease e s) := by
  unfold execDebugRelease
  repeat' first | with_reducible exact Ends.settled _ _ | with_reducible exact Ends.same _ | with_reducible refine Ends.ite ?_ ?_ | split | extract_lets

theorem execModuleDebugHalt_ends (s : State) : Ends s (execModuleDebugHalt s) := by
  unfold execModuleDebugHalt
  repeat' first | with_reducible exact Ends.settled _ _ | with_reducible exact Ends.same _ | with_reducible refine Ends.ite ?_ ?_ | split | extract_lets

theorem execModuleDebugRelease_ends (s : State) : Ends s (execModuleDebugRelease s) := by
  unfold execModuleDebugRelease
  repeat' first | with_reducible exact Ends.settled _ _ | with_reducible exact Ends.same _ | with_reducible refine Ends.ite ?_ ?_ | split | extract_lets

theorem execTapReset_ends (s : State) : Ends s (execTapReset s) := by
  unfold execTapReset
  repeat' first | with_reducible exact Ends.settled _ _ | with_reducible exact Ends.same _ | with_reducible refine Ends.ite ?_ ?_ | split | extract_lets

theorem execBootHold_ends (s : State) : Ends s (execBootHold s) := by
  unfold execBootHold
  repeat' first | with_reducible exact Ends.settled _ _ | with_reducible exact Ends.same _ | with_reducible refine Ends.ite ?_ ?_ | split | extract_lets

theorem execScanEn_ends (readBackZero : Bool) (s : State) : Ends s (execScanEn readBackZero s) := by
  unfold execScanEn
  repeat' first | with_reducible exact Ends.settled _ _ | with_reducible exact Ends.same _ | with_reducible refine Ends.ite ?_ ?_ | split | extract_lets

theorem execExtest_ends (s : State) : Ends s (execExtest s) := by
  unfold execExtest
  repeat' first | with_reducible exact Ends.settled _ _ | with_reducible exact Ends.same _ | with_reducible refine Ends.ite ?_ ?_ | split | extract_lets

theorem execClamp_ends (s : State) : Ends s (execClamp s) := by
  unfold execClamp
  repeat' first | with_reducible exact Ends.settled _ _ | with_reducible exact Ends.same _ | with_reducible refine Ends.ite ?_ ?_ | split | extract_lets

theorem execSamplePreload_ends (s : State) : Ends s (execSamplePreload s) := by
  unfold execSamplePreload
  repeat' first | with_reducible exact Ends.settled _ _ | with_reducible exact Ends.same _ | with_reducible refine Ends.ite ?_ ?_ | split | extract_lets

theorem execBypass_ends (s : State) : Ends s (execBypass s) := by
  unfold execBypass
  repeat' first | with_reducible exact Ends.settled _ _ | with_reducible exact Ends.same _ | with_reducible refine Ends.ite ?_ ?_ | split | extract_lets

theorem execWilisDataTransmit_ends (c : Fin 1024) (s : State) : Ends s (execWilisDataTransmit c s) := by
  unfold execWilisDataTransmit
  repeat' first | with_reducible exact Ends.settled _ _ | with_reducible exact Ends.same _ | with_reducible refine Ends.ite ?_ ?_ | split | extract_lets

theorem execConnectTransmit_ends (c : Fin 1024) (s : State) : Ends s (execConnectTransmit c s) := by
  unfold execConnectTransmit
  repeat' first | with_reducible exact Ends.settled _ _ | with_reducible exact Ends.same _ | with_reducible refine Ends.ite ?_ ?_ | split | extract_lets

theorem execData_ends (m : Fin 4) (x : Encap) (f : List Byte) (s : State) : Ends s (execData m x f s) := by
  unfold execData
  repeat' first | with_reducible exact Ends.settled _ _ | with_reducible exact Ends.same _ | with_reducible refine Ends.ite ?_ ?_ | split | extract_lets

theorem execConnect_ends (m : Fin 4) (x : Encap) (f : List Byte) (s : State) : Ends s (execConnect m x f s) := by
  unfold execConnect
  repeat' first | with_reducible exact Ends.settled _ _ | with_reducible exact Ends.same _ | with_reducible refine Ends.ite ?_ ?_ | split | extract_lets

theorem execAccept_ends (m : Fin 4) (x : Encap) (f : List Byte) (s : State) : Ends s (execAccept m x f s) := by
  unfold execAccept
  repeat' first | with_reducible exact Ends.settled _ _ | with_reducible exact Ends.same _ | with_reducible refine Ends.ite ?_ ?_ | split | extract_lets

theorem execReject_ends (m : Fin 4) (x : Encap) (f : List Byte) (s : State) : Ends s (execReject m x f s) := by
  unfold execReject
  repeat' first | with_reducible exact Ends.settled _ _ | with_reducible exact Ends.same _ | with_reducible refine Ends.ite ?_ ?_ | split | extract_lets

theorem execClose_ends (m : Fin 4) (x : Encap) (f : List Byte) (s : State) : Ends s (execClose m x f s) := by
  unfold execClose
  repeat' first | with_reducible exact Ends.settled _ _ | with_reducible exact Ends.same _ | with_reducible refine Ends.ite ?_ ?_ | split | extract_lets

theorem execWilisWatchdogExpiry_ends (c : Fin 1024) (s : State) : Ends s (execWilisWatchdogExpiry c s) := by
  unfold execWilisWatchdogExpiry
  repeat' first | with_reducible exact Ends.settled _ _ | with_reducible exact Ends.same _ | with_reducible refine Ends.ite ?_ ?_ | split | extract_lets

theorem execPathDown_ends (c : Fin 1024) (second : Bool) (s : State) : Ends s (execPathDown c second s) := by
  unfold execPathDown
  repeat' first | with_reducible exact Ends.settled _ _ | with_reducible exact Ends.same _ | with_reducible refine Ends.ite ?_ ?_ | split | extract_lets

theorem execFailedRetry_ends (c : Fin 1024) (s : State) : Ends s (execFailedRetry c s) := by
  unfold execFailedRetry
  repeat' first | with_reducible exact Ends.settled _ _ | with_reducible exact Ends.same _ | with_reducible refine Ends.ite ?_ ?_ | split | extract_lets

theorem execEthernetFrameReceive_ends (m : Fin 4) (f : List Byte) (fcsOk pause : Bool) (s : State) : Ends s (execEthernetFrameReceive m f fcsOk pause s) := by
  unfold execEthernetFrameReceive
  repeat' first | with_reducible exact Ends.settled _ _ | with_reducible exact Ends.same _ | with_reducible refine Ends.ite ?_ ?_ | split | extract_lets

theorem execSgmiiLinkChange_ends (m : Fin 4) (l : Link) (s : State) : Ends s (execSgmiiLinkChange m l s) := by
  unfold execSgmiiLinkChange
  repeat' first | with_reducible exact Ends.settled _ _ | with_reducible exact Ends.same _ | with_reducible refine Ends.ite ?_ ?_ | split | extract_lets

theorem execFiminlinkCycleStart_ends (s : State) : Ends s (execFiminlinkCycleStart s) := by
  unfold execFiminlinkCycleStart
  repeat' first | with_reducible exact Ends.settled _ _ | with_reducible exact Ends.same _ | with_reducible refine Ends.ite ?_ ?_ | split | extract_lets

theorem execFiminlinkSlotAssembly_ends (s : State) : Ends s (execFiminlinkSlotAssembly s) := by
  unfold execFiminlinkSlotAssembly
  repeat' first | with_reducible exact Ends.settled _ _ | with_reducible exact Ends.same _ | with_reducible refine Ends.ite ?_ ?_ | split | extract_lets

theorem execFiminlinkSlotReceive_ends (r : AB) (body : List Byte) (whole : Bool) (slot : Fin 16) (arrival : Int) (s : State) : Ends s (execFiminlinkSlotReceive r body whole slot arrival s) := by
  unfold execFiminlinkSlotReceive
  repeat' first | with_reducible exact Ends.settled _ _ | with_reducible exact Ends.same _ | with_reducible refine Ends.ite ?_ ?_ | split | extract_lets

theorem execFiminlinkSyncReceive_ends (r : AB) (body : List Byte) (capture : Int) (s : State) : Ends s (execFiminlinkSyncReceive r body capture s) := by
  unfold execFiminlinkSyncReceive
  repeat' first | with_reducible exact Ends.settled _ _ | with_reducible exact Ends.same _ | with_reducible refine Ends.ite ?_ ?_ | split | extract_lets

theorem execListenExpiry_ends (s : State) : Ends s (execListenExpiry s) := by
  unfold execListenExpiry
  repeat' first | with_reducible exact Ends.settled _ _ | with_reducible exact Ends.same _ | with_reducible refine Ends.ite ?_ ?_ | split | extract_lets

theorem execBackoffExpiry_ends (s : State) : Ends s (execBackoffExpiry s) := by
  unfold execBackoffExpiry
  repeat' first | with_reducible exact Ends.settled _ _ | with_reducible exact Ends.same _ | with_reducible refine Ends.ite ?_ ?_ | split | extract_lets

theorem execModuleLost_ends (m : Fin 16) (s : State) : Ends s (execModuleLost m s) := by
  unfold execModuleLost
  repeat' first | with_reducible exact Ends.settled _ _ | with_reducible exact Ends.same _ | with_reducible refine Ends.ite ?_ ?_ | split | extract_lets

theorem execFiminlinkLinkDown_ends (r : AB) (s : State) : Ends s (execFiminlinkLinkDown r s) := by
  unfold execFiminlinkLinkDown
  repeat' first | with_reducible exact Ends.settled _ _ | with_reducible exact Ends.same _ | with_reducible refine Ends.ite ?_ ?_ | split | extract_lets

theorem execFiminlinkLinkUp_ends (r : AB) (s : State) : Ends s (execFiminlinkLinkUp r s) := by
  unfold execFiminlinkLinkUp
  repeat' first | with_reducible exact Ends.settled _ _ | with_reducible exact Ends.same _ | with_reducible refine Ends.ite ?_ ?_ | split | extract_lets

theorem execSqDoorbell_ends (q : Fin 64) (v : Word) (s : State) : Ends s (execSqDoorbell q v s) := by
  unfold execSqDoorbell
  repeat' first | with_reducible exact Ends.settled _ _ | with_reducible exact Ends.same _ | with_reducible refine Ends.ite ?_ ?_ | split | extract_lets

theorem execCqDoorbell_ends (q : Fin 64) (v : Word) (s : State) : Ends s (execCqDoorbell q v s) := by
  unfold execCqDoorbell
  repeat' first | with_reducible exact Ends.settled _ _ | with_reducible exact Ends.same _ | with_reducible refine Ends.ite ?_ ?_ | split | extract_lets

theorem execSqFetch_ends (q : Fin 64) (s : State) : Ends s (execSqFetch q s) := by
  unfold execSqFetch
  repeat' first | with_reducible exact Ends.settled _ _ | with_reducible exact Ends.same _ | with_reducible refine Ends.ite ?_ ?_ | split | extract_lets

theorem execQpEnable_ends (q : Fin 64) (v : Word) (s : State) : Ends s (execQpEnable q v s) := by
  unfold execQpEnable
  repeat' first | with_reducible exact Ends.settled _ _ | with_reducible exact Ends.same _ | with_reducible refine Ends.ite ?_ ?_ | split | extract_lets

theorem execQpDisable_ends (q : Fin 64) (v : Word) (s : State) : Ends s (execQpDisable q v s) := by
  unfold execQpDisable
  repeat' first | with_reducible exact Ends.settled _ _ | with_reducible exact Ends.same _ | with_reducible refine Ends.ite ?_ ?_ | split | extract_lets

theorem execCqInterruptTimer_ends (q : Fin 64) (s : State) : Ends s (execCqInterruptTimer q s) := by
  unfold execCqInterruptTimer
  repeat' first | with_reducible exact Ends.settled _ _ | with_reducible exact Ends.same _ | with_reducible refine Ends.ite ?_ ?_ | split | extract_lets

theorem execHostSilenceOnset_ends (s : State) : Ends s (execHostSilenceOnset s) := by
  unfold execHostSilenceOnset
  repeat' first | with_reducible exact Ends.settled _ _ | with_reducible exact Ends.same _ | with_reducible refine Ends.ite ?_ ?_ | split | extract_lets

theorem execNop_ends (q : Fin 64) (s : State) : Ends s (execNop q s) := by
  unfold execNop
  repeat' first | with_reducible exact Ends.settled _ _ | with_reducible exact Ends.same _ | with_reducible refine Ends.ite ?_ ?_ | split | extract_lets

theorem execPiRead_ends (q : Fin 64) (s : State) : Ends s (execPiRead q s) := by
  unfold execPiRead
  repeat' first | with_reducible exact Ends.settled _ _ | with_reducible exact Ends.same _ | with_reducible refine Ends.ite ?_ ?_ | split | extract_lets

theorem execPiWrite_ends (q : Fin 64) (s : State) : Ends s (execPiWrite q s) := by
  unfold execPiWrite
  repeat' first | with_reducible exact Ends.settled _ _ | with_reducible exact Ends.same _ | with_reducible refine Ends.ite ?_ ?_ | split | extract_lets

theorem execDiagReadFaultRecords_ends (q : Fin 64) (s : State) : Ends s (execDiagReadFaultRecords q s) := by
  unfold execDiagReadFaultRecords
  repeat' first | with_reducible exact Ends.settled _ _ | with_reducible exact Ends.same _ | with_reducible refine Ends.ite ?_ ?_ | split | extract_lets

theorem execDiagReadAvailability_ends (q : Fin 64) (s : State) : Ends s (execDiagReadAvailability q s) := by
  unfold execDiagReadAvailability
  repeat' first | with_reducible exact Ends.settled _ _ | with_reducible exact Ends.same _ | with_reducible refine Ends.ite ?_ ?_ | split | extract_lets

theorem execDiagReadMasks_ends (q : Fin 64) (s : State) : Ends s (execDiagReadMasks q s) := by
  unfold execDiagReadMasks
  repeat' first | with_reducible exact Ends.settled _ _ | with_reducible exact Ends.same _ | with_reducible refine Ends.ite ?_ ?_ | split | extract_lets

theorem execDiagReadDescriptor_ends (q : Fin 64) (s : State) : Ends s (execDiagReadDescriptor q s) := by
  unfold execDiagReadDescriptor
  repeat' first | with_reducible exact Ends.settled _ _ | with_reducible exact Ends.same _ | with_reducible refine Ends.ite ?_ ?_ | split | extract_lets

theorem execDiagReadSite_ends (q : Fin 64) (s : State) : Ends s (execDiagReadSite q s) := by
  unfold execDiagReadSite
  repeat' first | with_reducible exact Ends.settled _ _ | with_reducible exact Ends.same _ | with_reducible refine Ends.ite ?_ ?_ | split | extract_lets

theorem execDiagReadBist_ends (q : Fin 64) (s : State) : Ends s (execDiagReadBist q s) := by
  unfold execDiagReadBist
  repeat' first | with_reducible exact Ends.settled _ _ | with_reducible exact Ends.same _ | with_reducible refine Ends.ite ?_ ?_ | split | extract_lets

theorem execLogRead_ends (q : Fin 64) (s : State) : Ends s (execLogRead q s) := by
  unfold execLogRead
  repeat' first | with_reducible exact Ends.settled _ _ | with_reducible exact Ends.same _ | with_reducible refine Ends.ite ?_ ?_ | split | extract_lets

theorem execAck_ends (q : Fin 64) (s : State) : Ends s (execAck q s) := by
  unfold execAck
  repeat' first | with_reducible exact Ends.settled _ _ | with_reducible exact Ends.same _ | with_reducible refine Ends.ite ?_ ?_ | split | extract_lets

theorem execTimeSet_ends (q : Fin 64) (s : State) : Ends s (execTimeSet q s) := by
  unfold execTimeSet
  repeat' first | with_reducible exact Ends.settled _ _ | with_reducible exact Ends.same _ | with_reducible refine Ends.ite ?_ ?_ | split | extract_lets

theorem execOffsetSet_ends (q : Fin 64) (s : State) : Ends s (execOffsetSet q s) := by
  unfold execOffsetSet
  repeat' first | with_reducible exact Ends.settled _ _ | with_reducible exact Ends.same _ | with_reducible refine Ends.ite ?_ ?_ | split | extract_lets

theorem execSessOpen_ends (q : Fin 64) (s : State) : Ends s (execSessOpen q s) := by
  unfold execSessOpen
  repeat' first | with_reducible exact Ends.settled _ _ | with_reducible exact Ends.same _ | with_reducible refine Ends.ite ?_ ?_ | split | extract_lets

theorem execLockoutEnd_ends (r : Role) (s : State) : Ends s (execLockoutEnd r s) := by
  unfold execLockoutEnd
  repeat' first | with_reducible exact Ends.settled _ _ | with_reducible exact Ends.same _ | with_reducible refine Ends.ite ?_ ?_ | split | extract_lets

theorem execSessWrite_ends (q : Fin 64) (s : State) : Ends s (execSessWrite q s) := by
  unfold execSessWrite
  repeat' first | with_reducible exact Ends.settled _ _ | with_reducible exact Ends.same _ | with_reducible refine Ends.ite ?_ ?_ | split | extract_lets

theorem execSessCommit_ends (q : Fin 64) (s : State) : Ends s (execSessCommit q s) := by
  unfold execSessCommit
  repeat' first | with_reducible exact Ends.settled _ _ | with_reducible exact Ends.same _ | with_reducible refine Ends.ite ?_ ?_ | split | extract_lets

theorem execSessClose_ends (q : Fin 64) (s : State) : Ends s (execSessClose q s) := by
  unfold execSessClose
  repeat' first | with_reducible exact Ends.settled _ _ | with_reducible exact Ends.same _ | with_reducible refine Ends.ite ?_ ?_ | split | extract_lets

theorem execSessionIdleTimeout_ends (r : Role) (s : State) : Ends s (execSessionIdleTimeout r s) := by
  unfold execSessionIdleTimeout
  repeat' first | with_reducible exact Ends.settled _ _ | with_reducible exact Ends.same _ | with_reducible refine Ends.ite ?_ ?_ | split | extract_lets

theorem execCellExchange_ends (q : Fin 64) (s : State) : Ends s (execCellExchange q s) := by
  unfold execCellExchange
  repeat' first | with_reducible exact Ends.settled _ _ | with_reducible exact Ends.same _ | with_reducible refine Ends.ite ?_ ?_ | split | extract_lets

theorem execExchangeLoadDone_ends (s : State) : Ends s (execExchangeLoadDone s) := by
  unfold execExchangeLoadDone
  repeat' first | with_reducible exact Ends.settled _ _ | with_reducible exact Ends.same _ | with_reducible refine Ends.ite ?_ ?_ | split | extract_lets

theorem execExchangeCarryCopy_ends (s : State) : Ends s (execExchangeCarryCopy s) := by
  unfold execExchangeCarryCopy
  repeat' first | with_reducible exact Ends.settled _ _ | with_reducible exact Ends.same _ | with_reducible refine Ends.ite ?_ ?_ | split | extract_lets

theorem execHandoverEnd_ends (s : State) : Ends s (execHandoverEnd s) := by
  unfold execHandoverEnd
  repeat' first | with_reducible exact Ends.settled _ _ | with_reducible exact Ends.same _ | with_reducible refine Ends.ite ?_ ?_ | split | extract_lets

theorem execCellMove_ends (q : Fin 64) (s : State) : Ends s (execCellMove q s) := by
  unfold execCellMove
  repeat' first | with_reducible exact Ends.settled _ _ | with_reducible exact Ends.same _ | with_reducible refine Ends.ite ?_ ?_ | split | extract_lets

theorem execPairSplit_ends (q : Fin 64) (s : State) : Ends s (execPairSplit q s) := by
  unfold execPairSplit
  repeat' first | with_reducible exact Ends.settled _ _ | with_reducible exact Ends.same _ | with_reducible refine Ends.ite ?_ ?_ | split | extract_lets

theorem execPairMerge_ends (q : Fin 64) (passEven passOdd injection : Bool) (s : State) : Ends s (execPairMerge q passEven passOdd injection s) := by
  unfold execPairMerge
  repeat' first | with_reducible exact Ends.settled _ _ | with_reducible exact Ends.same _ | with_reducible refine Ends.ite ?_ ?_ | split | extract_lets

theorem execCellRestart_ends (q : Fin 64) (s : State) : Ends s (execCellRestart q s) := by
  unfold execCellRestart
  repeat' first | with_reducible exact Ends.settled _ _ | with_reducible exact Ends.same _ | with_reducible refine Ends.ite ?_ ?_ | split | extract_lets

theorem execUnitReset_ends (q : Fin 64) (r : Retest) (s : State) : Ends s (execUnitReset q r s) := by
  unfold execUnitReset
  repeat' first | with_reducible exact Ends.settled _ _ | with_reducible exact Ends.same _ | with_reducible refine Ends.ite ?_ ?_ | split | extract_lets

theorem execFrameTx_ends (q : Fin 64) (s : State) : Ends s (execFrameTx q s) := by
  unfold execFrameTx
  repeat' first | with_reducible exact Ends.settled _ _ | with_reducible exact Ends.same _ | with_reducible refine Ends.ite ?_ ?_ | split | extract_lets

theorem execRxPost_ends (q : Fin 64) (s : State) : Ends s (execRxPost q s) := by
  unfold execRxPost
  repeat' first | with_reducible exact Ends.settled _ _ | with_reducible exact Ends.same _ | with_reducible refine Ends.ite ?_ ?_ | split | extract_lets

theorem execStoreGrant_ends (s : State) : Ends s (execStoreGrant s) := by
  unfold execStoreGrant
  repeat' first | with_reducible exact Ends.settled _ _ | with_reducible exact Ends.same _ | with_reducible refine Ends.ite ?_ ?_ | split | extract_lets

theorem execStoreOperationDone_ends (x : OpEnd) (s : State) : Ends s (execStoreOperationDone x s) := by
  unfold execStoreOperationDone
  repeat' first | with_reducible exact Ends.settled _ _ | with_reducible exact Ends.same _ | with_reducible refine Ends.ite ?_ ?_ | split | extract_lets

theorem execStorePeriodicCheck_ends (bad : BitVec 5) (s : State) : Ends s (execStorePeriodicCheck bad s) := by
  unfold execStorePeriodicCheck
  repeat' first | with_reducible exact Ends.settled _ _ | with_reducible exact Ends.same _ | with_reducible refine Ends.ite ?_ ?_ | split | extract_lets

theorem execBistRunStart_ends (s : State) : Ends s (execBistRunStart s) := by
  unfold execBistRunStart
  repeat' first | with_reducible exact Ends.settled _ _ | with_reducible exact Ends.same _ | with_reducible refine Ends.ite ?_ ?_ | split | extract_lets

theorem execBistRunEnd_ends (items : List BistItem) (s : State) : Ends s (execBistRunEnd items s) := by
  unfold execBistRunEnd
  repeat' first | with_reducible exact Ends.settled _ _ | with_reducible exact Ends.same _ | with_reducible refine Ends.ite ?_ ?_ | split | extract_lets

theorem execBistConditionLapse_ends (s : State) : Ends s (execBistConditionLapse s) := by
  unfold execBistConditionLapse
  repeat' first | with_reducible exact Ends.settled _ _ | with_reducible exact Ends.same _ | with_reducible refine Ends.ite ?_ ?_ | split | extract_lets

theorem execRowTestTimeout_ends (s : State) : Ends s (execRowTestTimeout s) := by
  unfold execRowTestTimeout
  repeat' first | with_reducible exact Ends.settled _ _ | with_reducible exact Ends.same _ | with_reducible refine Ends.ite ?_ ?_ | split | extract_lets

theorem execBistRunTimeout_ends (s : State) : Ends s (execBistRunTimeout s) := by
  unfold execBistRunTimeout
  repeat' first | with_reducible exact Ends.settled _ _ | with_reducible exact Ends.same _ | with_reducible refine Ends.ite ?_ ?_ | split | extract_lets

theorem execSysLockWrite_ends (v : Word) (s : State) : Ends s (execSysLockWrite v s) := by
  unfold execSysLockWrite
  repeat' first | with_reducible exact Ends.settled _ _ | with_reducible exact Ends.same _ | with_reducible refine Ends.ite ?_ ?_ | split | extract_lets

theorem execCvuStart_ends (n : Fin 8) (v : Word) (s : State) : Ends s (execCvuStart n v s) := by
  unfold execCvuStart
  repeat' first | with_reducible exact Ends.settled _ _ | with_reducible exact Ends.same _ | with_reducible refine Ends.ite ?_ ?_ | split | extract_lets

theorem execCvuStop_ends (n : Fin 8) (v : Word) (s : State) : Ends s (execCvuStop n v s) := by
  unfold execCvuStop
  repeat' first | with_reducible exact Ends.settled _ _ | with_reducible exact Ends.same _ | with_reducible refine Ends.ite ?_ ?_ | split | extract_lets

theorem execCvuRegisterWrite_ends (n : Fin 8) (reg : Fin 8) (v : Word) (s : State) : Ends s (execCvuRegisterWrite n reg v s) := by
  unfold execCvuRegisterWrite
  repeat' first | with_reducible exact Ends.settled _ _ | with_reducible exact Ends.same _ | with_reducible refine Ends.ite ?_ ?_ | split | extract_lets

theorem execRegisterWrite_ends (offset : BitVec 14) (v : Word) (s : State) : Ends s (execRegisterWrite offset v s) := by
  unfold execRegisterWrite
  repeat' first | with_reducible exact Ends.settled _ _ | with_reducible exact Ends.same _ | with_reducible refine Ends.ite ?_ ?_ | split | extract_lets

theorem execInputLaneWordMissing_ends (n : Fin 128) (s : State) : Ends s (execInputLaneWordMissing n s) := by
  unfold execInputLaneWordMissing
  repeat' first | with_reducible exact Ends.settled _ _ | with_reducible exact Ends.same _ | with_reducible refine Ends.ite ?_ ?_ | split | extract_lets

theorem execOutputLaneWordMissing_ends (o : Fin 64) (x : AB) (s : State) : Ends s (execOutputLaneWordMissing o x s) := by
  unfold execOutputLaneWordMissing
  repeat' first | with_reducible exact Ends.settled _ _ | with_reducible exact Ends.same _ | with_reducible refine Ends.ite ?_ ?_ | split | extract_lets

theorem execOssdStartHoldExpiry_ends (n : Fin 128) (s : State) : Ends s (execOssdStartHoldExpiry n s) := by
  unfold execOssdStartHoldExpiry
  repeat' first | with_reducible exact Ends.settled _ _ | with_reducible exact Ends.same _ | with_reducible refine Ends.ite ?_ ?_ | split | extract_lets

theorem execHoldExhausted_ends (s : State) : Ends s (execHoldExhausted s) := by
  unfold execHoldExhausted
  repeat' first | with_reducible exact Ends.settled _ _ | with_reducible exact Ends.same _ | with_reducible refine Ends.ite ?_ ?_ | split | extract_lets

theorem execHoldCharged_ends (s : State) : Ends s (execHoldCharged s) := by
  unfold execHoldCharged
  repeat' first | with_reducible exact Ends.settled _ _ | with_reducible exact Ends.same _ | with_reducible refine Ends.ite ?_ ?_ | split | extract_lets

theorem execIllegalInstruction_ends (e : Fin 64) (w : Word) (s : State) : Ends s (execIllegalInstruction e w s) := by
  unfold execIllegalInstruction
  repeat' first | with_reducible exact Ends.settled _ _ | with_reducible exact Ends.same _ | with_reducible refine Ends.ite ?_ ?_ | split | extract_lets

theorem execDebugMemoryWrite_ends (e : Fin 64) (addr : BitVec 18) (a : DebugAccess) (tag : Byte) (s : State) : Ends s (execDebugMemoryWrite e addr a tag s) := by
  unfold execDebugMemoryWrite
  repeat' first | with_reducible exact Ends.settled _ _ | with_reducible exact Ends.same _ | with_reducible refine Ends.ite ?_ ?_ | split | extract_lets

theorem execPePerstnRelease_ends (s : State) : Ends s (execPePerstnRelease s) := by
  unfold execPePerstnRelease
  repeat' first | with_reducible exact Ends.settled _ _ | with_reducible exact Ends.same _ | with_reducible refine Ends.ite ?_ ?_ | split | extract_lets

theorem execDlUp_ends (s : State) : Ends s (execDlUp s) := by
  unfold execDlUp
  repeat' first | with_reducible exact Ends.settled _ _ | with_reducible exact Ends.same _ | with_reducible refine Ends.ite ?_ ?_ | split | extract_lets

theorem execDmaReadCompletion_ends (q : Fin 64) (d : DmaData) (s : State) : Ends s (execDmaReadCompletion q d s) := by
  unfold execDmaReadCompletion
  repeat' first | with_reducible exact Ends.settled _ _ | with_reducible exact Ends.same _ | with_reducible refine Ends.ite ?_ ?_ | split | extract_lets

theorem execCompletionTimeout_ends (q : Fin 64) (entry : Bool) (s : State) : Ends s (execCompletionTimeout q entry s) := by
  unfold execCompletionTimeout
  repeat' first | with_reducible exact Ends.settled _ _ | with_reducible exact Ends.same _ | with_reducible refine Ends.ite ?_ ?_ | split | extract_lets

theorem execPasswordCheckDone_ends (r : Role) (s : State) : Ends s (execPasswordCheckDone r s) := by
  unfold execPasswordCheckDone
  repeat' first | with_reducible exact Ends.settled _ _ | with_reducible exact Ends.same _ | with_reducible refine Ends.ite ?_ ?_ | split | extract_lets

theorem hostRead_ends (s : State) (a bytes : Nat) : Ends s (s.hostRead a bytes) := by
  unfold State.hostRead
  by_cases h1 : a = 0x0C00
  · rw [if_pos h1]; exact execTbLoRead_ends .host _ s
  · rw [if_neg h1]
    by_cases h2 : a = 0x0408
    · rw [if_pos h2]; exact execClkIncLoRead_ends s
    · rw [if_neg h2]
      by_cases h3 : a = 0x1524
      · rw [if_pos h3]; exact execStatLoRead_ends s
      · rw [if_neg h3]
        by_cases h4 : 0x3140 ≤ a ∧ a < 0x31C0 ∧ a % 16 = 0
        · rw [if_pos h4]; exact execCapLoRead_ends _ .host s
        · rw [if_neg h4]; exact Ends.settled _ _

theorem execReservedRangeRead_ends (bar2 : Bool) (offset : BitVec 14) (bytes : Nat) (s : State) :
    Ends s (execReservedRangeRead bar2 offset bytes s) := by
  unfold execReservedRangeRead
  extract_lets a
  repeat' first | with_reducible exact hostRead_ends _ _ _ | with_reducible exact Ends.settled _ _ | with_reducible refine Ends.ite ?_ ?_ | split

theorem execMsiXTableWrite_ends (offset : BitVec 12) (v : Word) (s : State) : Ends s (execMsiXTableWrite offset v s) := by
  unfold execMsiXTableWrite
  repeat' first | with_reducible exact Ends.settled _ _ | with_reducible exact Ends.same _ | with_reducible refine Ends.ite ?_ ?_ | split | extract_lets

theorem execAnnounceReceiptTimeout_ends (m : Fin 4) (s : State) : Ends s (execAnnounceReceiptTimeout m s) := by
  unfold execAnnounceReceiptTimeout
  repeat' first | with_reducible exact Ends.settled _ _ | with_reducible exact Ends.same _ | with_reducible refine Ends.ite ?_ ?_ | split | extract_lets

theorem execPtpDelayRequestSend_ends (m : Fin 4) (s : State) : Ends s (execPtpDelayRequestSend m s) := by
  unfold execPtpDelayRequestSend
  repeat' first | with_reducible exact Ends.settled _ _ | with_reducible exact Ends.same _ | with_reducible refine Ends.ite ?_ ?_ | split | extract_lets

theorem execThermalRelease_ends (j : Junction) (s : State) : Ends s (execThermalRelease j s) := by
  unfold execThermalRelease
  repeat' first | with_reducible exact Ends.settled _ _ | with_reducible exact Ends.same _ | with_reducible refine Ends.ite ?_ ?_ | split | extract_lets

theorem execCoreTemperatureFall_ends (t : Byte) (s : State) : Ends s (execCoreTemperatureFall t s) := by
  unfold execCoreTemperatureFall
  repeat' first | with_reducible exact Ends.settled _ _ | with_reducible exact Ends.same _ | with_reducible refine Ends.ite ?_ ?_ | split | extract_lets

/-- Every command answers a next state: the state it found, or a settled one. -/
theorem exec_ends (c : Instr) (s : State) : Ends s (exec c s) := by
  cases c with
  | vsysStartThreshold => exact execVsysStartThreshold_ends _
  | startUp obs => exact execStartUp_ends _ _
  | unlockedLoad => exact execUnlockedLoad_ends _
  | vsysHoldUpCrossing => exact execVsysHoldUpCrossing_ends _
  | dipRideThrough => exact execDipRideThrough_ends _
  | powerFailure => exact execPowerFailure_ends _
  | powerFailReset => exact execPowerFailReset_ends _
  | overvoltageEvent => exact execOvervoltageEvent_ends _
  | railOutOfWindow r => exact execRailOutOfWindow_ends _ _
  | coreOvertemperature t => exact execCoreOvertemperature_ends _ _
  | holdNotCharged hold => exact execHoldNotCharged_ends _ _
  | rstnLow ns => exact execRstnLow_ends _ _
  | rstnRelease => exact execRstnRelease_ends _
  | stbynLow => exact execStbynLow_ends _
  | standbyRequest => exact execStandbyRequest_ends _
  | wakeByStbyn => exact execWakeByStbyn_ends _
  | wakeByWake => exact execWakeByWake_ends _
  | pePerstnLow => exact execPePerstnLow_ends _
  | functionLevelReset => exact execFunctionLevelReset_ends _
  | hotReset => exact execHotReset_ends _
  | dlDown => exact execDlDown_ends _
  | d3hotTransition enter => exact execD3hotTransition_ends _ _
  | pllLockLoss => exact execPllLockLoss_ends _
  | refclkCheck ppm => exact execRefclkCheck_ends _ _
  | lfOscillatorChange runs => exact execLfOscillatorChange_ends _ _
  | safeOkRefreshLoss => exact execSafeOkRefreshLoss_ends _
  | tbLoRead p what => exact execTbLoRead_ends _ _ _
  | capLoRead e r => exact execCapLoRead_ends _ _ _
  | statLoRead => exact execStatLoRead_ends _
  | clkIncLoRead => exact execClkIncLoRead_ends _
  | tcmpLoWrite n v => exact execTcmpLoWrite_ends _ _ _
  | tcmpHiWrite n v => exact execTcmpHiWrite_ends _ _ _
  | tcmpActWrite n v => exact execTcmpActWrite_ends _ _ _
  | tcmpFlagOnly n => exact execTcmpFlagOnly_ends _ _
  | tcmpSetStandardOutput n => exact execTcmpSetStandardOutput_ends _ _
  | tcmpHostSnapshot n => exact execTcmpHostSnapshot_ends _ _
  | tcmpCellSnapshot n => exact execTcmpCellSnapshot_ends _ _
  | tcmpPermitRelease n => exact execTcmpPermitRelease_ends _ _
  | tcmpTestPulseScheduleStart n => exact execTcmpTestPulseScheduleStart_ends _ _
  | tcmpCellExchange n => exact execTcmpCellExchange_ends _ _
  | tcmpSs1Launch n => exact execTcmpSs1Launch_ends _ _
  | tcmpHandover n => exact execTcmpHandover_ends _ _
  | etFire e i => exact execEtFire_ends _ _ _
  | etReload e i => exact execEtReload_ends _ _ _
  | cycleBudgetOverrun e both => exact execCycleBudgetOverrun_ends _ _ _
  | etValueWrite e i v => exact execEtValueWrite_ends _ _ _ _
  | etModeWrite e v => exact execEtModeWrite_ends _ _ _
  | etWdWrite e v => exact execEtWdWrite_ends _ _ _
  | ptpMessageReceive m msg => exact execPtpMessageReceive_ends _ _ _
  | lockTimeout => exact execLockTimeout_ends _
  | leapSecondMidnight => exact execLeapSecondMidnight_ends _
  | inputEdge n level partner => exact execInputEdge_ends _ _ _ _
  | lidMaskCheck l o => exact execLidMaskCheck_ends _ _ _
  | inputLaneStatusWord n w ok => exact execInputLaneStatusWord_ends _ _ _ _
  | wettingEnd h sinkOk => exact execWettingEnd_ends _ _ _
  | tpWindowStart n => exact execTpWindowStart_ends _ _
  | tpWindowEnd n => exact execTpWindowEnd_ends _ _
  | foreignWindowEnd n k => exact execForeignWindowEnd_ends _ _ _
  | ossdHoldExpiry n => exact execOssdHoldExpiry_ends _ _
  | ossdNoTest n => exact execOssdNoTest_ends _ _
  | filterExpiry n => exact execFilterExpiry_ends _ _
  | wireBreakMeasurement n below => exact execWireBreakMeasurement_ends _ _ _
  | discTimerExpiry p => exact execDiscTimerExpiry_ends _ _
  | sinkProbe n sinkOk => exact execSinkProbe_ends _ _ _
  | inputApplied p => exact execInputApplied_ends _ _
  | encoderEdge e a b => exact execEncoderEdge_ends _ _ _ _
  | outputTurnOff o => exact execOutputTurnOff_ends _ _
  | outputTurnOn o => exact execOutputTurnOn_ends _ _
  | ladleGrant d => exact execLadleGrant_ends _ _
  | ladleOverdraw d => exact execLadleOverdraw_ends _ _
  | ladleReturn d site => exact execLadleReturn_ends _ _ _
  | ladleRefill d => exact execLadleRefill_ends _ _
  | ladleAudit b repA repB flightA flightB backA backB => exact execLadleAudit_ends _ _ _ _ _ _ _ _
  | ladleCfgWrite d v => exact execLadleCfgWrite_ends _ _ _
  | currentLimitExpiry o => exact execCurrentLimitExpiry_ends _ _
  | thermalShutdown j => exact execThermalShutdown_ends _ _
  | bankCurrentAverage b h r => exact execBankCurrentAverage_ends _ _ _ _
  | elementOffPulse o x => exact execElementOffPulse_ends _ _ _
  | pulseVerdict o r fallen => exact execPulseVerdict_ends _ _ _ _
  | offCheck o ra rb => exact execOffCheck_ends _ _ _ _
  | darkTestProbe o x readings fallen => exact execDarkTestProbe_ends _ _ _ _ _
  | continuousOutputCheck o h r limiting => exact execContinuousOutputCheck_ends _ _ _ _ _
  | controlLaneReport o h verdict raw => exact execControlLaneReport_ends _ _ _ _ _
  | outputLaneStatusWord o x w ok => exact execOutputLaneStatusWord_ends _ _ _ _ _
  | stdMismatch r => exact execStdMismatch_ends _ _
  | outputCodeClear o => exact execOutputCodeClear_ends _ _
  | heartbeat b h w ok => exact execHeartbeat_ends _ _ _ _ _
  | silExpired b h => exact execSilExpired_ends _ _ _
  | vfLow b h => exact execVfLow_ends _ _ _
  | vfHigh b h => exact execVfHigh_ends _ _ _
  | vfDip b h => exact execVfDip_ends _ _ _
  | vfRecovery r => exact execVfRecovery_ends _ _
  | halfBrownOut b h => exact execHalfBrownOut_ends _ _ _
  | tpSourceOffPulse t start => exact execTpSourceOffPulse_ends _ _ _
  | tpSourceReadback t r => exact execTpSourceReadback_ends _ _ _
  | tpOverload t => exact execTpOverload_ends _ _
  | tpSourceRetry t good => exact execTpSourceRetry_ends _ _ _
  | cellRelease c => exact execCellRelease_ends _ _
  | permitRenewalExpiry slot second => exact execPermitRenewalExpiry_ends _ _ _
  | degr50 c => exact execDegr50_ends _ _
  | degr90 c => exact execDegr90_ends _ _
  | degrExpiry c => exact execDegrExpiry_ends _ _
  | add e rd rs rt => exact execAdd_ends _ _ _ _ _
  | sub e rd rs rt => exact execSub_ends _ _ _ _ _
  | and e rd rs rt => exact execAnd_ends _ _ _ _ _
  | or e rd rs rt => exact execOr_ends _ _ _ _ _
  | xor e rd rs rt => exact execXor_ends _ _ _ _ _
  | nor e rd rs rt => exact execNor_ends _ _ _ _ _
  | sll e rd rs rt => exact execSll_ends _ _ _ _ _
  | srl e rd rs rt => exact execSrl_ends _ _ _ _ _
  | sra e rd rs rt => exact execSra_ends _ _ _ _ _
  | slt e rd rs rt => exact execSlt_ends _ _ _ _ _
  | sltu e rd rs rt => exact execSltu_ends _ _ _ _ _
  | mul e rd rs rt => exact execMul_ends _ _ _ _ _
  | mulh e rd rs rt => exact execMulh_ends _ _ _ _ _
  | mulhu e rd rs rt => exact execMulhu_ends _ _ _ _ _
  | div e rd rs rt => exact execDiv_ends _ _ _ _ _
  | divu e rd rs rt => exact execDivu_ends _ _ _ _ _
  | rem e rd rs rt => exact execRem_ends _ _ _ _ _
  | remu e rd rs rt => exact execRemu_ends _ _ _ _ _
  | min e rd rs rt => exact execMin_ends _ _ _ _ _
  | max e rd rs rt => exact execMax_ends _ _ _ _ _
  | addsat e rd rs rt => exact execAddsat_ends _ _ _ _ _
  | subsat e rd rs rt => exact execSubsat_ends _ _ _ _ _
  | kand e rd rs rt => exact execKand_ends _ _ _ _ _
  | kor e rd rs rt => exact execKor_ends _ _ _ _ _
  | kxor e rd rs rt => exact execKxor_ends _ _ _ _ _
  | kandn e rd rs rt => exact execKandn_ends _ _ _ _ _
  | korn e rd rs rt => exact execKorn_ends _ _ _ _ _
  | knot e rd rs => exact execKnot_ends _ _ _ _
  | kmov e rd rs => exact execKmov_ends _ _ _ _
  | keq e rd rs rt => exact execKeq_ends _ _ _ _ _
  | kne e rd rs rt => exact execKne_ends _ _ _ _ _
  | klt e rd rs rt => exact execKlt_ends _ _ _ _ _
  | kltu e rd rs rt => exact execKltu_ends _ _ _ _ _
  | kge e rd rs rt => exact execKge_ends _ _ _ _ _
  | kgeu e rd rs rt => exact execKgeu_ends _ _ _ _ _
  | kbit e rd rs rt => exact execKbit_ends _ _ _ _ _
  | gfk e rd rs => exact execGfk_ends _ _ _ _
  | kfg e rd rs => exact execKfg_ends _ _ _ _
  | sel e rd rs rt k => exact execSel_ends _ _ _ _ _ _
  | addI e rd rs imm => exact execAddI_ends _ _ _ _ _
  | andI e rd rs imm => exact execAndI_ends _ _ _ _ _
  | orI e rd rs imm => exact execOrI_ends _ _ _ _ _
  | xorI e rd rs imm => exact execXorI_ends _ _ _ _ _
  | sltI e rd rs imm => exact execSltI_ends _ _ _ _ _
  | sltuI e rd rs imm => exact execSltuI_ends _ _ _ _ _
  | hi16 e rd imm => exact execHi16_ends _ _ _ _
  | shI e rd rs k amount => exact execShI_ends _ _ _ _ _ _
  | ldw e rd rs imm => exact execLdw_ends _ _ _ _ _
  | ldh e rd rs imm => exact execLdh_ends _ _ _ _ _
  | ldhu e rd rs imm => exact execLdhu_ends _ _ _ _ _
  | ldb e rd rs imm => exact execLdb_ends _ _ _ _ _
  | ldbu e rd rs imm => exact execLdbu_ends _ _ _ _ _
  | stw e rd rs imm => exact execStw_ends _ _ _ _ _
  | sth e rd rs imm => exact execSth_ends _ _ _ _ _
  | stb e rd rs imm => exact execStb_ends _ _ _ _ _
  | orq e rd rs imm => exact execOrq_ends _ _ _ _ _
  | ork e rd rs imm => exact execOrk_ends _ _ _ _ _
  | beq e rs rt off => exact execBeq_ends _ _ _ _ _
  | bne e rs rt off => exact execBne_ends _ _ _ _ _
  | blt e rs rt off => exact execBlt_ends _ _ _ _ _
  | bge e rs rt off => exact execBge_ends _ _ _ _ _
  | bltu e rs rt off => exact execBltu_ends _ _ _ _ _
  | bgeu e rs rt off => exact execBgeu_ends _ _ _ _ _
  | bkt e rs off => exact execBkt_ends _ _ _ _
  | bkf e rs off => exact execBkf_ends _ _ _ _
  | j e off => exact execJ_ends _ _ _
  | call e off => exact execCall_ends _ _ _
  | jmpr e rd rs => exact execJmpr_ends _ _ _ _
  | loop e imm rs cnt last => exact execLoop_ends _ _ _ _ _ _
  | wait e => exact execWait_ends _ _
  | brk e => exact execBrk_ends _ _
  | mode e cell => exact execMode_ends _ _ _
  | chkp e c => exact execChkp_ends _ _ _
  | chkpTest e ident cmpX cmpY => exact execChkpTest_ends _ _ _ _ _
  | sealTimeout k => exact execSealTimeout_ends _ _
  | mismatchSelfTestEnd k passEven passOdd => exact execMismatchSelfTestEnd_ends _ _ _ _
  | engineSelfTestPeriodic e pass => exact execEngineSelfTestPeriodic_ends _ _ _
  | sadj e r => exact execSadj_ends _ _ _
  | rdh e r c => exact execRdh_ends _ _ _ _
  | wrh e r c => exact execWrh_ends _ _ _ _
  | sys e imm => exact execSys_ends _ _ _
  | rth e => exact execRth_ends _ _
  | eventEntry e => exact execEventEntry_ends _ _
  | scrubRead c w upsets => exact execScrubRead_ends _ _ _ _
  | engineDebugHalt e => exact execEngineDebugHalt_ends _ _
  | debugRelease e => exact execDebugRelease_ends _ _
  | moduleDebugHalt => exact execModuleDebugHalt_ends _
  | moduleDebugRelease => exact execModuleDebugRelease_ends _
  | tapReset => exact execTapReset_ends _
  | bootHold => exact execBootHold_ends _
  | scanEn readBackZero => exact execScanEn_ends _ _
  | extest => exact execExtest_ends _
  | clamp => exact execClamp_ends _
  | samplePreload => exact execSamplePreload_ends _
  | bypass => exact execBypass_ends _
  | wilisDataTransmit c => exact execWilisDataTransmit_ends _ _
  | connectTransmit c => exact execConnectTransmit_ends _ _
  | data m x f => exact execData_ends _ _ _ _
  | connect m x f => exact execConnect_ends _ _ _ _
  | accept m x f => exact execAccept_ends _ _ _ _
  | reject m x f => exact execReject_ends _ _ _ _
  | close m x f => exact execClose_ends _ _ _ _
  | wilisWatchdogExpiry c => exact execWilisWatchdogExpiry_ends _ _
  | pathDown c second => exact execPathDown_ends _ _ _
  | failedRetry c => exact execFailedRetry_ends _ _
  | ethernetFrameReceive m f fcsOk pause => exact execEthernetFrameReceive_ends _ _ _ _ _
  | sgmiiLinkChange m l => exact execSgmiiLinkChange_ends _ _ _
  | fiminlinkCycleStart => exact execFiminlinkCycleStart_ends _
  | fiminlinkSlotAssembly => exact execFiminlinkSlotAssembly_ends _
  | fiminlinkSlotReceive r body whole slot arrival => exact execFiminlinkSlotReceive_ends _ _ _ _ _ _
  | fiminlinkSyncReceive r body capture => exact execFiminlinkSyncReceive_ends _ _ _ _
  | listenExpiry => exact execListenExpiry_ends _
  | backoffExpiry => exact execBackoffExpiry_ends _
  | moduleLost m => exact execModuleLost_ends _ _
  | fiminlinkLinkDown r => exact execFiminlinkLinkDown_ends _ _
  | fiminlinkLinkUp r => exact execFiminlinkLinkUp_ends _ _
  | sqDoorbell q v => exact execSqDoorbell_ends _ _ _
  | cqDoorbell q v => exact execCqDoorbell_ends _ _ _
  | sqFetch q => exact execSqFetch_ends _ _
  | qpEnable q v => exact execQpEnable_ends _ _ _
  | qpDisable q v => exact execQpDisable_ends _ _ _
  | cqInterruptTimer q => exact execCqInterruptTimer_ends _ _
  | hostSilenceOnset => exact execHostSilenceOnset_ends _
  | nop q => exact execNop_ends _ _
  | piRead q => exact execPiRead_ends _ _
  | piWrite q => exact execPiWrite_ends _ _
  | diagReadFaultRecords q => exact execDiagReadFaultRecords_ends _ _
  | diagReadAvailability q => exact execDiagReadAvailability_ends _ _
  | diagReadMasks q => exact execDiagReadMasks_ends _ _
  | diagReadDescriptor q => exact execDiagReadDescriptor_ends _ _
  | diagReadSite q => exact execDiagReadSite_ends _ _
  | diagReadBist q => exact execDiagReadBist_ends _ _
  | logRead q => exact execLogRead_ends _ _
  | ack q => exact execAck_ends _ _
  | timeSet q => exact execTimeSet_ends _ _
  | offsetSet q => exact execOffsetSet_ends _ _
  | sessOpen q => exact execSessOpen_ends _ _
  | lockoutEnd r => exact execLockoutEnd_ends _ _
  | sessWrite q => exact execSessWrite_ends _ _
  | sessCommit q => exact execSessCommit_ends _ _
  | sessClose q => exact execSessClose_ends _ _
  | sessionIdleTimeout r => exact execSessionIdleTimeout_ends _ _
  | cellExchange q => exact execCellExchange_ends _ _
  | exchangeLoadDone => exact execExchangeLoadDone_ends _
  | exchangeCarryCopy => exact execExchangeCarryCopy_ends _
  | handoverEnd => exact execHandoverEnd_ends _
  | cellMove q => exact execCellMove_ends _ _
  | pairSplit q => exact execPairSplit_ends _ _
  | pairMerge q passEven passOdd injection => exact execPairMerge_ends _ _ _ _ _
  | cellRestart q => exact execCellRestart_ends _ _
  | unitReset q r => exact execUnitReset_ends _ _ _
  | frameTx q => exact execFrameTx_ends _ _
  | rxPost q => exact execRxPost_ends _ _
  | storeGrant => exact execStoreGrant_ends _
  | storeOperationDone x => exact execStoreOperationDone_ends _ _
  | storePeriodicCheck bad => exact execStorePeriodicCheck_ends _ _
  | bistRunStart => exact execBistRunStart_ends _
  | bistRunEnd items => exact execBistRunEnd_ends _ _
  | bistConditionLapse => exact execBistConditionLapse_ends _
  | rowTestTimeout => exact execRowTestTimeout_ends _
  | bistRunTimeout => exact execBistRunTimeout_ends _
  | sysLockWrite v => exact execSysLockWrite_ends _ _
  | cvuStart n v => exact execCvuStart_ends _ _ _
  | cvuStop n v => exact execCvuStop_ends _ _ _
  | cvuRegisterWrite n reg v => exact execCvuRegisterWrite_ends _ _ _ _
  | registerWrite offset v => exact execRegisterWrite_ends _ _ _
  | inputLaneWordMissing n => exact execInputLaneWordMissing_ends _ _
  | outputLaneWordMissing o x => exact execOutputLaneWordMissing_ends _ _ _
  | ossdStartHoldExpiry n => exact execOssdStartHoldExpiry_ends _ _
  | holdExhausted => exact execHoldExhausted_ends _
  | holdCharged => exact execHoldCharged_ends _
  | illegalInstruction e w => exact execIllegalInstruction_ends _ _ _
  | debugMemoryWrite e addr a tag => exact execDebugMemoryWrite_ends _ _ _ _ _
  | pePerstnRelease => exact execPePerstnRelease_ends _
  | dlUp => exact execDlUp_ends _
  | dmaReadCompletion q d => exact execDmaReadCompletion_ends _ _ _
  | completionTimeout q entry => exact execCompletionTimeout_ends _ _ _
  | passwordCheckDone r => exact execPasswordCheckDone_ends _ _
  | reservedRangeRead bar2 offset bytes => exact execReservedRangeRead_ends _ _ _ _
  | msiXTableWrite offset v => exact execMsiXTableWrite_ends _ _ _
  | announceReceiptTimeout m => exact execAnnounceReceiptTimeout_ends _ _
  | ptpDelayRequestSend m => exact execPtpDelayRequestSend_ends _ _
  | thermalRelease j => exact execThermalRelease_ends _ _
  | coreTemperatureFall t => exact execCoreTemperatureFall_ends _ _

end Sys2Proof.Laws
end

