-- ==== Sys2Proof/Laws/State.lean ====
section
/-! SUPPORT. What each update of the state changes: the entry it names, and nothing else. For every update, one lemma for
each field it leaves, and two for the entries of its own table. -/

namespace Sys2Proof.Laws

open Sys2Proof Sys2Proof.Machine

/-! ### State.updInp -/

@[simp] theorem inp_updInp_same (s : State) (n : Nat) (f : Input → Input) : (s.updInp n f).inp n = f (s.inp n) := by
  simp [State.updInp, State.inp]

theorem inp_updInp (s : State) (n i : Nat) (f : Input → Input) :
    (s.updInp n f).inp i = if i = n then f (s.inp n) else s.inp i := by
  simp only [State.updInp, State.inp, get_upd]

@[simp] theorem updInp_pending (s : State) (n : Nat) (f : Input → Input) : (s.updInp n f).pending = s.pending := rfl
@[simp] theorem updInp_fresh (s : State) (n : Nat) (f : Input → Input) : (s.updInp n f).fresh = s.fresh := rfl
@[simp] theorem updInp_port (s : State) (n : Nat) (f : Input → Input) : (s.updInp n f).port = s.port := rfl
@[simp] theorem updInp_rd (s : State) (n : Nat) (f : Input → Input) : (s.updInp n f).rd = s.rd := rfl
@[simp] theorem updInp_pwr (s : State) (n : Nat) (f : Input → Input) : (s.updInp n f).pwr = s.pwr := rfl
@[simp] theorem updInp_sys (s : State) (n : Nat) (f : Input → Input) : (s.updInp n f).sys = s.sys := rfl
@[simp] theorem updInp_clk (s : State) (n : Nat) (f : Input → Input) : (s.updInp n f).clk = s.clk := rfl
@[simp] theorem updInp_tb (s : State) (n : Nat) (f : Input → Input) : (s.updInp n f).tb = s.tb := rfl
@[simp] theorem updInp_chans (s : State) (n : Nat) (f : Input → Input) : (s.updInp n f).chans = s.chans := rfl
@[simp] theorem updInp_units (s : State) (n : Nat) (f : Input → Input) : (s.updInp n f).units = s.units := rfl
@[simp] theorem updInp_cfg (s : State) (n : Nat) (f : Input → Input) : (s.updInp n f).cfg = s.cfg := rfl
@[simp] theorem updInp_loaded (s : State) (n : Nat) (f : Input → Input) : (s.updInp n f).loaded = s.loaded := rfl
@[simp] theorem updInp_cfgSeq (s : State) (n : Nat) (f : Input → Input) : (s.updInp n f).cfgSeq = s.cfgSeq := rfl
@[simp] theorem updInp_pairs (s : State) (n : Nat) (f : Input → Input) : (s.updInp n f).pairs = s.pairs := rfl
@[simp] theorem updInp_encs (s : State) (n : Nat) (f : Input → Input) : (s.updInp n f).encs = s.encs := rfl
@[simp] theorem updInp_wets (s : State) (n : Nat) (f : Input → Input) : (s.updInp n f).wets = s.wets := rfl
@[simp] theorem updInp_outs (s : State) (n : Nat) (f : Input → Input) : (s.updInp n f).outs = s.outs := rfl
@[simp] theorem updInp_tps (s : State) (n : Nat) (f : Input → Input) : (s.updInp n f).tps = s.tps := rfl
@[simp] theorem updInp_halves (s : State) (n : Nat) (f : Input → Input) : (s.updInp n f).halves = s.halves := rfl
@[simp] theorem updInp_banks (s : State) (n : Nat) (f : Input → Input) : (s.updInp n f).banks = s.banks := rfl
@[simp] theorem updInp_ladle (s : State) (n : Nat) (f : Input → Input) : (s.updInp n f).ladle = s.ladle := rfl
@[simp] theorem updInp_lid (s : State) (n : Nat) (f : Input → Input) : (s.updInp n f).lid = s.lid := rfl
@[simp] theorem updInp_perm (s : State) (n : Nat) (f : Input → Input) : (s.updInp n f).perm = s.perm := rfl
@[simp] theorem updInp_engs (s : State) (n : Nat) (f : Input → Input) : (s.updInp n f).engs = s.engs := rfl
@[simp] theorem updInp_mems (s : State) (n : Nat) (f : Input → Input) : (s.updInp n f).mems = s.mems := rfl
@[simp] theorem updInp_epairs (s : State) (n : Nat) (f : Input → Input) : (s.updInp n f).epairs = s.epairs := rfl
@[simp] theorem updInp_regions (s : State) (n : Nat) (f : Input → Input) : (s.updInp n f).regions = s.regions := rfl
@[simp] theorem updInp_cells (s : State) (n : Nat) (f : Input → Input) : (s.updInp n f).cells = s.cells := rfl
@[simp] theorem updInp_ho (s : State) (n : Nat) (f : Input → Input) : (s.updInp n f).ho = s.ho := rfl
@[simp] theorem updInp_groups (s : State) (n : Nat) (f : Input → Input) : (s.updInp n f).groups = s.groups := rfl
@[simp] theorem updInp_axes (s : State) (n : Nat) (f : Input → Input) : (s.updInp n f).axes = s.axes := rfl
@[simp] theorem updInp_avail (s : State) (n : Nat) (f : Input → Input) : (s.updInp n f).avail = s.avail := rfl
@[simp] theorem updInp_net (s : State) (n : Nat) (f : Input → Input) : (s.updInp n f).net = s.net := rfl
@[simp] theorem updInp_flk (s : State) (n : Nat) (f : Input → Input) : (s.updInp n f).flk = s.flk := rfl
@[simp] theorem updInp_hif (s : State) (n : Nat) (f : Input → Input) : (s.updInp n f).hif = s.hif := rfl
@[simp] theorem updInp_store (s : State) (n : Nat) (f : Input → Input) : (s.updInp n f).store = s.store := rfl
@[simp] theorem updInp_recs (s : State) (n : Nat) (f : Input → Input) : (s.updInp n f).recs = s.recs := rfl
@[simp] theorem updInp_recSeq (s : State) (n : Nat) (f : Input → Input) : (s.updInp n f).recSeq = s.recSeq := rfl
@[simp] theorem updInp_bist (s : State) (n : Nat) (f : Input → Input) : (s.updInp n f).bist = s.bist := rfl
@[simp] theorem updInp_cvus (s : State) (n : Nat) (f : Input → Input) : (s.updInp n f).cvus = s.cvus := rfl
@[simp] theorem updInp_regs (s : State) (n : Nat) (f : Input → Input) : (s.updInp n f).regs = s.regs := rfl
@[simp] theorem updInp_setNow (s : State) (n : Nat) (f : Input → Input) : (s.updInp n f).setNow = s.setNow := rfl

/-! ### State.updPair -/

@[simp] theorem pair_updPair_same (s : State) (p : Nat) (f : InPair → InPair) : (s.updPair p f).pair p = f (s.pair p) := by
  simp [State.updPair, State.pair]

theorem pair_updPair (s : State) (p i : Nat) (f : InPair → InPair) :
    (s.updPair p f).pair i = if i = p then f (s.pair p) else s.pair i := by
  simp only [State.updPair, State.pair, get_upd]

@[simp] theorem updPair_pending (s : State) (p : Nat) (f : InPair → InPair) : (s.updPair p f).pending = s.pending := rfl
@[simp] theorem updPair_fresh (s : State) (p : Nat) (f : InPair → InPair) : (s.updPair p f).fresh = s.fresh := rfl
@[simp] theorem updPair_port (s : State) (p : Nat) (f : InPair → InPair) : (s.updPair p f).port = s.port := rfl
@[simp] theorem updPair_rd (s : State) (p : Nat) (f : InPair → InPair) : (s.updPair p f).rd = s.rd := rfl
@[simp] theorem updPair_pwr (s : State) (p : Nat) (f : InPair → InPair) : (s.updPair p f).pwr = s.pwr := rfl
@[simp] theorem updPair_sys (s : State) (p : Nat) (f : InPair → InPair) : (s.updPair p f).sys = s.sys := rfl
@[simp] theorem updPair_clk (s : State) (p : Nat) (f : InPair → InPair) : (s.updPair p f).clk = s.clk := rfl
@[simp] theorem updPair_tb (s : State) (p : Nat) (f : InPair → InPair) : (s.updPair p f).tb = s.tb := rfl
@[simp] theorem updPair_chans (s : State) (p : Nat) (f : InPair → InPair) : (s.updPair p f).chans = s.chans := rfl
@[simp] theorem updPair_units (s : State) (p : Nat) (f : InPair → InPair) : (s.updPair p f).units = s.units := rfl
@[simp] theorem updPair_cfg (s : State) (p : Nat) (f : InPair → InPair) : (s.updPair p f).cfg = s.cfg := rfl
@[simp] theorem updPair_loaded (s : State) (p : Nat) (f : InPair → InPair) : (s.updPair p f).loaded = s.loaded := rfl
@[simp] theorem updPair_cfgSeq (s : State) (p : Nat) (f : InPair → InPair) : (s.updPair p f).cfgSeq = s.cfgSeq := rfl
@[simp] theorem updPair_ins (s : State) (p : Nat) (f : InPair → InPair) : (s.updPair p f).ins = s.ins := rfl
@[simp] theorem updPair_encs (s : State) (p : Nat) (f : InPair → InPair) : (s.updPair p f).encs = s.encs := rfl
@[simp] theorem updPair_wets (s : State) (p : Nat) (f : InPair → InPair) : (s.updPair p f).wets = s.wets := rfl
@[simp] theorem updPair_outs (s : State) (p : Nat) (f : InPair → InPair) : (s.updPair p f).outs = s.outs := rfl
@[simp] theorem updPair_tps (s : State) (p : Nat) (f : InPair → InPair) : (s.updPair p f).tps = s.tps := rfl
@[simp] theorem updPair_halves (s : State) (p : Nat) (f : InPair → InPair) : (s.updPair p f).halves = s.halves := rfl
@[simp] theorem updPair_banks (s : State) (p : Nat) (f : InPair → InPair) : (s.updPair p f).banks = s.banks := rfl
@[simp] theorem updPair_ladle (s : State) (p : Nat) (f : InPair → InPair) : (s.updPair p f).ladle = s.ladle := rfl
@[simp] theorem updPair_lid (s : State) (p : Nat) (f : InPair → InPair) : (s.updPair p f).lid = s.lid := rfl
@[simp] theorem updPair_perm (s : State) (p : Nat) (f : InPair → InPair) : (s.updPair p f).perm = s.perm := rfl
@[simp] theorem updPair_engs (s : State) (p : Nat) (f : InPair → InPair) : (s.updPair p f).engs = s.engs := rfl
@[simp] theorem updPair_mems (s : State) (p : Nat) (f : InPair → InPair) : (s.updPair p f).mems = s.mems := rfl
@[simp] theorem updPair_epairs (s : State) (p : Nat) (f : InPair → InPair) : (s.updPair p f).epairs = s.epairs := rfl
@[simp] theorem updPair_regions (s : State) (p : Nat) (f : InPair → InPair) : (s.updPair p f).regions = s.regions := rfl
@[simp] theorem updPair_cells (s : State) (p : Nat) (f : InPair → InPair) : (s.updPair p f).cells = s.cells := rfl
@[simp] theorem updPair_ho (s : State) (p : Nat) (f : InPair → InPair) : (s.updPair p f).ho = s.ho := rfl
@[simp] theorem updPair_groups (s : State) (p : Nat) (f : InPair → InPair) : (s.updPair p f).groups = s.groups := rfl
@[simp] theorem updPair_axes (s : State) (p : Nat) (f : InPair → InPair) : (s.updPair p f).axes = s.axes := rfl
@[simp] theorem updPair_avail (s : State) (p : Nat) (f : InPair → InPair) : (s.updPair p f).avail = s.avail := rfl
@[simp] theorem updPair_net (s : State) (p : Nat) (f : InPair → InPair) : (s.updPair p f).net = s.net := rfl
@[simp] theorem updPair_flk (s : State) (p : Nat) (f : InPair → InPair) : (s.updPair p f).flk = s.flk := rfl
@[simp] theorem updPair_hif (s : State) (p : Nat) (f : InPair → InPair) : (s.updPair p f).hif = s.hif := rfl
@[simp] theorem updPair_store (s : State) (p : Nat) (f : InPair → InPair) : (s.updPair p f).store = s.store := rfl
@[simp] theorem updPair_recs (s : State) (p : Nat) (f : InPair → InPair) : (s.updPair p f).recs = s.recs := rfl
@[simp] theorem updPair_recSeq (s : State) (p : Nat) (f : InPair → InPair) : (s.updPair p f).recSeq = s.recSeq := rfl
@[simp] theorem updPair_bist (s : State) (p : Nat) (f : InPair → InPair) : (s.updPair p f).bist = s.bist := rfl
@[simp] theorem updPair_cvus (s : State) (p : Nat) (f : InPair → InPair) : (s.updPair p f).cvus = s.cvus := rfl
@[simp] theorem updPair_regs (s : State) (p : Nat) (f : InPair → InPair) : (s.updPair p f).regs = s.regs := rfl
@[simp] theorem updPair_setNow (s : State) (p : Nat) (f : InPair → InPair) : (s.updPair p f).setNow = s.setNow := rfl

/-! ### State.updEnc -/

@[simp] theorem enc_updEnc_same (s : State) (e : Nat) (f : Encoder → Encoder) : (s.updEnc e f).enc e = f (s.enc e) := by
  simp [State.updEnc, State.enc]

theorem enc_updEnc (s : State) (e i : Nat) (f : Encoder → Encoder) :
    (s.updEnc e f).enc i = if i = e then f (s.enc e) else s.enc i := by
  simp only [State.updEnc, State.enc, get_upd]

@[simp] theorem updEnc_pending (s : State) (e : Nat) (f : Encoder → Encoder) : (s.updEnc e f).pending = s.pending := rfl
@[simp] theorem updEnc_fresh (s : State) (e : Nat) (f : Encoder → Encoder) : (s.updEnc e f).fresh = s.fresh := rfl
@[simp] theorem updEnc_port (s : State) (e : Nat) (f : Encoder → Encoder) : (s.updEnc e f).port = s.port := rfl
@[simp] theorem updEnc_rd (s : State) (e : Nat) (f : Encoder → Encoder) : (s.updEnc e f).rd = s.rd := rfl
@[simp] theorem updEnc_pwr (s : State) (e : Nat) (f : Encoder → Encoder) : (s.updEnc e f).pwr = s.pwr := rfl
@[simp] theorem updEnc_sys (s : State) (e : Nat) (f : Encoder → Encoder) : (s.updEnc e f).sys = s.sys := rfl
@[simp] theorem updEnc_clk (s : State) (e : Nat) (f : Encoder → Encoder) : (s.updEnc e f).clk = s.clk := rfl
@[simp] theorem updEnc_tb (s : State) (e : Nat) (f : Encoder → Encoder) : (s.updEnc e f).tb = s.tb := rfl
@[simp] theorem updEnc_chans (s : State) (e : Nat) (f : Encoder → Encoder) : (s.updEnc e f).chans = s.chans := rfl
@[simp] theorem updEnc_units (s : State) (e : Nat) (f : Encoder → Encoder) : (s.updEnc e f).units = s.units := rfl
@[simp] theorem updEnc_cfg (s : State) (e : Nat) (f : Encoder → Encoder) : (s.updEnc e f).cfg = s.cfg := rfl
@[simp] theorem updEnc_loaded (s : State) (e : Nat) (f : Encoder → Encoder) : (s.updEnc e f).loaded = s.loaded := rfl
@[simp] theorem updEnc_cfgSeq (s : State) (e : Nat) (f : Encoder → Encoder) : (s.updEnc e f).cfgSeq = s.cfgSeq := rfl
@[simp] theorem updEnc_ins (s : State) (e : Nat) (f : Encoder → Encoder) : (s.updEnc e f).ins = s.ins := rfl
@[simp] theorem updEnc_pairs (s : State) (e : Nat) (f : Encoder → Encoder) : (s.updEnc e f).pairs = s.pairs := rfl
@[simp] theorem updEnc_wets (s : State) (e : Nat) (f : Encoder → Encoder) : (s.updEnc e f).wets = s.wets := rfl
@[simp] theorem updEnc_outs (s : State) (e : Nat) (f : Encoder → Encoder) : (s.updEnc e f).outs = s.outs := rfl
@[simp] theorem updEnc_tps (s : State) (e : Nat) (f : Encoder → Encoder) : (s.updEnc e f).tps = s.tps := rfl
@[simp] theorem updEnc_halves (s : State) (e : Nat) (f : Encoder → Encoder) : (s.updEnc e f).halves = s.halves := rfl
@[simp] theorem updEnc_banks (s : State) (e : Nat) (f : Encoder → Encoder) : (s.updEnc e f).banks = s.banks := rfl
@[simp] theorem updEnc_ladle (s : State) (e : Nat) (f : Encoder → Encoder) : (s.updEnc e f).ladle = s.ladle := rfl
@[simp] theorem updEnc_lid (s : State) (e : Nat) (f : Encoder → Encoder) : (s.updEnc e f).lid = s.lid := rfl
@[simp] theorem updEnc_perm (s : State) (e : Nat) (f : Encoder → Encoder) : (s.updEnc e f).perm = s.perm := rfl
@[simp] theorem updEnc_engs (s : State) (e : Nat) (f : Encoder → Encoder) : (s.updEnc e f).engs = s.engs := rfl
@[simp] theorem updEnc_mems (s : State) (e : Nat) (f : Encoder → Encoder) : (s.updEnc e f).mems = s.mems := rfl
@[simp] theorem updEnc_epairs (s : State) (e : Nat) (f : Encoder → Encoder) : (s.updEnc e f).epairs = s.epairs := rfl
@[simp] theorem updEnc_regions (s : State) (e : Nat) (f : Encoder → Encoder) : (s.updEnc e f).regions = s.regions := rfl
@[simp] theorem updEnc_cells (s : State) (e : Nat) (f : Encoder → Encoder) : (s.updEnc e f).cells = s.cells := rfl
@[simp] theorem updEnc_ho (s : State) (e : Nat) (f : Encoder → Encoder) : (s.updEnc e f).ho = s.ho := rfl
@[simp] theorem updEnc_groups (s : State) (e : Nat) (f : Encoder → Encoder) : (s.updEnc e f).groups = s.groups := rfl
@[simp] theorem updEnc_axes (s : State) (e : Nat) (f : Encoder → Encoder) : (s.updEnc e f).axes = s.axes := rfl
@[simp] theorem updEnc_avail (s : State) (e : Nat) (f : Encoder → Encoder) : (s.updEnc e f).avail = s.avail := rfl
@[simp] theorem updEnc_net (s : State) (e : Nat) (f : Encoder → Encoder) : (s.updEnc e f).net = s.net := rfl
@[simp] theorem updEnc_flk (s : State) (e : Nat) (f : Encoder → Encoder) : (s.updEnc e f).flk = s.flk := rfl
@[simp] theorem updEnc_hif (s : State) (e : Nat) (f : Encoder → Encoder) : (s.updEnc e f).hif = s.hif := rfl
@[simp] theorem updEnc_store (s : State) (e : Nat) (f : Encoder → Encoder) : (s.updEnc e f).store = s.store := rfl
@[simp] theorem updEnc_recs (s : State) (e : Nat) (f : Encoder → Encoder) : (s.updEnc e f).recs = s.recs := rfl
@[simp] theorem updEnc_recSeq (s : State) (e : Nat) (f : Encoder → Encoder) : (s.updEnc e f).recSeq = s.recSeq := rfl
@[simp] theorem updEnc_bist (s : State) (e : Nat) (f : Encoder → Encoder) : (s.updEnc e f).bist = s.bist := rfl
@[simp] theorem updEnc_cvus (s : State) (e : Nat) (f : Encoder → Encoder) : (s.updEnc e f).cvus = s.cvus := rfl
@[simp] theorem updEnc_regs (s : State) (e : Nat) (f : Encoder → Encoder) : (s.updEnc e f).regs = s.regs := rfl
@[simp] theorem updEnc_setNow (s : State) (e : Nat) (f : Encoder → Encoder) : (s.updEnc e f).setNow = s.setNow := rfl

/-! ### State.updOut -/

@[simp] theorem out_updOut_same (s : State) (o : Nat) (f : Output → Output) : (s.updOut o f).out o = f (s.out o) := by
  simp [State.updOut, State.out]

theorem out_updOut (s : State) (o i : Nat) (f : Output → Output) :
    (s.updOut o f).out i = if i = o then f (s.out o) else s.out i := by
  simp only [State.updOut, State.out, get_upd]

@[simp] theorem updOut_pending (s : State) (o : Nat) (f : Output → Output) : (s.updOut o f).pending = s.pending := rfl
@[simp] theorem updOut_fresh (s : State) (o : Nat) (f : Output → Output) : (s.updOut o f).fresh = s.fresh := rfl
@[simp] theorem updOut_port (s : State) (o : Nat) (f : Output → Output) : (s.updOut o f).port = s.port := rfl
@[simp] theorem updOut_rd (s : State) (o : Nat) (f : Output → Output) : (s.updOut o f).rd = s.rd := rfl
@[simp] theorem updOut_pwr (s : State) (o : Nat) (f : Output → Output) : (s.updOut o f).pwr = s.pwr := rfl
@[simp] theorem updOut_sys (s : State) (o : Nat) (f : Output → Output) : (s.updOut o f).sys = s.sys := rfl
@[simp] theorem updOut_clk (s : State) (o : Nat) (f : Output → Output) : (s.updOut o f).clk = s.clk := rfl
@[simp] theorem updOut_tb (s : State) (o : Nat) (f : Output → Output) : (s.updOut o f).tb = s.tb := rfl
@[simp] theorem updOut_chans (s : State) (o : Nat) (f : Output → Output) : (s.updOut o f).chans = s.chans := rfl
@[simp] theorem updOut_units (s : State) (o : Nat) (f : Output → Output) : (s.updOut o f).units = s.units := rfl
@[simp] theorem updOut_cfg (s : State) (o : Nat) (f : Output → Output) : (s.updOut o f).cfg = s.cfg := rfl
@[simp] theorem updOut_loaded (s : State) (o : Nat) (f : Output → Output) : (s.updOut o f).loaded = s.loaded := rfl
@[simp] theorem updOut_cfgSeq (s : State) (o : Nat) (f : Output → Output) : (s.updOut o f).cfgSeq = s.cfgSeq := rfl
@[simp] theorem updOut_ins (s : State) (o : Nat) (f : Output → Output) : (s.updOut o f).ins = s.ins := rfl
@[simp] theorem updOut_pairs (s : State) (o : Nat) (f : Output → Output) : (s.updOut o f).pairs = s.pairs := rfl
@[simp] theorem updOut_encs (s : State) (o : Nat) (f : Output → Output) : (s.updOut o f).encs = s.encs := rfl
@[simp] theorem updOut_wets (s : State) (o : Nat) (f : Output → Output) : (s.updOut o f).wets = s.wets := rfl
@[simp] theorem updOut_tps (s : State) (o : Nat) (f : Output → Output) : (s.updOut o f).tps = s.tps := rfl
@[simp] theorem updOut_halves (s : State) (o : Nat) (f : Output → Output) : (s.updOut o f).halves = s.halves := rfl
@[simp] theorem updOut_banks (s : State) (o : Nat) (f : Output → Output) : (s.updOut o f).banks = s.banks := rfl
@[simp] theorem updOut_ladle (s : State) (o : Nat) (f : Output → Output) : (s.updOut o f).ladle = s.ladle := rfl
@[simp] theorem updOut_lid (s : State) (o : Nat) (f : Output → Output) : (s.updOut o f).lid = s.lid := rfl
@[simp] theorem updOut_perm (s : State) (o : Nat) (f : Output → Output) : (s.updOut o f).perm = s.perm := rfl
@[simp] theorem updOut_engs (s : State) (o : Nat) (f : Output → Output) : (s.updOut o f).engs = s.engs := rfl
@[simp] theorem updOut_mems (s : State) (o : Nat) (f : Output → Output) : (s.updOut o f).mems = s.mems := rfl
@[simp] theorem updOut_epairs (s : State) (o : Nat) (f : Output → Output) : (s.updOut o f).epairs = s.epairs := rfl
@[simp] theorem updOut_regions (s : State) (o : Nat) (f : Output → Output) : (s.updOut o f).regions = s.regions := rfl
@[simp] theorem updOut_cells (s : State) (o : Nat) (f : Output → Output) : (s.updOut o f).cells = s.cells := rfl
@[simp] theorem updOut_ho (s : State) (o : Nat) (f : Output → Output) : (s.updOut o f).ho = s.ho := rfl
@[simp] theorem updOut_groups (s : State) (o : Nat) (f : Output → Output) : (s.updOut o f).groups = s.groups := rfl
@[simp] theorem updOut_axes (s : State) (o : Nat) (f : Output → Output) : (s.updOut o f).axes = s.axes := rfl
@[simp] theorem updOut_avail (s : State) (o : Nat) (f : Output → Output) : (s.updOut o f).avail = s.avail := rfl
@[simp] theorem updOut_net (s : State) (o : Nat) (f : Output → Output) : (s.updOut o f).net = s.net := rfl
@[simp] theorem updOut_flk (s : State) (o : Nat) (f : Output → Output) : (s.updOut o f).flk = s.flk := rfl
@[simp] theorem updOut_hif (s : State) (o : Nat) (f : Output → Output) : (s.updOut o f).hif = s.hif := rfl
@[simp] theorem updOut_store (s : State) (o : Nat) (f : Output → Output) : (s.updOut o f).store = s.store := rfl
@[simp] theorem updOut_recs (s : State) (o : Nat) (f : Output → Output) : (s.updOut o f).recs = s.recs := rfl
@[simp] theorem updOut_recSeq (s : State) (o : Nat) (f : Output → Output) : (s.updOut o f).recSeq = s.recSeq := rfl
@[simp] theorem updOut_bist (s : State) (o : Nat) (f : Output → Output) : (s.updOut o f).bist = s.bist := rfl
@[simp] theorem updOut_cvus (s : State) (o : Nat) (f : Output → Output) : (s.updOut o f).cvus = s.cvus := rfl
@[simp] theorem updOut_regs (s : State) (o : Nat) (f : Output → Output) : (s.updOut o f).regs = s.regs := rfl
@[simp] theorem updOut_setNow (s : State) (o : Nat) (f : Output → Output) : (s.updOut o f).setNow = s.setNow := rfl

/-! ### State.updTp -/

@[simp] theorem tp_updTp_same (s : State) (t : Nat) (f : Source → Source) : (s.updTp t f).tp t = f (s.tp t) := by
  simp [State.updTp, State.tp]

theorem tp_updTp (s : State) (t i : Nat) (f : Source → Source) :
    (s.updTp t f).tp i = if i = t then f (s.tp t) else s.tp i := by
  simp only [State.updTp, State.tp, get_upd]

@[simp] theorem updTp_pending (s : State) (t : Nat) (f : Source → Source) : (s.updTp t f).pending = s.pending := rfl
@[simp] theorem updTp_fresh (s : State) (t : Nat) (f : Source → Source) : (s.updTp t f).fresh = s.fresh := rfl
@[simp] theorem updTp_port (s : State) (t : Nat) (f : Source → Source) : (s.updTp t f).port = s.port := rfl
@[simp] theorem updTp_rd (s : State) (t : Nat) (f : Source → Source) : (s.updTp t f).rd = s.rd := rfl
@[simp] theorem updTp_pwr (s : State) (t : Nat) (f : Source → Source) : (s.updTp t f).pwr = s.pwr := rfl
@[simp] theorem updTp_sys (s : State) (t : Nat) (f : Source → Source) : (s.updTp t f).sys = s.sys := rfl
@[simp] theorem updTp_clk (s : State) (t : Nat) (f : Source → Source) : (s.updTp t f).clk = s.clk := rfl
@[simp] theorem updTp_tb (s : State) (t : Nat) (f : Source → Source) : (s.updTp t f).tb = s.tb := rfl
@[simp] theorem updTp_chans (s : State) (t : Nat) (f : Source → Source) : (s.updTp t f).chans = s.chans := rfl
@[simp] theorem updTp_units (s : State) (t : Nat) (f : Source → Source) : (s.updTp t f).units = s.units := rfl
@[simp] theorem updTp_cfg (s : State) (t : Nat) (f : Source → Source) : (s.updTp t f).cfg = s.cfg := rfl
@[simp] theorem updTp_loaded (s : State) (t : Nat) (f : Source → Source) : (s.updTp t f).loaded = s.loaded := rfl
@[simp] theorem updTp_cfgSeq (s : State) (t : Nat) (f : Source → Source) : (s.updTp t f).cfgSeq = s.cfgSeq := rfl
@[simp] theorem updTp_ins (s : State) (t : Nat) (f : Source → Source) : (s.updTp t f).ins = s.ins := rfl
@[simp] theorem updTp_pairs (s : State) (t : Nat) (f : Source → Source) : (s.updTp t f).pairs = s.pairs := rfl
@[simp] theorem updTp_encs (s : State) (t : Nat) (f : Source → Source) : (s.updTp t f).encs = s.encs := rfl
@[simp] theorem updTp_wets (s : State) (t : Nat) (f : Source → Source) : (s.updTp t f).wets = s.wets := rfl
@[simp] theorem updTp_outs (s : State) (t : Nat) (f : Source → Source) : (s.updTp t f).outs = s.outs := rfl
@[simp] theorem updTp_halves (s : State) (t : Nat) (f : Source → Source) : (s.updTp t f).halves = s.halves := rfl
@[simp] theorem updTp_banks (s : State) (t : Nat) (f : Source → Source) : (s.updTp t f).banks = s.banks := rfl
@[simp] theorem updTp_ladle (s : State) (t : Nat) (f : Source → Source) : (s.updTp t f).ladle = s.ladle := rfl
@[simp] theorem updTp_lid (s : State) (t : Nat) (f : Source → Source) : (s.updTp t f).lid = s.lid := rfl
@[simp] theorem updTp_perm (s : State) (t : Nat) (f : Source → Source) : (s.updTp t f).perm = s.perm := rfl
@[simp] theorem updTp_engs (s : State) (t : Nat) (f : Source → Source) : (s.updTp t f).engs = s.engs := rfl
@[simp] theorem updTp_mems (s : State) (t : Nat) (f : Source → Source) : (s.updTp t f).mems = s.mems := rfl
@[simp] theorem updTp_epairs (s : State) (t : Nat) (f : Source → Source) : (s.updTp t f).epairs = s.epairs := rfl
@[simp] theorem updTp_regions (s : State) (t : Nat) (f : Source → Source) : (s.updTp t f).regions = s.regions := rfl
@[simp] theorem updTp_cells (s : State) (t : Nat) (f : Source → Source) : (s.updTp t f).cells = s.cells := rfl
@[simp] theorem updTp_ho (s : State) (t : Nat) (f : Source → Source) : (s.updTp t f).ho = s.ho := rfl
@[simp] theorem updTp_groups (s : State) (t : Nat) (f : Source → Source) : (s.updTp t f).groups = s.groups := rfl
@[simp] theorem updTp_axes (s : State) (t : Nat) (f : Source → Source) : (s.updTp t f).axes = s.axes := rfl
@[simp] theorem updTp_avail (s : State) (t : Nat) (f : Source → Source) : (s.updTp t f).avail = s.avail := rfl
@[simp] theorem updTp_net (s : State) (t : Nat) (f : Source → Source) : (s.updTp t f).net = s.net := rfl
@[simp] theorem updTp_flk (s : State) (t : Nat) (f : Source → Source) : (s.updTp t f).flk = s.flk := rfl
@[simp] theorem updTp_hif (s : State) (t : Nat) (f : Source → Source) : (s.updTp t f).hif = s.hif := rfl
@[simp] theorem updTp_store (s : State) (t : Nat) (f : Source → Source) : (s.updTp t f).store = s.store := rfl
@[simp] theorem updTp_recs (s : State) (t : Nat) (f : Source → Source) : (s.updTp t f).recs = s.recs := rfl
@[simp] theorem updTp_recSeq (s : State) (t : Nat) (f : Source → Source) : (s.updTp t f).recSeq = s.recSeq := rfl
@[simp] theorem updTp_bist (s : State) (t : Nat) (f : Source → Source) : (s.updTp t f).bist = s.bist := rfl
@[simp] theorem updTp_cvus (s : State) (t : Nat) (f : Source → Source) : (s.updTp t f).cvus = s.cvus := rfl
@[simp] theorem updTp_regs (s : State) (t : Nat) (f : Source → Source) : (s.updTp t f).regs = s.regs := rfl
@[simp] theorem updTp_setNow (s : State) (t : Nat) (f : Source → Source) : (s.updTp t f).setNow = s.setNow := rfl

/-! ### State.updBank -/

@[simp] theorem bank_updBank_same (s : State) (b : Nat) (f : FBank → FBank) : (s.updBank b f).bank b = f (s.bank b) := by
  simp [State.updBank, State.bank]

theorem bank_updBank (s : State) (b i : Nat) (f : FBank → FBank) :
    (s.updBank b f).bank i = if i = b then f (s.bank b) else s.bank i := by
  simp only [State.updBank, State.bank, get_upd]

@[simp] theorem updBank_pending (s : State) (b : Nat) (f : FBank → FBank) : (s.updBank b f).pending = s.pending := rfl
@[simp] theorem updBank_fresh (s : State) (b : Nat) (f : FBank → FBank) : (s.updBank b f).fresh = s.fresh := rfl
@[simp] theorem updBank_port (s : State) (b : Nat) (f : FBank → FBank) : (s.updBank b f).port = s.port := rfl
@[simp] theorem updBank_rd (s : State) (b : Nat) (f : FBank → FBank) : (s.updBank b f).rd = s.rd := rfl
@[simp] theorem updBank_pwr (s : State) (b : Nat) (f : FBank → FBank) : (s.updBank b f).pwr = s.pwr := rfl
@[simp] theorem updBank_sys (s : State) (b : Nat) (f : FBank → FBank) : (s.updBank b f).sys = s.sys := rfl
@[simp] theorem updBank_clk (s : State) (b : Nat) (f : FBank → FBank) : (s.updBank b f).clk = s.clk := rfl
@[simp] theorem updBank_tb (s : State) (b : Nat) (f : FBank → FBank) : (s.updBank b f).tb = s.tb := rfl
@[simp] theorem updBank_chans (s : State) (b : Nat) (f : FBank → FBank) : (s.updBank b f).chans = s.chans := rfl
@[simp] theorem updBank_units (s : State) (b : Nat) (f : FBank → FBank) : (s.updBank b f).units = s.units := rfl
@[simp] theorem updBank_cfg (s : State) (b : Nat) (f : FBank → FBank) : (s.updBank b f).cfg = s.cfg := rfl
@[simp] theorem updBank_loaded (s : State) (b : Nat) (f : FBank → FBank) : (s.updBank b f).loaded = s.loaded := rfl
@[simp] theorem updBank_cfgSeq (s : State) (b : Nat) (f : FBank → FBank) : (s.updBank b f).cfgSeq = s.cfgSeq := rfl
@[simp] theorem updBank_ins (s : State) (b : Nat) (f : FBank → FBank) : (s.updBank b f).ins = s.ins := rfl
@[simp] theorem updBank_pairs (s : State) (b : Nat) (f : FBank → FBank) : (s.updBank b f).pairs = s.pairs := rfl
@[simp] theorem updBank_encs (s : State) (b : Nat) (f : FBank → FBank) : (s.updBank b f).encs = s.encs := rfl
@[simp] theorem updBank_wets (s : State) (b : Nat) (f : FBank → FBank) : (s.updBank b f).wets = s.wets := rfl
@[simp] theorem updBank_outs (s : State) (b : Nat) (f : FBank → FBank) : (s.updBank b f).outs = s.outs := rfl
@[simp] theorem updBank_tps (s : State) (b : Nat) (f : FBank → FBank) : (s.updBank b f).tps = s.tps := rfl
@[simp] theorem updBank_halves (s : State) (b : Nat) (f : FBank → FBank) : (s.updBank b f).halves = s.halves := rfl
@[simp] theorem updBank_ladle (s : State) (b : Nat) (f : FBank → FBank) : (s.updBank b f).ladle = s.ladle := rfl
@[simp] theorem updBank_lid (s : State) (b : Nat) (f : FBank → FBank) : (s.updBank b f).lid = s.lid := rfl
@[simp] theorem updBank_perm (s : State) (b : Nat) (f : FBank → FBank) : (s.updBank b f).perm = s.perm := rfl
@[simp] theorem updBank_engs (s : State) (b : Nat) (f : FBank → FBank) : (s.updBank b f).engs = s.engs := rfl
@[simp] theorem updBank_mems (s : State) (b : Nat) (f : FBank → FBank) : (s.updBank b f).mems = s.mems := rfl
@[simp] theorem updBank_epairs (s : State) (b : Nat) (f : FBank → FBank) : (s.updBank b f).epairs = s.epairs := rfl
@[simp] theorem updBank_regions (s : State) (b : Nat) (f : FBank → FBank) : (s.updBank b f).regions = s.regions := rfl
@[simp] theorem updBank_cells (s : State) (b : Nat) (f : FBank → FBank) : (s.updBank b f).cells = s.cells := rfl
@[simp] theorem updBank_ho (s : State) (b : Nat) (f : FBank → FBank) : (s.updBank b f).ho = s.ho := rfl
@[simp] theorem updBank_groups (s : State) (b : Nat) (f : FBank → FBank) : (s.updBank b f).groups = s.groups := rfl
@[simp] theorem updBank_axes (s : State) (b : Nat) (f : FBank → FBank) : (s.updBank b f).axes = s.axes := rfl
@[simp] theorem updBank_avail (s : State) (b : Nat) (f : FBank → FBank) : (s.updBank b f).avail = s.avail := rfl
@[simp] theorem updBank_net (s : State) (b : Nat) (f : FBank → FBank) : (s.updBank b f).net = s.net := rfl
@[simp] theorem updBank_flk (s : State) (b : Nat) (f : FBank → FBank) : (s.updBank b f).flk = s.flk := rfl
@[simp] theorem updBank_hif (s : State) (b : Nat) (f : FBank → FBank) : (s.updBank b f).hif = s.hif := rfl
@[simp] theorem updBank_store (s : State) (b : Nat) (f : FBank → FBank) : (s.updBank b f).store = s.store := rfl
@[simp] theorem updBank_recs (s : State) (b : Nat) (f : FBank → FBank) : (s.updBank b f).recs = s.recs := rfl
@[simp] theorem updBank_recSeq (s : State) (b : Nat) (f : FBank → FBank) : (s.updBank b f).recSeq = s.recSeq := rfl
@[simp] theorem updBank_bist (s : State) (b : Nat) (f : FBank → FBank) : (s.updBank b f).bist = s.bist := rfl
@[simp] theorem updBank_cvus (s : State) (b : Nat) (f : FBank → FBank) : (s.updBank b f).cvus = s.cvus := rfl
@[simp] theorem updBank_regs (s : State) (b : Nat) (f : FBank → FBank) : (s.updBank b f).regs = s.regs := rfl
@[simp] theorem updBank_setNow (s : State) (b : Nat) (f : FBank → FBank) : (s.updBank b f).setNow = s.setNow := rfl

/-! ### State.updClu -/

@[simp] theorem clu_updClu_same (s : State) (c : Nat) (f : Cluster → Cluster) : (s.updClu c f).clu c = f (s.clu c) := by
  simp [State.updClu, State.clu]

theorem clu_updClu (s : State) (c i : Nat) (f : Cluster → Cluster) :
    (s.updClu c f).clu i = if i = c then f (s.clu c) else s.clu i := by
  simp only [State.updClu, State.clu, get_upd]

@[simp] theorem updClu_pending (s : State) (c : Nat) (f : Cluster → Cluster) : (s.updClu c f).pending = s.pending := rfl
@[simp] theorem updClu_fresh (s : State) (c : Nat) (f : Cluster → Cluster) : (s.updClu c f).fresh = s.fresh := rfl
@[simp] theorem updClu_port (s : State) (c : Nat) (f : Cluster → Cluster) : (s.updClu c f).port = s.port := rfl
@[simp] theorem updClu_rd (s : State) (c : Nat) (f : Cluster → Cluster) : (s.updClu c f).rd = s.rd := rfl
@[simp] theorem updClu_pwr (s : State) (c : Nat) (f : Cluster → Cluster) : (s.updClu c f).pwr = s.pwr := rfl
@[simp] theorem updClu_sys (s : State) (c : Nat) (f : Cluster → Cluster) : (s.updClu c f).sys = s.sys := rfl
@[simp] theorem updClu_clk (s : State) (c : Nat) (f : Cluster → Cluster) : (s.updClu c f).clk = s.clk := rfl
@[simp] theorem updClu_tb (s : State) (c : Nat) (f : Cluster → Cluster) : (s.updClu c f).tb = s.tb := rfl
@[simp] theorem updClu_chans (s : State) (c : Nat) (f : Cluster → Cluster) : (s.updClu c f).chans = s.chans := rfl
@[simp] theorem updClu_units (s : State) (c : Nat) (f : Cluster → Cluster) : (s.updClu c f).units = s.units := rfl
@[simp] theorem updClu_cfg (s : State) (c : Nat) (f : Cluster → Cluster) : (s.updClu c f).cfg = s.cfg := rfl
@[simp] theorem updClu_loaded (s : State) (c : Nat) (f : Cluster → Cluster) : (s.updClu c f).loaded = s.loaded := rfl
@[simp] theorem updClu_cfgSeq (s : State) (c : Nat) (f : Cluster → Cluster) : (s.updClu c f).cfgSeq = s.cfgSeq := rfl
@[simp] theorem updClu_ins (s : State) (c : Nat) (f : Cluster → Cluster) : (s.updClu c f).ins = s.ins := rfl
@[simp] theorem updClu_pairs (s : State) (c : Nat) (f : Cluster → Cluster) : (s.updClu c f).pairs = s.pairs := rfl
@[simp] theorem updClu_encs (s : State) (c : Nat) (f : Cluster → Cluster) : (s.updClu c f).encs = s.encs := rfl
@[simp] theorem updClu_wets (s : State) (c : Nat) (f : Cluster → Cluster) : (s.updClu c f).wets = s.wets := rfl
@[simp] theorem updClu_outs (s : State) (c : Nat) (f : Cluster → Cluster) : (s.updClu c f).outs = s.outs := rfl
@[simp] theorem updClu_tps (s : State) (c : Nat) (f : Cluster → Cluster) : (s.updClu c f).tps = s.tps := rfl
@[simp] theorem updClu_halves (s : State) (c : Nat) (f : Cluster → Cluster) : (s.updClu c f).halves = s.halves := rfl
@[simp] theorem updClu_banks (s : State) (c : Nat) (f : Cluster → Cluster) : (s.updClu c f).banks = s.banks := rfl
@[simp] theorem updClu_ladle (s : State) (c : Nat) (f : Cluster → Cluster) : (s.updClu c f).ladle = s.ladle := rfl
@[simp] theorem updClu_lid (s : State) (c : Nat) (f : Cluster → Cluster) : (s.updClu c f).lid = s.lid := rfl
@[simp] theorem updClu_perm (s : State) (c : Nat) (f : Cluster → Cluster) : (s.updClu c f).perm = s.perm := rfl
@[simp] theorem updClu_engs (s : State) (c : Nat) (f : Cluster → Cluster) : (s.updClu c f).engs = s.engs := rfl
@[simp] theorem updClu_epairs (s : State) (c : Nat) (f : Cluster → Cluster) : (s.updClu c f).epairs = s.epairs := rfl
@[simp] theorem updClu_regions (s : State) (c : Nat) (f : Cluster → Cluster) : (s.updClu c f).regions = s.regions := rfl
@[simp] theorem updClu_cells (s : State) (c : Nat) (f : Cluster → Cluster) : (s.updClu c f).cells = s.cells := rfl
@[simp] theorem updClu_ho (s : State) (c : Nat) (f : Cluster → Cluster) : (s.updClu c f).ho = s.ho := rfl
@[simp] theorem updClu_groups (s : State) (c : Nat) (f : Cluster → Cluster) : (s.updClu c f).groups = s.groups := rfl
@[simp] theorem updClu_axes (s : State) (c : Nat) (f : Cluster → Cluster) : (s.updClu c f).axes = s.axes := rfl
@[simp] theorem updClu_avail (s : State) (c : Nat) (f : Cluster → Cluster) : (s.updClu c f).avail = s.avail := rfl
@[simp] theorem updClu_net (s : State) (c : Nat) (f : Cluster → Cluster) : (s.updClu c f).net = s.net := rfl
@[simp] theorem updClu_flk (s : State) (c : Nat) (f : Cluster → Cluster) : (s.updClu c f).flk = s.flk := rfl
@[simp] theorem updClu_hif (s : State) (c : Nat) (f : Cluster → Cluster) : (s.updClu c f).hif = s.hif := rfl
@[simp] theorem updClu_store (s : State) (c : Nat) (f : Cluster → Cluster) : (s.updClu c f).store = s.store := rfl
@[simp] theorem updClu_recs (s : State) (c : Nat) (f : Cluster → Cluster) : (s.updClu c f).recs = s.recs := rfl
@[simp] theorem updClu_recSeq (s : State) (c : Nat) (f : Cluster → Cluster) : (s.updClu c f).recSeq = s.recSeq := rfl
@[simp] theorem updClu_bist (s : State) (c : Nat) (f : Cluster → Cluster) : (s.updClu c f).bist = s.bist := rfl
@[simp] theorem updClu_cvus (s : State) (c : Nat) (f : Cluster → Cluster) : (s.updClu c f).cvus = s.cvus := rfl
@[simp] theorem updClu_regs (s : State) (c : Nat) (f : Cluster → Cluster) : (s.updClu c f).regs = s.regs := rfl
@[simp] theorem updClu_setNow (s : State) (c : Nat) (f : Cluster → Cluster) : (s.updClu c f).setNow = s.setNow := rfl

/-! ### State.updEPair -/

@[simp] theorem epair_updEPair_same (s : State) (k : Nat) (f : EPair → EPair) : (s.updEPair k f).epair k = f (s.epair k) := by
  simp [State.updEPair, State.epair]

theorem epair_updEPair (s : State) (k i : Nat) (f : EPair → EPair) :
    (s.updEPair k f).epair i = if i = k then f (s.epair k) else s.epair i := by
  simp only [State.updEPair, State.epair, get_upd]

@[simp] theorem updEPair_pending (s : State) (k : Nat) (f : EPair → EPair) : (s.updEPair k f).pending = s.pending := rfl
@[simp] theorem updEPair_fresh (s : State) (k : Nat) (f : EPair → EPair) : (s.updEPair k f).fresh = s.fresh := rfl
@[simp] theorem updEPair_port (s : State) (k : Nat) (f : EPair → EPair) : (s.updEPair k f).port = s.port := rfl
@[simp] theorem updEPair_rd (s : State) (k : Nat) (f : EPair → EPair) : (s.updEPair k f).rd = s.rd := rfl
@[simp] theorem updEPair_pwr (s : State) (k : Nat) (f : EPair → EPair) : (s.updEPair k f).pwr = s.pwr := rfl
@[simp] theorem updEPair_sys (s : State) (k : Nat) (f : EPair → EPair) : (s.updEPair k f).sys = s.sys := rfl
@[simp] theorem updEPair_clk (s : State) (k : Nat) (f : EPair → EPair) : (s.updEPair k f).clk = s.clk := rfl
@[simp] theorem updEPair_tb (s : State) (k : Nat) (f : EPair → EPair) : (s.updEPair k f).tb = s.tb := rfl
@[simp] theorem updEPair_chans (s : State) (k : Nat) (f : EPair → EPair) : (s.updEPair k f).chans = s.chans := rfl
@[simp] theorem updEPair_units (s : State) (k : Nat) (f : EPair → EPair) : (s.updEPair k f).units = s.units := rfl
@[simp] theorem updEPair_cfg (s : State) (k : Nat) (f : EPair → EPair) : (s.updEPair k f).cfg = s.cfg := rfl
@[simp] theorem updEPair_loaded (s : State) (k : Nat) (f : EPair → EPair) : (s.updEPair k f).loaded = s.loaded := rfl
@[simp] theorem updEPair_cfgSeq (s : State) (k : Nat) (f : EPair → EPair) : (s.updEPair k f).cfgSeq = s.cfgSeq := rfl
@[simp] theorem updEPair_ins (s : State) (k : Nat) (f : EPair → EPair) : (s.updEPair k f).ins = s.ins := rfl
@[simp] theorem updEPair_pairs (s : State) (k : Nat) (f : EPair → EPair) : (s.updEPair k f).pairs = s.pairs := rfl
@[simp] theorem updEPair_encs (s : State) (k : Nat) (f : EPair → EPair) : (s.updEPair k f).encs = s.encs := rfl
@[simp] theorem updEPair_wets (s : State) (k : Nat) (f : EPair → EPair) : (s.updEPair k f).wets = s.wets := rfl
@[simp] theorem updEPair_outs (s : State) (k : Nat) (f : EPair → EPair) : (s.updEPair k f).outs = s.outs := rfl
@[simp] theorem updEPair_tps (s : State) (k : Nat) (f : EPair → EPair) : (s.updEPair k f).tps = s.tps := rfl
@[simp] theorem updEPair_halves (s : State) (k : Nat) (f : EPair → EPair) : (s.updEPair k f).halves = s.halves := rfl
@[simp] theorem updEPair_banks (s : State) (k : Nat) (f : EPair → EPair) : (s.updEPair k f).banks = s.banks := rfl
@[simp] theorem updEPair_ladle (s : State) (k : Nat) (f : EPair → EPair) : (s.updEPair k f).ladle = s.ladle := rfl
@[simp] theorem updEPair_lid (s : State) (k : Nat) (f : EPair → EPair) : (s.updEPair k f).lid = s.lid := rfl
@[simp] theorem updEPair_perm (s : State) (k : Nat) (f : EPair → EPair) : (s.updEPair k f).perm = s.perm := rfl
@[simp] theorem updEPair_engs (s : State) (k : Nat) (f : EPair → EPair) : (s.updEPair k f).engs = s.engs := rfl
@[simp] theorem updEPair_mems (s : State) (k : Nat) (f : EPair → EPair) : (s.updEPair k f).mems = s.mems := rfl
@[simp] theorem updEPair_regions (s : State) (k : Nat) (f : EPair → EPair) : (s.updEPair k f).regions = s.regions := rfl
@[simp] theorem updEPair_cells (s : State) (k : Nat) (f : EPair → EPair) : (s.updEPair k f).cells = s.cells := rfl
@[simp] theorem updEPair_ho (s : State) (k : Nat) (f : EPair → EPair) : (s.updEPair k f).ho = s.ho := rfl
@[simp] theorem updEPair_groups (s : State) (k : Nat) (f : EPair → EPair) : (s.updEPair k f).groups = s.groups := rfl
@[simp] theorem updEPair_axes (s : State) (k : Nat) (f : EPair → EPair) : (s.updEPair k f).axes = s.axes := rfl
@[simp] theorem updEPair_avail (s : State) (k : Nat) (f : EPair → EPair) : (s.updEPair k f).avail = s.avail := rfl
@[simp] theorem updEPair_net (s : State) (k : Nat) (f : EPair → EPair) : (s.updEPair k f).net = s.net := rfl
@[simp] theorem updEPair_flk (s : State) (k : Nat) (f : EPair → EPair) : (s.updEPair k f).flk = s.flk := rfl
@[simp] theorem updEPair_hif (s : State) (k : Nat) (f : EPair → EPair) : (s.updEPair k f).hif = s.hif := rfl
@[simp] theorem updEPair_store (s : State) (k : Nat) (f : EPair → EPair) : (s.updEPair k f).store = s.store := rfl
@[simp] theorem updEPair_recs (s : State) (k : Nat) (f : EPair → EPair) : (s.updEPair k f).recs = s.recs := rfl
@[simp] theorem updEPair_recSeq (s : State) (k : Nat) (f : EPair → EPair) : (s.updEPair k f).recSeq = s.recSeq := rfl
@[simp] theorem updEPair_bist (s : State) (k : Nat) (f : EPair → EPair) : (s.updEPair k f).bist = s.bist := rfl
@[simp] theorem updEPair_cvus (s : State) (k : Nat) (f : EPair → EPair) : (s.updEPair k f).cvus = s.cvus := rfl
@[simp] theorem updEPair_regs (s : State) (k : Nat) (f : EPair → EPair) : (s.updEPair k f).regs = s.regs := rfl
@[simp] theorem updEPair_setNow (s : State) (k : Nat) (f : EPair → EPair) : (s.updEPair k f).setNow = s.setNow := rfl

/-! ### State.updCell -/

@[simp] theorem cell_updCell_same (s : State) (c : Nat) (f : CellS → CellS) : (s.updCell c f).cell c = f (s.cell c) := by
  simp [State.updCell, State.cell]

theorem cell_updCell (s : State) (c i : Nat) (f : CellS → CellS) :
    (s.updCell c f).cell i = if i = c then f (s.cell c) else s.cell i := by
  simp only [State.updCell, State.cell, get_upd]

@[simp] theorem updCell_pending (s : State) (c : Nat) (f : CellS → CellS) : (s.updCell c f).pending = s.pending := rfl
@[simp] theorem updCell_fresh (s : State) (c : Nat) (f : CellS → CellS) : (s.updCell c f).fresh = s.fresh := rfl
@[simp] theorem updCell_port (s : State) (c : Nat) (f : CellS → CellS) : (s.updCell c f).port = s.port := rfl
@[simp] theorem updCell_rd (s : State) (c : Nat) (f : CellS → CellS) : (s.updCell c f).rd = s.rd := rfl
@[simp] theorem updCell_pwr (s : State) (c : Nat) (f : CellS → CellS) : (s.updCell c f).pwr = s.pwr := rfl
@[simp] theorem updCell_sys (s : State) (c : Nat) (f : CellS → CellS) : (s.updCell c f).sys = s.sys := rfl
@[simp] theorem updCell_clk (s : State) (c : Nat) (f : CellS → CellS) : (s.updCell c f).clk = s.clk := rfl
@[simp] theorem updCell_tb (s : State) (c : Nat) (f : CellS → CellS) : (s.updCell c f).tb = s.tb := rfl
@[simp] theorem updCell_chans (s : State) (c : Nat) (f : CellS → CellS) : (s.updCell c f).chans = s.chans := rfl
@[simp] theorem updCell_units (s : State) (c : Nat) (f : CellS → CellS) : (s.updCell c f).units = s.units := rfl
@[simp] theorem updCell_cfg (s : State) (c : Nat) (f : CellS → CellS) : (s.updCell c f).cfg = s.cfg := rfl
@[simp] theorem updCell_loaded (s : State) (c : Nat) (f : CellS → CellS) : (s.updCell c f).loaded = s.loaded := rfl
@[simp] theorem updCell_cfgSeq (s : State) (c : Nat) (f : CellS → CellS) : (s.updCell c f).cfgSeq = s.cfgSeq := rfl
@[simp] theorem updCell_ins (s : State) (c : Nat) (f : CellS → CellS) : (s.updCell c f).ins = s.ins := rfl
@[simp] theorem updCell_pairs (s : State) (c : Nat) (f : CellS → CellS) : (s.updCell c f).pairs = s.pairs := rfl
@[simp] theorem updCell_encs (s : State) (c : Nat) (f : CellS → CellS) : (s.updCell c f).encs = s.encs := rfl
@[simp] theorem updCell_wets (s : State) (c : Nat) (f : CellS → CellS) : (s.updCell c f).wets = s.wets := rfl
@[simp] theorem updCell_outs (s : State) (c : Nat) (f : CellS → CellS) : (s.updCell c f).outs = s.outs := rfl
@[simp] theorem updCell_tps (s : State) (c : Nat) (f : CellS → CellS) : (s.updCell c f).tps = s.tps := rfl
@[simp] theorem updCell_halves (s : State) (c : Nat) (f : CellS → CellS) : (s.updCell c f).halves = s.halves := rfl
@[simp] theorem updCell_banks (s : State) (c : Nat) (f : CellS → CellS) : (s.updCell c f).banks = s.banks := rfl
@[simp] theorem updCell_ladle (s : State) (c : Nat) (f : CellS → CellS) : (s.updCell c f).ladle = s.ladle := rfl
@[simp] theorem updCell_lid (s : State) (c : Nat) (f : CellS → CellS) : (s.updCell c f).lid = s.lid := rfl
@[simp] theorem updCell_perm (s : State) (c : Nat) (f : CellS → CellS) : (s.updCell c f).perm = s.perm := rfl
@[simp] theorem updCell_engs (s : State) (c : Nat) (f : CellS → CellS) : (s.updCell c f).engs = s.engs := rfl
@[simp] theorem updCell_mems (s : State) (c : Nat) (f : CellS → CellS) : (s.updCell c f).mems = s.mems := rfl
@[simp] theorem updCell_epairs (s : State) (c : Nat) (f : CellS → CellS) : (s.updCell c f).epairs = s.epairs := rfl
@[simp] theorem updCell_regions (s : State) (c : Nat) (f : CellS → CellS) : (s.updCell c f).regions = s.regions := rfl
@[simp] theorem updCell_ho (s : State) (c : Nat) (f : CellS → CellS) : (s.updCell c f).ho = s.ho := rfl
@[simp] theorem updCell_groups (s : State) (c : Nat) (f : CellS → CellS) : (s.updCell c f).groups = s.groups := rfl
@[simp] theorem updCell_axes (s : State) (c : Nat) (f : CellS → CellS) : (s.updCell c f).axes = s.axes := rfl
@[simp] theorem updCell_avail (s : State) (c : Nat) (f : CellS → CellS) : (s.updCell c f).avail = s.avail := rfl
@[simp] theorem updCell_net (s : State) (c : Nat) (f : CellS → CellS) : (s.updCell c f).net = s.net := rfl
@[simp] theorem updCell_flk (s : State) (c : Nat) (f : CellS → CellS) : (s.updCell c f).flk = s.flk := rfl
@[simp] theorem updCell_hif (s : State) (c : Nat) (f : CellS → CellS) : (s.updCell c f).hif = s.hif := rfl
@[simp] theorem updCell_store (s : State) (c : Nat) (f : CellS → CellS) : (s.updCell c f).store = s.store := rfl
@[simp] theorem updCell_recs (s : State) (c : Nat) (f : CellS → CellS) : (s.updCell c f).recs = s.recs := rfl
@[simp] theorem updCell_recSeq (s : State) (c : Nat) (f : CellS → CellS) : (s.updCell c f).recSeq = s.recSeq := rfl
@[simp] theorem updCell_bist (s : State) (c : Nat) (f : CellS → CellS) : (s.updCell c f).bist = s.bist := rfl
@[simp] theorem updCell_cvus (s : State) (c : Nat) (f : CellS → CellS) : (s.updCell c f).cvus = s.cvus := rfl
@[simp] theorem updCell_regs (s : State) (c : Nat) (f : CellS → CellS) : (s.updCell c f).regs = s.regs := rfl
@[simp] theorem updCell_setNow (s : State) (c : Nat) (f : CellS → CellS) : (s.updCell c f).setNow = s.setNow := rfl

/-! ### State.updGrp -/

@[simp] theorem grp_updGrp_same (s : State) (g : Nat) (f : Group → Group) : (s.updGrp g f).grp g = f (s.grp g) := by
  simp [State.updGrp, State.grp]

theorem grp_updGrp (s : State) (g i : Nat) (f : Group → Group) :
    (s.updGrp g f).grp i = if i = g then f (s.grp g) else s.grp i := by
  simp only [State.updGrp, State.grp, get_upd]

@[simp] theorem updGrp_pending (s : State) (g : Nat) (f : Group → Group) : (s.updGrp g f).pending = s.pending := rfl
@[simp] theorem updGrp_fresh (s : State) (g : Nat) (f : Group → Group) : (s.updGrp g f).fresh = s.fresh := rfl
@[simp] theorem updGrp_port (s : State) (g : Nat) (f : Group → Group) : (s.updGrp g f).port = s.port := rfl
@[simp] theorem updGrp_rd (s : State) (g : Nat) (f : Group → Group) : (s.updGrp g f).rd = s.rd := rfl
@[simp] theorem updGrp_pwr (s : State) (g : Nat) (f : Group → Group) : (s.updGrp g f).pwr = s.pwr := rfl
@[simp] theorem updGrp_sys (s : State) (g : Nat) (f : Group → Group) : (s.updGrp g f).sys = s.sys := rfl
@[simp] theorem updGrp_clk (s : State) (g : Nat) (f : Group → Group) : (s.updGrp g f).clk = s.clk := rfl
@[simp] theorem updGrp_tb (s : State) (g : Nat) (f : Group → Group) : (s.updGrp g f).tb = s.tb := rfl
@[simp] theorem updGrp_chans (s : State) (g : Nat) (f : Group → Group) : (s.updGrp g f).chans = s.chans := rfl
@[simp] theorem updGrp_units (s : State) (g : Nat) (f : Group → Group) : (s.updGrp g f).units = s.units := rfl
@[simp] theorem updGrp_cfg (s : State) (g : Nat) (f : Group → Group) : (s.updGrp g f).cfg = s.cfg := rfl
@[simp] theorem updGrp_loaded (s : State) (g : Nat) (f : Group → Group) : (s.updGrp g f).loaded = s.loaded := rfl
@[simp] theorem updGrp_cfgSeq (s : State) (g : Nat) (f : Group → Group) : (s.updGrp g f).cfgSeq = s.cfgSeq := rfl
@[simp] theorem updGrp_ins (s : State) (g : Nat) (f : Group → Group) : (s.updGrp g f).ins = s.ins := rfl
@[simp] theorem updGrp_pairs (s : State) (g : Nat) (f : Group → Group) : (s.updGrp g f).pairs = s.pairs := rfl
@[simp] theorem updGrp_encs (s : State) (g : Nat) (f : Group → Group) : (s.updGrp g f).encs = s.encs := rfl
@[simp] theorem updGrp_wets (s : State) (g : Nat) (f : Group → Group) : (s.updGrp g f).wets = s.wets := rfl
@[simp] theorem updGrp_outs (s : State) (g : Nat) (f : Group → Group) : (s.updGrp g f).outs = s.outs := rfl
@[simp] theorem updGrp_tps (s : State) (g : Nat) (f : Group → Group) : (s.updGrp g f).tps = s.tps := rfl
@[simp] theorem updGrp_halves (s : State) (g : Nat) (f : Group → Group) : (s.updGrp g f).halves = s.halves := rfl
@[simp] theorem updGrp_banks (s : State) (g : Nat) (f : Group → Group) : (s.updGrp g f).banks = s.banks := rfl
@[simp] theorem updGrp_ladle (s : State) (g : Nat) (f : Group → Group) : (s.updGrp g f).ladle = s.ladle := rfl
@[simp] theorem updGrp_lid (s : State) (g : Nat) (f : Group → Group) : (s.updGrp g f).lid = s.lid := rfl
@[simp] theorem updGrp_perm (s : State) (g : Nat) (f : Group → Group) : (s.updGrp g f).perm = s.perm := rfl
@[simp] theorem updGrp_engs (s : State) (g : Nat) (f : Group → Group) : (s.updGrp g f).engs = s.engs := rfl
@[simp] theorem updGrp_mems (s : State) (g : Nat) (f : Group → Group) : (s.updGrp g f).mems = s.mems := rfl
@[simp] theorem updGrp_epairs (s : State) (g : Nat) (f : Group → Group) : (s.updGrp g f).epairs = s.epairs := rfl
@[simp] theorem updGrp_regions (s : State) (g : Nat) (f : Group → Group) : (s.updGrp g f).regions = s.regions := rfl
@[simp] theorem updGrp_cells (s : State) (g : Nat) (f : Group → Group) : (s.updGrp g f).cells = s.cells := rfl
@[simp] theorem updGrp_ho (s : State) (g : Nat) (f : Group → Group) : (s.updGrp g f).ho = s.ho := rfl
@[simp] theorem updGrp_axes (s : State) (g : Nat) (f : Group → Group) : (s.updGrp g f).axes = s.axes := rfl
@[simp] theorem updGrp_avail (s : State) (g : Nat) (f : Group → Group) : (s.updGrp g f).avail = s.avail := rfl
@[simp] theorem updGrp_net (s : State) (g : Nat) (f : Group → Group) : (s.updGrp g f).net = s.net := rfl
@[simp] theorem updGrp_flk (s : State) (g : Nat) (f : Group → Group) : (s.updGrp g f).flk = s.flk := rfl
@[simp] theorem updGrp_hif (s : State) (g : Nat) (f : Group → Group) : (s.updGrp g f).hif = s.hif := rfl
@[simp] theorem updGrp_store (s : State) (g : Nat) (f : Group → Group) : (s.updGrp g f).store = s.store := rfl
@[simp] theorem updGrp_recs (s : State) (g : Nat) (f : Group → Group) : (s.updGrp g f).recs = s.recs := rfl
@[simp] theorem updGrp_recSeq (s : State) (g : Nat) (f : Group → Group) : (s.updGrp g f).recSeq = s.recSeq := rfl
@[simp] theorem updGrp_bist (s : State) (g : Nat) (f : Group → Group) : (s.updGrp g f).bist = s.bist := rfl
@[simp] theorem updGrp_cvus (s : State) (g : Nat) (f : Group → Group) : (s.updGrp g f).cvus = s.cvus := rfl
@[simp] theorem updGrp_regs (s : State) (g : Nat) (f : Group → Group) : (s.updGrp g f).regs = s.regs := rfl
@[simp] theorem updGrp_setNow (s : State) (g : Nat) (f : Group → Group) : (s.updGrp g f).setNow = s.setNow := rfl

/-! ### State.updAxis -/

@[simp] theorem axis_updAxis_same (s : State) (a : Nat) (f : Axis → Axis) : (s.updAxis a f).axis a = f (s.axis a) := by
  simp [State.updAxis, State.axis]

theorem axis_updAxis (s : State) (a i : Nat) (f : Axis → Axis) :
    (s.updAxis a f).axis i = if i = a then f (s.axis a) else s.axis i := by
  simp only [State.updAxis, State.axis, get_upd]

@[simp] theorem updAxis_pending (s : State) (a : Nat) (f : Axis → Axis) : (s.updAxis a f).pending = s.pending := rfl
@[simp] theorem updAxis_fresh (s : State) (a : Nat) (f : Axis → Axis) : (s.updAxis a f).fresh = s.fresh := rfl
@[simp] theorem updAxis_port (s : State) (a : Nat) (f : Axis → Axis) : (s.updAxis a f).port = s.port := rfl
@[simp] theorem updAxis_rd (s : State) (a : Nat) (f : Axis → Axis) : (s.updAxis a f).rd = s.rd := rfl
@[simp] theorem updAxis_pwr (s : State) (a : Nat) (f : Axis → Axis) : (s.updAxis a f).pwr = s.pwr := rfl
@[simp] theorem updAxis_sys (s : State) (a : Nat) (f : Axis → Axis) : (s.updAxis a f).sys = s.sys := rfl
@[simp] theorem updAxis_clk (s : State) (a : Nat) (f : Axis → Axis) : (s.updAxis a f).clk = s.clk := rfl
@[simp] theorem updAxis_tb (s : State) (a : Nat) (f : Axis → Axis) : (s.updAxis a f).tb = s.tb := rfl
@[simp] theorem updAxis_chans (s : State) (a : Nat) (f : Axis → Axis) : (s.updAxis a f).chans = s.chans := rfl
@[simp] theorem updAxis_units (s : State) (a : Nat) (f : Axis → Axis) : (s.updAxis a f).units = s.units := rfl
@[simp] theorem updAxis_cfg (s : State) (a : Nat) (f : Axis → Axis) : (s.updAxis a f).cfg = s.cfg := rfl
@[simp] theorem updAxis_loaded (s : State) (a : Nat) (f : Axis → Axis) : (s.updAxis a f).loaded = s.loaded := rfl
@[simp] theorem updAxis_cfgSeq (s : State) (a : Nat) (f : Axis → Axis) : (s.updAxis a f).cfgSeq = s.cfgSeq := rfl
@[simp] theorem updAxis_ins (s : State) (a : Nat) (f : Axis → Axis) : (s.updAxis a f).ins = s.ins := rfl
@[simp] theorem updAxis_pairs (s : State) (a : Nat) (f : Axis → Axis) : (s.updAxis a f).pairs = s.pairs := rfl
@[simp] theorem updAxis_encs (s : State) (a : Nat) (f : Axis → Axis) : (s.updAxis a f).encs = s.encs := rfl
@[simp] theorem updAxis_wets (s : State) (a : Nat) (f : Axis → Axis) : (s.updAxis a f).wets = s.wets := rfl
@[simp] theorem updAxis_outs (s : State) (a : Nat) (f : Axis → Axis) : (s.updAxis a f).outs = s.outs := rfl
@[simp] theorem updAxis_tps (s : State) (a : Nat) (f : Axis → Axis) : (s.updAxis a f).tps = s.tps := rfl
@[simp] theorem updAxis_halves (s : State) (a : Nat) (f : Axis → Axis) : (s.updAxis a f).halves = s.halves := rfl
@[simp] theorem updAxis_banks (s : State) (a : Nat) (f : Axis → Axis) : (s.updAxis a f).banks = s.banks := rfl
@[simp] theorem updAxis_ladle (s : State) (a : Nat) (f : Axis → Axis) : (s.updAxis a f).ladle = s.ladle := rfl
@[simp] theorem updAxis_lid (s : State) (a : Nat) (f : Axis → Axis) : (s.updAxis a f).lid = s.lid := rfl
@[simp] theorem updAxis_perm (s : State) (a : Nat) (f : Axis → Axis) : (s.updAxis a f).perm = s.perm := rfl
@[simp] theorem updAxis_engs (s : State) (a : Nat) (f : Axis → Axis) : (s.updAxis a f).engs = s.engs := rfl
@[simp] theorem updAxis_mems (s : State) (a : Nat) (f : Axis → Axis) : (s.updAxis a f).mems = s.mems := rfl
@[simp] theorem updAxis_epairs (s : State) (a : Nat) (f : Axis → Axis) : (s.updAxis a f).epairs = s.epairs := rfl
@[simp] theorem updAxis_regions (s : State) (a : Nat) (f : Axis → Axis) : (s.updAxis a f).regions = s.regions := rfl
@[simp] theorem updAxis_cells (s : State) (a : Nat) (f : Axis → Axis) : (s.updAxis a f).cells = s.cells := rfl
@[simp] theorem updAxis_ho (s : State) (a : Nat) (f : Axis → Axis) : (s.updAxis a f).ho = s.ho := rfl
@[simp] theorem updAxis_groups (s : State) (a : Nat) (f : Axis → Axis) : (s.updAxis a f).groups = s.groups := rfl
@[simp] theorem updAxis_avail (s : State) (a : Nat) (f : Axis → Axis) : (s.updAxis a f).avail = s.avail := rfl
@[simp] theorem updAxis_net (s : State) (a : Nat) (f : Axis → Axis) : (s.updAxis a f).net = s.net := rfl
@[simp] theorem updAxis_flk (s : State) (a : Nat) (f : Axis → Axis) : (s.updAxis a f).flk = s.flk := rfl
@[simp] theorem updAxis_hif (s : State) (a : Nat) (f : Axis → Axis) : (s.updAxis a f).hif = s.hif := rfl
@[simp] theorem updAxis_store (s : State) (a : Nat) (f : Axis → Axis) : (s.updAxis a f).store = s.store := rfl
@[simp] theorem updAxis_recs (s : State) (a : Nat) (f : Axis → Axis) : (s.updAxis a f).recs = s.recs := rfl
@[simp] theorem updAxis_recSeq (s : State) (a : Nat) (f : Axis → Axis) : (s.updAxis a f).recSeq = s.recSeq := rfl
@[simp] theorem updAxis_bist (s : State) (a : Nat) (f : Axis → Axis) : (s.updAxis a f).bist = s.bist := rfl
@[simp] theorem updAxis_cvus (s : State) (a : Nat) (f : Axis → Axis) : (s.updAxis a f).cvus = s.cvus := rfl
@[simp] theorem updAxis_regs (s : State) (a : Nat) (f : Axis → Axis) : (s.updAxis a f).regs = s.regs := rfl
@[simp] theorem updAxis_setNow (s : State) (a : Nat) (f : Axis → Axis) : (s.updAxis a f).setNow = s.setNow := rfl

/-! ### State.updConn -/

@[simp] theorem conn_updConn_same (s : State) (n : Nat) (f : Conn → Conn) : (s.updConn n f).conn n = f (s.conn n) := by
  simp [State.updConn, State.conn]

theorem conn_updConn (s : State) (n i : Nat) (f : Conn → Conn) :
    (s.updConn n f).conn i = if i = n then f (s.conn n) else s.conn i := by
  simp only [State.updConn, State.conn, get_upd]

@[simp] theorem updConn_pending (s : State) (n : Nat) (f : Conn → Conn) : (s.updConn n f).pending = s.pending := rfl
@[simp] theorem updConn_fresh (s : State) (n : Nat) (f : Conn → Conn) : (s.updConn n f).fresh = s.fresh := rfl
@[simp] theorem updConn_port (s : State) (n : Nat) (f : Conn → Conn) : (s.updConn n f).port = s.port := rfl
@[simp] theorem updConn_rd (s : State) (n : Nat) (f : Conn → Conn) : (s.updConn n f).rd = s.rd := rfl
@[simp] theorem updConn_pwr (s : State) (n : Nat) (f : Conn → Conn) : (s.updConn n f).pwr = s.pwr := rfl
@[simp] theorem updConn_sys (s : State) (n : Nat) (f : Conn → Conn) : (s.updConn n f).sys = s.sys := rfl
@[simp] theorem updConn_clk (s : State) (n : Nat) (f : Conn → Conn) : (s.updConn n f).clk = s.clk := rfl
@[simp] theorem updConn_tb (s : State) (n : Nat) (f : Conn → Conn) : (s.updConn n f).tb = s.tb := rfl
@[simp] theorem updConn_chans (s : State) (n : Nat) (f : Conn → Conn) : (s.updConn n f).chans = s.chans := rfl
@[simp] theorem updConn_units (s : State) (n : Nat) (f : Conn → Conn) : (s.updConn n f).units = s.units := rfl
@[simp] theorem updConn_cfg (s : State) (n : Nat) (f : Conn → Conn) : (s.updConn n f).cfg = s.cfg := rfl
@[simp] theorem updConn_loaded (s : State) (n : Nat) (f : Conn → Conn) : (s.updConn n f).loaded = s.loaded := rfl
@[simp] theorem updConn_cfgSeq (s : State) (n : Nat) (f : Conn → Conn) : (s.updConn n f).cfgSeq = s.cfgSeq := rfl
@[simp] theorem updConn_ins (s : State) (n : Nat) (f : Conn → Conn) : (s.updConn n f).ins = s.ins := rfl
@[simp] theorem updConn_pairs (s : State) (n : Nat) (f : Conn → Conn) : (s.updConn n f).pairs = s.pairs := rfl
@[simp] theorem updConn_encs (s : State) (n : Nat) (f : Conn → Conn) : (s.updConn n f).encs = s.encs := rfl
@[simp] theorem updConn_wets (s : State) (n : Nat) (f : Conn → Conn) : (s.updConn n f).wets = s.wets := rfl
@[simp] theorem updConn_outs (s : State) (n : Nat) (f : Conn → Conn) : (s.updConn n f).outs = s.outs := rfl
@[simp] theorem updConn_tps (s : State) (n : Nat) (f : Conn → Conn) : (s.updConn n f).tps = s.tps := rfl
@[simp] theorem updConn_halves (s : State) (n : Nat) (f : Conn → Conn) : (s.updConn n f).halves = s.halves := rfl
@[simp] theorem updConn_banks (s : State) (n : Nat) (f : Conn → Conn) : (s.updConn n f).banks = s.banks := rfl
@[simp] theorem updConn_ladle (s : State) (n : Nat) (f : Conn → Conn) : (s.updConn n f).ladle = s.ladle := rfl
@[simp] theorem updConn_lid (s : State) (n : Nat) (f : Conn → Conn) : (s.updConn n f).lid = s.lid := rfl
@[simp] theorem updConn_perm (s : State) (n : Nat) (f : Conn → Conn) : (s.updConn n f).perm = s.perm := rfl
@[simp] theorem updConn_engs (s : State) (n : Nat) (f : Conn → Conn) : (s.updConn n f).engs = s.engs := rfl
@[simp] theorem updConn_mems (s : State) (n : Nat) (f : Conn → Conn) : (s.updConn n f).mems = s.mems := rfl
@[simp] theorem updConn_epairs (s : State) (n : Nat) (f : Conn → Conn) : (s.updConn n f).epairs = s.epairs := rfl
@[simp] theorem updConn_regions (s : State) (n : Nat) (f : Conn → Conn) : (s.updConn n f).regions = s.regions := rfl
@[simp] theorem updConn_cells (s : State) (n : Nat) (f : Conn → Conn) : (s.updConn n f).cells = s.cells := rfl
@[simp] theorem updConn_ho (s : State) (n : Nat) (f : Conn → Conn) : (s.updConn n f).ho = s.ho := rfl
@[simp] theorem updConn_groups (s : State) (n : Nat) (f : Conn → Conn) : (s.updConn n f).groups = s.groups := rfl
@[simp] theorem updConn_axes (s : State) (n : Nat) (f : Conn → Conn) : (s.updConn n f).axes = s.axes := rfl
@[simp] theorem updConn_avail (s : State) (n : Nat) (f : Conn → Conn) : (s.updConn n f).avail = s.avail := rfl
@[simp] theorem updConn_flk (s : State) (n : Nat) (f : Conn → Conn) : (s.updConn n f).flk = s.flk := rfl
@[simp] theorem updConn_hif (s : State) (n : Nat) (f : Conn → Conn) : (s.updConn n f).hif = s.hif := rfl
@[simp] theorem updConn_store (s : State) (n : Nat) (f : Conn → Conn) : (s.updConn n f).store = s.store := rfl
@[simp] theorem updConn_recs (s : State) (n : Nat) (f : Conn → Conn) : (s.updConn n f).recs = s.recs := rfl
@[simp] theorem updConn_recSeq (s : State) (n : Nat) (f : Conn → Conn) : (s.updConn n f).recSeq = s.recSeq := rfl
@[simp] theorem updConn_bist (s : State) (n : Nat) (f : Conn → Conn) : (s.updConn n f).bist = s.bist := rfl
@[simp] theorem updConn_cvus (s : State) (n : Nat) (f : Conn → Conn) : (s.updConn n f).cvus = s.cvus := rfl
@[simp] theorem updConn_regs (s : State) (n : Nat) (f : Conn → Conn) : (s.updConn n f).regs = s.regs := rfl
@[simp] theorem updConn_setNow (s : State) (n : Nat) (f : Conn → Conn) : (s.updConn n f).setNow = s.setNow := rfl

/-! ### State.updMac -/

@[simp] theorem mac_updMac_same (s : State) (m : Nat) (f : Mac → Mac) : (s.updMac m f).mac m = f (s.mac m) := by
  simp [State.updMac, State.mac]

theorem mac_updMac (s : State) (m i : Nat) (f : Mac → Mac) :
    (s.updMac m f).mac i = if i = m then f (s.mac m) else s.mac i := by
  simp only [State.updMac, State.mac, get_upd]

@[simp] theorem updMac_pending (s : State) (m : Nat) (f : Mac → Mac) : (s.updMac m f).pending = s.pending := rfl
@[simp] theorem updMac_fresh (s : State) (m : Nat) (f : Mac → Mac) : (s.updMac m f).fresh = s.fresh := rfl
@[simp] theorem updMac_port (s : State) (m : Nat) (f : Mac → Mac) : (s.updMac m f).port = s.port := rfl
@[simp] theorem updMac_rd (s : State) (m : Nat) (f : Mac → Mac) : (s.updMac m f).rd = s.rd := rfl
@[simp] theorem updMac_pwr (s : State) (m : Nat) (f : Mac → Mac) : (s.updMac m f).pwr = s.pwr := rfl
@[simp] theorem updMac_sys (s : State) (m : Nat) (f : Mac → Mac) : (s.updMac m f).sys = s.sys := rfl
@[simp] theorem updMac_clk (s : State) (m : Nat) (f : Mac → Mac) : (s.updMac m f).clk = s.clk := rfl
@[simp] theorem updMac_tb (s : State) (m : Nat) (f : Mac → Mac) : (s.updMac m f).tb = s.tb := rfl
@[simp] theorem updMac_chans (s : State) (m : Nat) (f : Mac → Mac) : (s.updMac m f).chans = s.chans := rfl
@[simp] theorem updMac_units (s : State) (m : Nat) (f : Mac → Mac) : (s.updMac m f).units = s.units := rfl
@[simp] theorem updMac_cfg (s : State) (m : Nat) (f : Mac → Mac) : (s.updMac m f).cfg = s.cfg := rfl
@[simp] theorem updMac_loaded (s : State) (m : Nat) (f : Mac → Mac) : (s.updMac m f).loaded = s.loaded := rfl
@[simp] theorem updMac_cfgSeq (s : State) (m : Nat) (f : Mac → Mac) : (s.updMac m f).cfgSeq = s.cfgSeq := rfl
@[simp] theorem updMac_ins (s : State) (m : Nat) (f : Mac → Mac) : (s.updMac m f).ins = s.ins := rfl
@[simp] theorem updMac_pairs (s : State) (m : Nat) (f : Mac → Mac) : (s.updMac m f).pairs = s.pairs := rfl
@[simp] theorem updMac_encs (s : State) (m : Nat) (f : Mac → Mac) : (s.updMac m f).encs = s.encs := rfl
@[simp] theorem updMac_wets (s : State) (m : Nat) (f : Mac → Mac) : (s.updMac m f).wets = s.wets := rfl
@[simp] theorem updMac_outs (s : State) (m : Nat) (f : Mac → Mac) : (s.updMac m f).outs = s.outs := rfl
@[simp] theorem updMac_tps (s : State) (m : Nat) (f : Mac → Mac) : (s.updMac m f).tps = s.tps := rfl
@[simp] theorem updMac_halves (s : State) (m : Nat) (f : Mac → Mac) : (s.updMac m f).halves = s.halves := rfl
@[simp] theorem updMac_banks (s : State) (m : Nat) (f : Mac → Mac) : (s.updMac m f).banks = s.banks := rfl
@[simp] theorem updMac_ladle (s : State) (m : Nat) (f : Mac → Mac) : (s.updMac m f).ladle = s.ladle := rfl
@[simp] theorem updMac_lid (s : State) (m : Nat) (f : Mac → Mac) : (s.updMac m f).lid = s.lid := rfl
@[simp] theorem updMac_perm (s : State) (m : Nat) (f : Mac → Mac) : (s.updMac m f).perm = s.perm := rfl
@[simp] theorem updMac_engs (s : State) (m : Nat) (f : Mac → Mac) : (s.updMac m f).engs = s.engs := rfl
@[simp] theorem updMac_mems (s : State) (m : Nat) (f : Mac → Mac) : (s.updMac m f).mems = s.mems := rfl
@[simp] theorem updMac_epairs (s : State) (m : Nat) (f : Mac → Mac) : (s.updMac m f).epairs = s.epairs := rfl
@[simp] theorem updMac_regions (s : State) (m : Nat) (f : Mac → Mac) : (s.updMac m f).regions = s.regions := rfl
@[simp] theorem updMac_cells (s : State) (m : Nat) (f : Mac → Mac) : (s.updMac m f).cells = s.cells := rfl
@[simp] theorem updMac_ho (s : State) (m : Nat) (f : Mac → Mac) : (s.updMac m f).ho = s.ho := rfl
@[simp] theorem updMac_groups (s : State) (m : Nat) (f : Mac → Mac) : (s.updMac m f).groups = s.groups := rfl
@[simp] theorem updMac_axes (s : State) (m : Nat) (f : Mac → Mac) : (s.updMac m f).axes = s.axes := rfl
@[simp] theorem updMac_avail (s : State) (m : Nat) (f : Mac → Mac) : (s.updMac m f).avail = s.avail := rfl
@[simp] theorem updMac_flk (s : State) (m : Nat) (f : Mac → Mac) : (s.updMac m f).flk = s.flk := rfl
@[simp] theorem updMac_hif (s : State) (m : Nat) (f : Mac → Mac) : (s.updMac m f).hif = s.hif := rfl
@[simp] theorem updMac_store (s : State) (m : Nat) (f : Mac → Mac) : (s.updMac m f).store = s.store := rfl
@[simp] theorem updMac_recs (s : State) (m : Nat) (f : Mac → Mac) : (s.updMac m f).recs = s.recs := rfl
@[simp] theorem updMac_recSeq (s : State) (m : Nat) (f : Mac → Mac) : (s.updMac m f).recSeq = s.recSeq := rfl
@[simp] theorem updMac_bist (s : State) (m : Nat) (f : Mac → Mac) : (s.updMac m f).bist = s.bist := rfl
@[simp] theorem updMac_cvus (s : State) (m : Nat) (f : Mac → Mac) : (s.updMac m f).cvus = s.cvus := rfl
@[simp] theorem updMac_regs (s : State) (m : Nat) (f : Mac → Mac) : (s.updMac m f).regs = s.regs := rfl
@[simp] theorem updMac_setNow (s : State) (m : Nat) (f : Mac → Mac) : (s.updMac m f).setNow = s.setNow := rfl

/-! ### State.updPeer -/

@[simp] theorem peer_updPeer_same (s : State) (m : Nat) (f : Peer → Peer) : (s.updPeer m f).peer m = f (s.peer m) := by
  simp [State.updPeer, State.peer]

theorem peer_updPeer (s : State) (m i : Nat) (f : Peer → Peer) :
    (s.updPeer m f).peer i = if i = m then f (s.peer m) else s.peer i := by
  simp only [State.updPeer, State.peer, get_upd]

@[simp] theorem updPeer_pending (s : State) (m : Nat) (f : Peer → Peer) : (s.updPeer m f).pending = s.pending := rfl
@[simp] theorem updPeer_fresh (s : State) (m : Nat) (f : Peer → Peer) : (s.updPeer m f).fresh = s.fresh := rfl
@[simp] theorem updPeer_port (s : State) (m : Nat) (f : Peer → Peer) : (s.updPeer m f).port = s.port := rfl
@[simp] theorem updPeer_rd (s : State) (m : Nat) (f : Peer → Peer) : (s.updPeer m f).rd = s.rd := rfl
@[simp] theorem updPeer_pwr (s : State) (m : Nat) (f : Peer → Peer) : (s.updPeer m f).pwr = s.pwr := rfl
@[simp] theorem updPeer_sys (s : State) (m : Nat) (f : Peer → Peer) : (s.updPeer m f).sys = s.sys := rfl
@[simp] theorem updPeer_clk (s : State) (m : Nat) (f : Peer → Peer) : (s.updPeer m f).clk = s.clk := rfl
@[simp] theorem updPeer_tb (s : State) (m : Nat) (f : Peer → Peer) : (s.updPeer m f).tb = s.tb := rfl
@[simp] theorem updPeer_chans (s : State) (m : Nat) (f : Peer → Peer) : (s.updPeer m f).chans = s.chans := rfl
@[simp] theorem updPeer_units (s : State) (m : Nat) (f : Peer → Peer) : (s.updPeer m f).units = s.units := rfl
@[simp] theorem updPeer_cfg (s : State) (m : Nat) (f : Peer → Peer) : (s.updPeer m f).cfg = s.cfg := rfl
@[simp] theorem updPeer_loaded (s : State) (m : Nat) (f : Peer → Peer) : (s.updPeer m f).loaded = s.loaded := rfl
@[simp] theorem updPeer_cfgSeq (s : State) (m : Nat) (f : Peer → Peer) : (s.updPeer m f).cfgSeq = s.cfgSeq := rfl
@[simp] theorem updPeer_ins (s : State) (m : Nat) (f : Peer → Peer) : (s.updPeer m f).ins = s.ins := rfl
@[simp] theorem updPeer_pairs (s : State) (m : Nat) (f : Peer → Peer) : (s.updPeer m f).pairs = s.pairs := rfl
@[simp] theorem updPeer_encs (s : State) (m : Nat) (f : Peer → Peer) : (s.updPeer m f).encs = s.encs := rfl
@[simp] theorem updPeer_wets (s : State) (m : Nat) (f : Peer → Peer) : (s.updPeer m f).wets = s.wets := rfl
@[simp] theorem updPeer_outs (s : State) (m : Nat) (f : Peer → Peer) : (s.updPeer m f).outs = s.outs := rfl
@[simp] theorem updPeer_tps (s : State) (m : Nat) (f : Peer → Peer) : (s.updPeer m f).tps = s.tps := rfl
@[simp] theorem updPeer_halves (s : State) (m : Nat) (f : Peer → Peer) : (s.updPeer m f).halves = s.halves := rfl
@[simp] theorem updPeer_banks (s : State) (m : Nat) (f : Peer → Peer) : (s.updPeer m f).banks = s.banks := rfl
@[simp] theorem updPeer_ladle (s : State) (m : Nat) (f : Peer → Peer) : (s.updPeer m f).ladle = s.ladle := rfl
@[simp] theorem updPeer_lid (s : State) (m : Nat) (f : Peer → Peer) : (s.updPeer m f).lid = s.lid := rfl
@[simp] theorem updPeer_perm (s : State) (m : Nat) (f : Peer → Peer) : (s.updPeer m f).perm = s.perm := rfl
@[simp] theorem updPeer_engs (s : State) (m : Nat) (f : Peer → Peer) : (s.updPeer m f).engs = s.engs := rfl
@[simp] theorem updPeer_mems (s : State) (m : Nat) (f : Peer → Peer) : (s.updPeer m f).mems = s.mems := rfl
@[simp] theorem updPeer_epairs (s : State) (m : Nat) (f : Peer → Peer) : (s.updPeer m f).epairs = s.epairs := rfl
@[simp] theorem updPeer_regions (s : State) (m : Nat) (f : Peer → Peer) : (s.updPeer m f).regions = s.regions := rfl
@[simp] theorem updPeer_cells (s : State) (m : Nat) (f : Peer → Peer) : (s.updPeer m f).cells = s.cells := rfl
@[simp] theorem updPeer_ho (s : State) (m : Nat) (f : Peer → Peer) : (s.updPeer m f).ho = s.ho := rfl
@[simp] theorem updPeer_groups (s : State) (m : Nat) (f : Peer → Peer) : (s.updPeer m f).groups = s.groups := rfl
@[simp] theorem updPeer_axes (s : State) (m : Nat) (f : Peer → Peer) : (s.updPeer m f).axes = s.axes := rfl
@[simp] theorem updPeer_avail (s : State) (m : Nat) (f : Peer → Peer) : (s.updPeer m f).avail = s.avail := rfl
@[simp] theorem updPeer_net (s : State) (m : Nat) (f : Peer → Peer) : (s.updPeer m f).net = s.net := rfl
@[simp] theorem updPeer_hif (s : State) (m : Nat) (f : Peer → Peer) : (s.updPeer m f).hif = s.hif := rfl
@[simp] theorem updPeer_store (s : State) (m : Nat) (f : Peer → Peer) : (s.updPeer m f).store = s.store := rfl
@[simp] theorem updPeer_recs (s : State) (m : Nat) (f : Peer → Peer) : (s.updPeer m f).recs = s.recs := rfl
@[simp] theorem updPeer_recSeq (s : State) (m : Nat) (f : Peer → Peer) : (s.updPeer m f).recSeq = s.recSeq := rfl
@[simp] theorem updPeer_bist (s : State) (m : Nat) (f : Peer → Peer) : (s.updPeer m f).bist = s.bist := rfl
@[simp] theorem updPeer_cvus (s : State) (m : Nat) (f : Peer → Peer) : (s.updPeer m f).cvus = s.cvus := rfl
@[simp] theorem updPeer_regs (s : State) (m : Nat) (f : Peer → Peer) : (s.updPeer m f).regs = s.regs := rfl
@[simp] theorem updPeer_setNow (s : State) (m : Nat) (f : Peer → Peer) : (s.updPeer m f).setNow = s.setNow := rfl

/-! ### State.updQp -/

@[simp] theorem qp_updQp_same (s : State) (q : Nat) (f : Qp → Qp) : (s.updQp q f).qp q = f (s.qp q) := by
  simp [State.updQp, State.qp]

theorem qp_updQp (s : State) (q i : Nat) (f : Qp → Qp) :
    (s.updQp q f).qp i = if i = q then f (s.qp q) else s.qp i := by
  simp only [State.updQp, State.qp, get_upd]

@[simp] theorem updQp_pending (s : State) (q : Nat) (f : Qp → Qp) : (s.updQp q f).pending = s.pending := rfl
@[simp] theorem updQp_fresh (s : State) (q : Nat) (f : Qp → Qp) : (s.updQp q f).fresh = s.fresh := rfl
@[simp] theorem updQp_port (s : State) (q : Nat) (f : Qp → Qp) : (s.updQp q f).port = s.port := rfl
@[simp] theorem updQp_rd (s : State) (q : Nat) (f : Qp → Qp) : (s.updQp q f).rd = s.rd := rfl
@[simp] theorem updQp_pwr (s : State) (q : Nat) (f : Qp → Qp) : (s.updQp q f).pwr = s.pwr := rfl
@[simp] theorem updQp_sys (s : State) (q : Nat) (f : Qp → Qp) : (s.updQp q f).sys = s.sys := rfl
@[simp] theorem updQp_clk (s : State) (q : Nat) (f : Qp → Qp) : (s.updQp q f).clk = s.clk := rfl
@[simp] theorem updQp_tb (s : State) (q : Nat) (f : Qp → Qp) : (s.updQp q f).tb = s.tb := rfl
@[simp] theorem updQp_chans (s : State) (q : Nat) (f : Qp → Qp) : (s.updQp q f).chans = s.chans := rfl
@[simp] theorem updQp_units (s : State) (q : Nat) (f : Qp → Qp) : (s.updQp q f).units = s.units := rfl
@[simp] theorem updQp_cfg (s : State) (q : Nat) (f : Qp → Qp) : (s.updQp q f).cfg = s.cfg := rfl
@[simp] theorem updQp_loaded (s : State) (q : Nat) (f : Qp → Qp) : (s.updQp q f).loaded = s.loaded := rfl
@[simp] theorem updQp_cfgSeq (s : State) (q : Nat) (f : Qp → Qp) : (s.updQp q f).cfgSeq = s.cfgSeq := rfl
@[simp] theorem updQp_ins (s : State) (q : Nat) (f : Qp → Qp) : (s.updQp q f).ins = s.ins := rfl
@[simp] theorem updQp_pairs (s : State) (q : Nat) (f : Qp → Qp) : (s.updQp q f).pairs = s.pairs := rfl
@[simp] theorem updQp_encs (s : State) (q : Nat) (f : Qp → Qp) : (s.updQp q f).encs = s.encs := rfl
@[simp] theorem updQp_wets (s : State) (q : Nat) (f : Qp → Qp) : (s.updQp q f).wets = s.wets := rfl
@[simp] theorem updQp_outs (s : State) (q : Nat) (f : Qp → Qp) : (s.updQp q f).outs = s.outs := rfl
@[simp] theorem updQp_tps (s : State) (q : Nat) (f : Qp → Qp) : (s.updQp q f).tps = s.tps := rfl
@[simp] theorem updQp_halves (s : State) (q : Nat) (f : Qp → Qp) : (s.updQp q f).halves = s.halves := rfl
@[simp] theorem updQp_banks (s : State) (q : Nat) (f : Qp → Qp) : (s.updQp q f).banks = s.banks := rfl
@[simp] theorem updQp_ladle (s : State) (q : Nat) (f : Qp → Qp) : (s.updQp q f).ladle = s.ladle := rfl
@[simp] theorem updQp_lid (s : State) (q : Nat) (f : Qp → Qp) : (s.updQp q f).lid = s.lid := rfl
@[simp] theorem updQp_perm (s : State) (q : Nat) (f : Qp → Qp) : (s.updQp q f).perm = s.perm := rfl
@[simp] theorem updQp_engs (s : State) (q : Nat) (f : Qp → Qp) : (s.updQp q f).engs = s.engs := rfl
@[simp] theorem updQp_mems (s : State) (q : Nat) (f : Qp → Qp) : (s.updQp q f).mems = s.mems := rfl
@[simp] theorem updQp_epairs (s : State) (q : Nat) (f : Qp → Qp) : (s.updQp q f).epairs = s.epairs := rfl
@[simp] theorem updQp_regions (s : State) (q : Nat) (f : Qp → Qp) : (s.updQp q f).regions = s.regions := rfl
@[simp] theorem updQp_cells (s : State) (q : Nat) (f : Qp → Qp) : (s.updQp q f).cells = s.cells := rfl
@[simp] theorem updQp_ho (s : State) (q : Nat) (f : Qp → Qp) : (s.updQp q f).ho = s.ho := rfl
@[simp] theorem updQp_groups (s : State) (q : Nat) (f : Qp → Qp) : (s.updQp q f).groups = s.groups := rfl
@[simp] theorem updQp_axes (s : State) (q : Nat) (f : Qp → Qp) : (s.updQp q f).axes = s.axes := rfl
@[simp] theorem updQp_avail (s : State) (q : Nat) (f : Qp → Qp) : (s.updQp q f).avail = s.avail := rfl
@[simp] theorem updQp_net (s : State) (q : Nat) (f : Qp → Qp) : (s.updQp q f).net = s.net := rfl
@[simp] theorem updQp_flk (s : State) (q : Nat) (f : Qp → Qp) : (s.updQp q f).flk = s.flk := rfl
@[simp] theorem updQp_store (s : State) (q : Nat) (f : Qp → Qp) : (s.updQp q f).store = s.store := rfl
@[simp] theorem updQp_recs (s : State) (q : Nat) (f : Qp → Qp) : (s.updQp q f).recs = s.recs := rfl
@[simp] theorem updQp_recSeq (s : State) (q : Nat) (f : Qp → Qp) : (s.updQp q f).recSeq = s.recSeq := rfl
@[simp] theorem updQp_bist (s : State) (q : Nat) (f : Qp → Qp) : (s.updQp q f).bist = s.bist := rfl
@[simp] theorem updQp_cvus (s : State) (q : Nat) (f : Qp → Qp) : (s.updQp q f).cvus = s.cvus := rfl
@[simp] theorem updQp_regs (s : State) (q : Nat) (f : Qp → Qp) : (s.updQp q f).regs = s.regs := rfl
@[simp] theorem updQp_setNow (s : State) (q : Nat) (f : Qp → Qp) : (s.updQp q f).setNow = s.setNow := rfl

/-! ### State.updChan -/

@[simp] theorem chan_updChan_same (s : State) (n : Nat) (f : Chan → Chan) : (s.updChan n f).chan n = f (s.chan n) := by
  simp [State.updChan, State.chan]

theorem chan_updChan (s : State) (n i : Nat) (f : Chan → Chan) :
    (s.updChan n f).chan i = if i = n then f (s.chan n) else s.chan i := by
  simp only [State.updChan, State.chan, get_upd]

@[simp] theorem updChan_pending (s : State) (n : Nat) (f : Chan → Chan) : (s.updChan n f).pending = s.pending := rfl
@[simp] theorem updChan_fresh (s : State) (n : Nat) (f : Chan → Chan) : (s.updChan n f).fresh = s.fresh := rfl
@[simp] theorem updChan_port (s : State) (n : Nat) (f : Chan → Chan) : (s.updChan n f).port = s.port := rfl
@[simp] theorem updChan_rd (s : State) (n : Nat) (f : Chan → Chan) : (s.updChan n f).rd = s.rd := rfl
@[simp] theorem updChan_pwr (s : State) (n : Nat) (f : Chan → Chan) : (s.updChan n f).pwr = s.pwr := rfl
@[simp] theorem updChan_sys (s : State) (n : Nat) (f : Chan → Chan) : (s.updChan n f).sys = s.sys := rfl
@[simp] theorem updChan_clk (s : State) (n : Nat) (f : Chan → Chan) : (s.updChan n f).clk = s.clk := rfl
@[simp] theorem updChan_tb (s : State) (n : Nat) (f : Chan → Chan) : (s.updChan n f).tb = s.tb := rfl
@[simp] theorem updChan_units (s : State) (n : Nat) (f : Chan → Chan) : (s.updChan n f).units = s.units := rfl
@[simp] theorem updChan_cfg (s : State) (n : Nat) (f : Chan → Chan) : (s.updChan n f).cfg = s.cfg := rfl
@[simp] theorem updChan_loaded (s : State) (n : Nat) (f : Chan → Chan) : (s.updChan n f).loaded = s.loaded := rfl
@[simp] theorem updChan_cfgSeq (s : State) (n : Nat) (f : Chan → Chan) : (s.updChan n f).cfgSeq = s.cfgSeq := rfl
@[simp] theorem updChan_ins (s : State) (n : Nat) (f : Chan → Chan) : (s.updChan n f).ins = s.ins := rfl
@[simp] theorem updChan_pairs (s : State) (n : Nat) (f : Chan → Chan) : (s.updChan n f).pairs = s.pairs := rfl
@[simp] theorem updChan_encs (s : State) (n : Nat) (f : Chan → Chan) : (s.updChan n f).encs = s.encs := rfl
@[simp] theorem updChan_wets (s : State) (n : Nat) (f : Chan → Chan) : (s.updChan n f).wets = s.wets := rfl
@[simp] theorem updChan_outs (s : State) (n : Nat) (f : Chan → Chan) : (s.updChan n f).outs = s.outs := rfl
@[simp] theorem updChan_tps (s : State) (n : Nat) (f : Chan → Chan) : (s.updChan n f).tps = s.tps := rfl
@[simp] theorem updChan_halves (s : State) (n : Nat) (f : Chan → Chan) : (s.updChan n f).halves = s.halves := rfl
@[simp] theorem updChan_banks (s : State) (n : Nat) (f : Chan → Chan) : (s.updChan n f).banks = s.banks := rfl
@[simp] theorem updChan_ladle (s : State) (n : Nat) (f : Chan → Chan) : (s.updChan n f).ladle = s.ladle := rfl
@[simp] theorem updChan_lid (s : State) (n : Nat) (f : Chan → Chan) : (s.updChan n f).lid = s.lid := rfl
@[simp] theorem updChan_perm (s : State) (n : Nat) (f : Chan → Chan) : (s.updChan n f).perm = s.perm := rfl
@[simp] theorem updChan_engs (s : State) (n : Nat) (f : Chan → Chan) : (s.updChan n f).engs = s.engs := rfl
@[simp] theorem updChan_mems (s : State) (n : Nat) (f : Chan → Chan) : (s.updChan n f).mems = s.mems := rfl
@[simp] theorem updChan_epairs (s : State) (n : Nat) (f : Chan → Chan) : (s.updChan n f).epairs = s.epairs := rfl
@[simp] theorem updChan_regions (s : State) (n : Nat) (f : Chan → Chan) : (s.updChan n f).regions = s.regions := rfl
@[simp] theorem updChan_cells (s : State) (n : Nat) (f : Chan → Chan) : (s.updChan n f).cells = s.cells := rfl
@[simp] theorem updChan_ho (s : State) (n : Nat) (f : Chan → Chan) : (s.updChan n f).ho = s.ho := rfl
@[simp] theorem updChan_groups (s : State) (n : Nat) (f : Chan → Chan) : (s.updChan n f).groups = s.groups := rfl
@[simp] theorem updChan_axes (s : State) (n : Nat) (f : Chan → Chan) : (s.updChan n f).axes = s.axes := rfl
@[simp] theorem updChan_avail (s : State) (n : Nat) (f : Chan → Chan) : (s.updChan n f).avail = s.avail := rfl
@[simp] theorem updChan_net (s : State) (n : Nat) (f : Chan → Chan) : (s.updChan n f).net = s.net := rfl
@[simp] theorem updChan_flk (s : State) (n : Nat) (f : Chan → Chan) : (s.updChan n f).flk = s.flk := rfl
@[simp] theorem updChan_hif (s : State) (n : Nat) (f : Chan → Chan) : (s.updChan n f).hif = s.hif := rfl
@[simp] theorem updChan_store (s : State) (n : Nat) (f : Chan → Chan) : (s.updChan n f).store = s.store := rfl
@[simp] theorem updChan_recs (s : State) (n : Nat) (f : Chan → Chan) : (s.updChan n f).recs = s.recs := rfl
@[simp] theorem updChan_recSeq (s : State) (n : Nat) (f : Chan → Chan) : (s.updChan n f).recSeq = s.recSeq := rfl
@[simp] theorem updChan_bist (s : State) (n : Nat) (f : Chan → Chan) : (s.updChan n f).bist = s.bist := rfl
@[simp] theorem updChan_cvus (s : State) (n : Nat) (f : Chan → Chan) : (s.updChan n f).cvus = s.cvus := rfl
@[simp] theorem updChan_regs (s : State) (n : Nat) (f : Chan → Chan) : (s.updChan n f).regs = s.regs := rfl
@[simp] theorem updChan_setNow (s : State) (n : Nat) (f : Chan → Chan) : (s.updChan n f).setNow = s.setNow := rfl

/-! ### State.updCvu -/

@[simp] theorem cvu_updCvu_same (s : State) (n : Nat) (f : Cvu → Cvu) : (s.updCvu n f).cvu n = f (s.cvu n) := by
  simp [State.updCvu, State.cvu]

theorem cvu_updCvu (s : State) (n i : Nat) (f : Cvu → Cvu) :
    (s.updCvu n f).cvu i = if i = n then f (s.cvu n) else s.cvu i := by
  simp only [State.updCvu, State.cvu, get_upd]

@[simp] theorem updCvu_pending (s : State) (n : Nat) (f : Cvu → Cvu) : (s.updCvu n f).pending = s.pending := rfl
@[simp] theorem updCvu_fresh (s : State) (n : Nat) (f : Cvu → Cvu) : (s.updCvu n f).fresh = s.fresh := rfl
@[simp] theorem updCvu_port (s : State) (n : Nat) (f : Cvu → Cvu) : (s.updCvu n f).port = s.port := rfl
@[simp] theorem updCvu_rd (s : State) (n : Nat) (f : Cvu → Cvu) : (s.updCvu n f).rd = s.rd := rfl
@[simp] theorem updCvu_pwr (s : State) (n : Nat) (f : Cvu → Cvu) : (s.updCvu n f).pwr = s.pwr := rfl
@[simp] theorem updCvu_sys (s : State) (n : Nat) (f : Cvu → Cvu) : (s.updCvu n f).sys = s.sys := rfl
@[simp] theorem updCvu_clk (s : State) (n : Nat) (f : Cvu → Cvu) : (s.updCvu n f).clk = s.clk := rfl
@[simp] theorem updCvu_tb (s : State) (n : Nat) (f : Cvu → Cvu) : (s.updCvu n f).tb = s.tb := rfl
@[simp] theorem updCvu_chans (s : State) (n : Nat) (f : Cvu → Cvu) : (s.updCvu n f).chans = s.chans := rfl
@[simp] theorem updCvu_units (s : State) (n : Nat) (f : Cvu → Cvu) : (s.updCvu n f).units = s.units := rfl
@[simp] theorem updCvu_cfg (s : State) (n : Nat) (f : Cvu → Cvu) : (s.updCvu n f).cfg = s.cfg := rfl
@[simp] theorem updCvu_loaded (s : State) (n : Nat) (f : Cvu → Cvu) : (s.updCvu n f).loaded = s.loaded := rfl
@[simp] theorem updCvu_cfgSeq (s : State) (n : Nat) (f : Cvu → Cvu) : (s.updCvu n f).cfgSeq = s.cfgSeq := rfl
@[simp] theorem updCvu_ins (s : State) (n : Nat) (f : Cvu → Cvu) : (s.updCvu n f).ins = s.ins := rfl
@[simp] theorem updCvu_pairs (s : State) (n : Nat) (f : Cvu → Cvu) : (s.updCvu n f).pairs = s.pairs := rfl
@[simp] theorem updCvu_encs (s : State) (n : Nat) (f : Cvu → Cvu) : (s.updCvu n f).encs = s.encs := rfl
@[simp] theorem updCvu_wets (s : State) (n : Nat) (f : Cvu → Cvu) : (s.updCvu n f).wets = s.wets := rfl
@[simp] theorem updCvu_outs (s : State) (n : Nat) (f : Cvu → Cvu) : (s.updCvu n f).outs = s.outs := rfl
@[simp] theorem updCvu_tps (s : State) (n : Nat) (f : Cvu → Cvu) : (s.updCvu n f).tps = s.tps := rfl
@[simp] theorem updCvu_halves (s : State) (n : Nat) (f : Cvu → Cvu) : (s.updCvu n f).halves = s.halves := rfl
@[simp] theorem updCvu_banks (s : State) (n : Nat) (f : Cvu → Cvu) : (s.updCvu n f).banks = s.banks := rfl
@[simp] theorem updCvu_ladle (s : State) (n : Nat) (f : Cvu → Cvu) : (s.updCvu n f).ladle = s.ladle := rfl
@[simp] theorem updCvu_lid (s : State) (n : Nat) (f : Cvu → Cvu) : (s.updCvu n f).lid = s.lid := rfl
@[simp] theorem updCvu_perm (s : State) (n : Nat) (f : Cvu → Cvu) : (s.updCvu n f).perm = s.perm := rfl
@[simp] theorem updCvu_engs (s : State) (n : Nat) (f : Cvu → Cvu) : (s.updCvu n f).engs = s.engs := rfl
@[simp] theorem updCvu_mems (s : State) (n : Nat) (f : Cvu → Cvu) : (s.updCvu n f).mems = s.mems := rfl
@[simp] theorem updCvu_epairs (s : State) (n : Nat) (f : Cvu → Cvu) : (s.updCvu n f).epairs = s.epairs := rfl
@[simp] theorem updCvu_regions (s : State) (n : Nat) (f : Cvu → Cvu) : (s.updCvu n f).regions = s.regions := rfl
@[simp] theorem updCvu_cells (s : State) (n : Nat) (f : Cvu → Cvu) : (s.updCvu n f).cells = s.cells := rfl
@[simp] theorem updCvu_ho (s : State) (n : Nat) (f : Cvu → Cvu) : (s.updCvu n f).ho = s.ho := rfl
@[simp] theorem updCvu_groups (s : State) (n : Nat) (f : Cvu → Cvu) : (s.updCvu n f).groups = s.groups := rfl
@[simp] theorem updCvu_axes (s : State) (n : Nat) (f : Cvu → Cvu) : (s.updCvu n f).axes = s.axes := rfl
@[simp] theorem updCvu_avail (s : State) (n : Nat) (f : Cvu → Cvu) : (s.updCvu n f).avail = s.avail := rfl
@[simp] theorem updCvu_net (s : State) (n : Nat) (f : Cvu → Cvu) : (s.updCvu n f).net = s.net := rfl
@[simp] theorem updCvu_flk (s : State) (n : Nat) (f : Cvu → Cvu) : (s.updCvu n f).flk = s.flk := rfl
@[simp] theorem updCvu_hif (s : State) (n : Nat) (f : Cvu → Cvu) : (s.updCvu n f).hif = s.hif := rfl
@[simp] theorem updCvu_store (s : State) (n : Nat) (f : Cvu → Cvu) : (s.updCvu n f).store = s.store := rfl
@[simp] theorem updCvu_recs (s : State) (n : Nat) (f : Cvu → Cvu) : (s.updCvu n f).recs = s.recs := rfl
@[simp] theorem updCvu_recSeq (s : State) (n : Nat) (f : Cvu → Cvu) : (s.updCvu n f).recSeq = s.recSeq := rfl
@[simp] theorem updCvu_bist (s : State) (n : Nat) (f : Cvu → Cvu) : (s.updCvu n f).bist = s.bist := rfl
@[simp] theorem updCvu_regs (s : State) (n : Nat) (f : Cvu → Cvu) : (s.updCvu n f).regs = s.regs := rfl
@[simp] theorem updCvu_setNow (s : State) (n : Nat) (f : Cvu → Cvu) : (s.updCvu n f).setNow = s.setNow := rfl

/-! ### State.updCt -/

@[simp] theorem ct_updCt_same (s : State) (k : Nat) (f : Ct → Ct) : (s.updCt k f).ct k = f (s.ct k) := by
  simp [State.updCt, State.ct]

theorem ct_updCt (s : State) (k i : Nat) (f : Ct → Ct) :
    (s.updCt k f).ct i = if i = k then f (s.ct k) else s.ct i := by
  simp only [State.updCt, State.ct, get_upd]

@[simp] theorem updCt_pending (s : State) (k : Nat) (f : Ct → Ct) : (s.updCt k f).pending = s.pending := rfl
@[simp] theorem updCt_fresh (s : State) (k : Nat) (f : Ct → Ct) : (s.updCt k f).fresh = s.fresh := rfl
@[simp] theorem updCt_port (s : State) (k : Nat) (f : Ct → Ct) : (s.updCt k f).port = s.port := rfl
@[simp] theorem updCt_rd (s : State) (k : Nat) (f : Ct → Ct) : (s.updCt k f).rd = s.rd := rfl
@[simp] theorem updCt_pwr (s : State) (k : Nat) (f : Ct → Ct) : (s.updCt k f).pwr = s.pwr := rfl
@[simp] theorem updCt_sys (s : State) (k : Nat) (f : Ct → Ct) : (s.updCt k f).sys = s.sys := rfl
@[simp] theorem updCt_clk (s : State) (k : Nat) (f : Ct → Ct) : (s.updCt k f).clk = s.clk := rfl
@[simp] theorem updCt_tb (s : State) (k : Nat) (f : Ct → Ct) : (s.updCt k f).tb = s.tb := rfl
@[simp] theorem updCt_chans (s : State) (k : Nat) (f : Ct → Ct) : (s.updCt k f).chans = s.chans := rfl
@[simp] theorem updCt_units (s : State) (k : Nat) (f : Ct → Ct) : (s.updCt k f).units = s.units := rfl
@[simp] theorem updCt_cfg (s : State) (k : Nat) (f : Ct → Ct) : (s.updCt k f).cfg = s.cfg := rfl
@[simp] theorem updCt_loaded (s : State) (k : Nat) (f : Ct → Ct) : (s.updCt k f).loaded = s.loaded := rfl
@[simp] theorem updCt_cfgSeq (s : State) (k : Nat) (f : Ct → Ct) : (s.updCt k f).cfgSeq = s.cfgSeq := rfl
@[simp] theorem updCt_ins (s : State) (k : Nat) (f : Ct → Ct) : (s.updCt k f).ins = s.ins := rfl
@[simp] theorem updCt_pairs (s : State) (k : Nat) (f : Ct → Ct) : (s.updCt k f).pairs = s.pairs := rfl
@[simp] theorem updCt_encs (s : State) (k : Nat) (f : Ct → Ct) : (s.updCt k f).encs = s.encs := rfl
@[simp] theorem updCt_wets (s : State) (k : Nat) (f : Ct → Ct) : (s.updCt k f).wets = s.wets := rfl
@[simp] theorem updCt_outs (s : State) (k : Nat) (f : Ct → Ct) : (s.updCt k f).outs = s.outs := rfl
@[simp] theorem updCt_tps (s : State) (k : Nat) (f : Ct → Ct) : (s.updCt k f).tps = s.tps := rfl
@[simp] theorem updCt_halves (s : State) (k : Nat) (f : Ct → Ct) : (s.updCt k f).halves = s.halves := rfl
@[simp] theorem updCt_banks (s : State) (k : Nat) (f : Ct → Ct) : (s.updCt k f).banks = s.banks := rfl
@[simp] theorem updCt_ladle (s : State) (k : Nat) (f : Ct → Ct) : (s.updCt k f).ladle = s.ladle := rfl
@[simp] theorem updCt_lid (s : State) (k : Nat) (f : Ct → Ct) : (s.updCt k f).lid = s.lid := rfl
@[simp] theorem updCt_engs (s : State) (k : Nat) (f : Ct → Ct) : (s.updCt k f).engs = s.engs := rfl
@[simp] theorem updCt_mems (s : State) (k : Nat) (f : Ct → Ct) : (s.updCt k f).mems = s.mems := rfl
@[simp] theorem updCt_epairs (s : State) (k : Nat) (f : Ct → Ct) : (s.updCt k f).epairs = s.epairs := rfl
@[simp] theorem updCt_regions (s : State) (k : Nat) (f : Ct → Ct) : (s.updCt k f).regions = s.regions := rfl
@[simp] theorem updCt_cells (s : State) (k : Nat) (f : Ct → Ct) : (s.updCt k f).cells = s.cells := rfl
@[simp] theorem updCt_ho (s : State) (k : Nat) (f : Ct → Ct) : (s.updCt k f).ho = s.ho := rfl
@[simp] theorem updCt_groups (s : State) (k : Nat) (f : Ct → Ct) : (s.updCt k f).groups = s.groups := rfl
@[simp] theorem updCt_axes (s : State) (k : Nat) (f : Ct → Ct) : (s.updCt k f).axes = s.axes := rfl
@[simp] theorem updCt_avail (s : State) (k : Nat) (f : Ct → Ct) : (s.updCt k f).avail = s.avail := rfl
@[simp] theorem updCt_net (s : State) (k : Nat) (f : Ct → Ct) : (s.updCt k f).net = s.net := rfl
@[simp] theorem updCt_flk (s : State) (k : Nat) (f : Ct → Ct) : (s.updCt k f).flk = s.flk := rfl
@[simp] theorem updCt_hif (s : State) (k : Nat) (f : Ct → Ct) : (s.updCt k f).hif = s.hif := rfl
@[simp] theorem updCt_store (s : State) (k : Nat) (f : Ct → Ct) : (s.updCt k f).store = s.store := rfl
@[simp] theorem updCt_recs (s : State) (k : Nat) (f : Ct → Ct) : (s.updCt k f).recs = s.recs := rfl
@[simp] theorem updCt_recSeq (s : State) (k : Nat) (f : Ct → Ct) : (s.updCt k f).recSeq = s.recSeq := rfl
@[simp] theorem updCt_bist (s : State) (k : Nat) (f : Ct → Ct) : (s.updCt k f).bist = s.bist := rfl
@[simp] theorem updCt_cvus (s : State) (k : Nat) (f : Ct → Ct) : (s.updCt k f).cvus = s.cvus := rfl
@[simp] theorem updCt_regs (s : State) (k : Nat) (f : Ct → Ct) : (s.updCt k f).regs = s.regs := rfl
@[simp] theorem updCt_setNow (s : State) (k : Nat) (f : Ct → Ct) : (s.updCt k f).setNow = s.setNow := rfl

/-! ### State.updUnit -/

@[simp] theorem unit_updUnit_same (s : State) (n : Nat) (f : UnitSvc → UnitSvc) : (s.updUnit n f).unit n = f (s.unit n) := by
  simp [State.updUnit, State.unit]

theorem unit_updUnit (s : State) (n i : Nat) (f : UnitSvc → UnitSvc) :
    (s.updUnit n f).unit i = if i = n then f (s.unit n) else s.unit i := by
  simp only [State.updUnit, State.unit, get_upd]

@[simp] theorem updUnit_pending (s : State) (n : Nat) (f : UnitSvc → UnitSvc) : (s.updUnit n f).pending = s.pending := rfl
@[simp] theorem updUnit_fresh (s : State) (n : Nat) (f : UnitSvc → UnitSvc) : (s.updUnit n f).fresh = s.fresh := rfl
@[simp] theorem updUnit_port (s : State) (n : Nat) (f : UnitSvc → UnitSvc) : (s.updUnit n f).port = s.port := rfl
@[simp] theorem updUnit_rd (s : State) (n : Nat) (f : UnitSvc → UnitSvc) : (s.updUnit n f).rd = s.rd := rfl
@[simp] theorem updUnit_pwr (s : State) (n : Nat) (f : UnitSvc → UnitSvc) : (s.updUnit n f).pwr = s.pwr := rfl
@[simp] theorem updUnit_sys (s : State) (n : Nat) (f : UnitSvc → UnitSvc) : (s.updUnit n f).sys = s.sys := rfl
@[simp] theorem updUnit_clk (s : State) (n : Nat) (f : UnitSvc → UnitSvc) : (s.updUnit n f).clk = s.clk := rfl
@[simp] theorem updUnit_tb (s : State) (n : Nat) (f : UnitSvc → UnitSvc) : (s.updUnit n f).tb = s.tb := rfl
@[simp] theorem updUnit_chans (s : State) (n : Nat) (f : UnitSvc → UnitSvc) : (s.updUnit n f).chans = s.chans := rfl
@[simp] theorem updUnit_cfg (s : State) (n : Nat) (f : UnitSvc → UnitSvc) : (s.updUnit n f).cfg = s.cfg := rfl
@[simp] theorem updUnit_loaded (s : State) (n : Nat) (f : UnitSvc → UnitSvc) : (s.updUnit n f).loaded = s.loaded := rfl
@[simp] theorem updUnit_cfgSeq (s : State) (n : Nat) (f : UnitSvc → UnitSvc) : (s.updUnit n f).cfgSeq = s.cfgSeq := rfl
@[simp] theorem updUnit_ins (s : State) (n : Nat) (f : UnitSvc → UnitSvc) : (s.updUnit n f).ins = s.ins := rfl
@[simp] theorem updUnit_pairs (s : State) (n : Nat) (f : UnitSvc → UnitSvc) : (s.updUnit n f).pairs = s.pairs := rfl
@[simp] theorem updUnit_encs (s : State) (n : Nat) (f : UnitSvc → UnitSvc) : (s.updUnit n f).encs = s.encs := rfl
@[simp] theorem updUnit_wets (s : State) (n : Nat) (f : UnitSvc → UnitSvc) : (s.updUnit n f).wets = s.wets := rfl
@[simp] theorem updUnit_outs (s : State) (n : Nat) (f : UnitSvc → UnitSvc) : (s.updUnit n f).outs = s.outs := rfl
@[simp] theorem updUnit_tps (s : State) (n : Nat) (f : UnitSvc → UnitSvc) : (s.updUnit n f).tps = s.tps := rfl
@[simp] theorem updUnit_halves (s : State) (n : Nat) (f : UnitSvc → UnitSvc) : (s.updUnit n f).halves = s.halves := rfl
@[simp] theorem updUnit_banks (s : State) (n : Nat) (f : UnitSvc → UnitSvc) : (s.updUnit n f).banks = s.banks := rfl
@[simp] theorem updUnit_ladle (s : State) (n : Nat) (f : UnitSvc → UnitSvc) : (s.updUnit n f).ladle = s.ladle := rfl
@[simp] theorem updUnit_lid (s : State) (n : Nat) (f : UnitSvc → UnitSvc) : (s.updUnit n f).lid = s.lid := rfl
@[simp] theorem updUnit_perm (s : State) (n : Nat) (f : UnitSvc → UnitSvc) : (s.updUnit n f).perm = s.perm := rfl
@[simp] theorem updUnit_engs (s : State) (n : Nat) (f : UnitSvc → UnitSvc) : (s.updUnit n f).engs = s.engs := rfl
@[simp] theorem updUnit_mems (s : State) (n : Nat) (f : UnitSvc → UnitSvc) : (s.updUnit n f).mems = s.mems := rfl
@[simp] theorem updUnit_epairs (s : State) (n : Nat) (f : UnitSvc → UnitSvc) : (s.updUnit n f).epairs = s.epairs := rfl
@[simp] theorem updUnit_regions (s : State) (n : Nat) (f : UnitSvc → UnitSvc) : (s.updUnit n f).regions = s.regions := rfl
@[simp] theorem updUnit_cells (s : State) (n : Nat) (f : UnitSvc → UnitSvc) : (s.updUnit n f).cells = s.cells := rfl
@[simp] theorem updUnit_ho (s : State) (n : Nat) (f : UnitSvc → UnitSvc) : (s.updUnit n f).ho = s.ho := rfl
@[simp] theorem updUnit_groups (s : State) (n : Nat) (f : UnitSvc → UnitSvc) : (s.updUnit n f).groups = s.groups := rfl
@[simp] theorem updUnit_axes (s : State) (n : Nat) (f : UnitSvc → UnitSvc) : (s.updUnit n f).axes = s.axes := rfl
@[simp] theorem updUnit_avail (s : State) (n : Nat) (f : UnitSvc → UnitSvc) : (s.updUnit n f).avail = s.avail := rfl
@[simp] theorem updUnit_net (s : State) (n : Nat) (f : UnitSvc → UnitSvc) : (s.updUnit n f).net = s.net := rfl
@[simp] theorem updUnit_flk (s : State) (n : Nat) (f : UnitSvc → UnitSvc) : (s.updUnit n f).flk = s.flk := rfl
@[simp] theorem updUnit_hif (s : State) (n : Nat) (f : UnitSvc → UnitSvc) : (s.updUnit n f).hif = s.hif := rfl
@[simp] theorem updUnit_store (s : State) (n : Nat) (f : UnitSvc → UnitSvc) : (s.updUnit n f).store = s.store := rfl
@[simp] theorem updUnit_recs (s : State) (n : Nat) (f : UnitSvc → UnitSvc) : (s.updUnit n f).recs = s.recs := rfl
@[simp] theorem updUnit_recSeq (s : State) (n : Nat) (f : UnitSvc → UnitSvc) : (s.updUnit n f).recSeq = s.recSeq := rfl
@[simp] theorem updUnit_bist (s : State) (n : Nat) (f : UnitSvc → UnitSvc) : (s.updUnit n f).bist = s.bist := rfl
@[simp] theorem updUnit_cvus (s : State) (n : Nat) (f : UnitSvc → UnitSvc) : (s.updUnit n f).cvus = s.cvus := rfl
@[simp] theorem updUnit_regs (s : State) (n : Nat) (f : UnitSvc → UnitSvc) : (s.updUnit n f).regs = s.regs := rfl
@[simp] theorem updUnit_setNow (s : State) (n : Nat) (f : UnitSvc → UnitSvc) : (s.updUnit n f).setNow = s.setNow := rfl

/-! ### State.updEng -/

@[simp] theorem updEng_pending (s : State) (e : Nat) (f : Engine → Engine) : (s.updEng e f).pending = s.pending := rfl
@[simp] theorem updEng_fresh (s : State) (e : Nat) (f : Engine → Engine) : (s.updEng e f).fresh = s.fresh := rfl
@[simp] theorem updEng_port (s : State) (e : Nat) (f : Engine → Engine) : (s.updEng e f).port = s.port := rfl
@[simp] theorem updEng_rd (s : State) (e : Nat) (f : Engine → Engine) : (s.updEng e f).rd = s.rd := rfl
@[simp] theorem updEng_pwr (s : State) (e : Nat) (f : Engine → Engine) : (s.updEng e f).pwr = s.pwr := rfl
@[simp] theorem updEng_sys (s : State) (e : Nat) (f : Engine → Engine) : (s.updEng e f).sys = s.sys := rfl
@[simp] theorem updEng_clk (s : State) (e : Nat) (f : Engine → Engine) : (s.updEng e f).clk = s.clk := rfl
@[simp] theorem updEng_tb (s : State) (e : Nat) (f : Engine → Engine) : (s.updEng e f).tb = s.tb := rfl
@[simp] theorem updEng_chans (s : State) (e : Nat) (f : Engine → Engine) : (s.updEng e f).chans = s.chans := rfl
@[simp] theorem updEng_units (s : State) (e : Nat) (f : Engine → Engine) : (s.updEng e f).units = s.units := rfl
@[simp] theorem updEng_cfg (s : State) (e : Nat) (f : Engine → Engine) : (s.updEng e f).cfg = s.cfg := rfl
@[simp] theorem updEng_loaded (s : State) (e : Nat) (f : Engine → Engine) : (s.updEng e f).loaded = s.loaded := rfl
@[simp] theorem updEng_cfgSeq (s : State) (e : Nat) (f : Engine → Engine) : (s.updEng e f).cfgSeq = s.cfgSeq := rfl
@[simp] theorem updEng_ins (s : State) (e : Nat) (f : Engine → Engine) : (s.updEng e f).ins = s.ins := rfl
@[simp] theorem updEng_pairs (s : State) (e : Nat) (f : Engine → Engine) : (s.updEng e f).pairs = s.pairs := rfl
@[simp] theorem updEng_encs (s : State) (e : Nat) (f : Engine → Engine) : (s.updEng e f).encs = s.encs := rfl
@[simp] theorem updEng_wets (s : State) (e : Nat) (f : Engine → Engine) : (s.updEng e f).wets = s.wets := rfl
@[simp] theorem updEng_outs (s : State) (e : Nat) (f : Engine → Engine) : (s.updEng e f).outs = s.outs := rfl
@[simp] theorem updEng_tps (s : State) (e : Nat) (f : Engine → Engine) : (s.updEng e f).tps = s.tps := rfl
@[simp] theorem updEng_halves (s : State) (e : Nat) (f : Engine → Engine) : (s.updEng e f).halves = s.halves := rfl
@[simp] theorem updEng_banks (s : State) (e : Nat) (f : Engine → Engine) : (s.updEng e f).banks = s.banks := rfl
@[simp] theorem updEng_ladle (s : State) (e : Nat) (f : Engine → Engine) : (s.updEng e f).ladle = s.ladle := rfl
@[simp] theorem updEng_lid (s : State) (e : Nat) (f : Engine → Engine) : (s.updEng e f).lid = s.lid := rfl
@[simp] theorem updEng_perm (s : State) (e : Nat) (f : Engine → Engine) : (s.updEng e f).perm = s.perm := rfl
@[simp] theorem updEng_mems (s : State) (e : Nat) (f : Engine → Engine) : (s.updEng e f).mems = s.mems := rfl
@[simp] theorem updEng_epairs (s : State) (e : Nat) (f : Engine → Engine) : (s.updEng e f).epairs = s.epairs := rfl
@[simp] theorem updEng_regions (s : State) (e : Nat) (f : Engine → Engine) : (s.updEng e f).regions = s.regions := rfl
@[simp] theorem updEng_cells (s : State) (e : Nat) (f : Engine → Engine) : (s.updEng e f).cells = s.cells := rfl
@[simp] theorem updEng_ho (s : State) (e : Nat) (f : Engine → Engine) : (s.updEng e f).ho = s.ho := rfl
@[simp] theorem updEng_groups (s : State) (e : Nat) (f : Engine → Engine) : (s.updEng e f).groups = s.groups := rfl
@[simp] theorem updEng_axes (s : State) (e : Nat) (f : Engine → Engine) : (s.updEng e f).axes = s.axes := rfl
@[simp] theorem updEng_avail (s : State) (e : Nat) (f : Engine → Engine) : (s.updEng e f).avail = s.avail := rfl
@[simp] theorem updEng_net (s : State) (e : Nat) (f : Engine → Engine) : (s.updEng e f).net = s.net := rfl
@[simp] theorem updEng_flk (s : State) (e : Nat) (f : Engine → Engine) : (s.updEng e f).flk = s.flk := rfl
@[simp] theorem updEng_hif (s : State) (e : Nat) (f : Engine → Engine) : (s.updEng e f).hif = s.hif := rfl
@[simp] theorem updEng_store (s : State) (e : Nat) (f : Engine → Engine) : (s.updEng e f).store = s.store := rfl
@[simp] theorem updEng_recs (s : State) (e : Nat) (f : Engine → Engine) : (s.updEng e f).recs = s.recs := rfl
@[simp] theorem updEng_recSeq (s : State) (e : Nat) (f : Engine → Engine) : (s.updEng e f).recSeq = s.recSeq := rfl
@[simp] theorem updEng_bist (s : State) (e : Nat) (f : Engine → Engine) : (s.updEng e f).bist = s.bist := rfl
@[simp] theorem updEng_cvus (s : State) (e : Nat) (f : Engine → Engine) : (s.updEng e f).cvus = s.cvus := rfl
@[simp] theorem updEng_regs (s : State) (e : Nat) (f : Engine → Engine) : (s.updEng e f).regs = s.regs := rfl
@[simp] theorem updEng_setNow (s : State) (e : Nat) (f : Engine → Engine) : (s.updEng e f).setNow = s.setNow := rfl

/-! ### The port and the value read -/

@[simp] theorem emit_pending (s : State) (e : Emit) : (s.emit e).pending = s.pending := rfl
@[simp] theorem emit_fresh (s : State) (e : Emit) : (s.emit e).fresh = s.fresh := rfl
@[simp] theorem emit_rd (s : State) (e : Emit) : (s.emit e).rd = s.rd := rfl
@[simp] theorem emit_pwr (s : State) (e : Emit) : (s.emit e).pwr = s.pwr := rfl
@[simp] theorem emit_sys (s : State) (e : Emit) : (s.emit e).sys = s.sys := rfl
@[simp] theorem emit_clk (s : State) (e : Emit) : (s.emit e).clk = s.clk := rfl
@[simp] theorem emit_tb (s : State) (e : Emit) : (s.emit e).tb = s.tb := rfl
@[simp] theorem emit_chans (s : State) (e : Emit) : (s.emit e).chans = s.chans := rfl
@[simp] theorem emit_units (s : State) (e : Emit) : (s.emit e).units = s.units := rfl
@[simp] theorem emit_cfg (s : State) (e : Emit) : (s.emit e).cfg = s.cfg := rfl
@[simp] theorem emit_loaded (s : State) (e : Emit) : (s.emit e).loaded = s.loaded := rfl
@[simp] theorem emit_cfgSeq (s : State) (e : Emit) : (s.emit e).cfgSeq = s.cfgSeq := rfl
@[simp] theorem emit_ins (s : State) (e : Emit) : (s.emit e).ins = s.ins := rfl
@[simp] theorem emit_pairs (s : State) (e : Emit) : (s.emit e).pairs = s.pairs := rfl
@[simp] theorem emit_encs (s : State) (e : Emit) : (s.emit e).encs = s.encs := rfl
@[simp] theorem emit_wets (s : State) (e : Emit) : (s.emit e).wets = s.wets := rfl
@[simp] theorem emit_outs (s : State) (e : Emit) : (s.emit e).outs = s.outs := rfl
@[simp] theorem emit_tps (s : State) (e : Emit) : (s.emit e).tps = s.tps := rfl
@[simp] theorem emit_halves (s : State) (e : Emit) : (s.emit e).halves = s.halves := rfl
@[simp] theorem emit_banks (s : State) (e : Emit) : (s.emit e).banks = s.banks := rfl
@[simp] theorem emit_ladle (s : State) (e : Emit) : (s.emit e).ladle = s.ladle := rfl
@[simp] theorem emit_lid (s : State) (e : Emit) : (s.emit e).lid = s.lid := rfl
@[simp] theorem emit_perm (s : State) (e : Emit) : (s.emit e).perm = s.perm := rfl
@[simp] theorem emit_engs (s : State) (e : Emit) : (s.emit e).engs = s.engs := rfl
@[simp] theorem emit_mems (s : State) (e : Emit) : (s.emit e).mems = s.mems := rfl
@[simp] theorem emit_epairs (s : State) (e : Emit) : (s.emit e).epairs = s.epairs := rfl
@[simp] theorem emit_regions (s : State) (e : Emit) : (s.emit e).regions = s.regions := rfl
@[simp] theorem emit_cells (s : State) (e : Emit) : (s.emit e).cells = s.cells := rfl
@[simp] theorem emit_ho (s : State) (e : Emit) : (s.emit e).ho = s.ho := rfl
@[simp] theorem emit_groups (s : State) (e : Emit) : (s.emit e).groups = s.groups := rfl
@[simp] theorem emit_axes (s : State) (e : Emit) : (s.emit e).axes = s.axes := rfl
@[simp] theorem emit_avail (s : State) (e : Emit) : (s.emit e).avail = s.avail := rfl
@[simp] theorem emit_net (s : State) (e : Emit) : (s.emit e).net = s.net := rfl
@[simp] theorem emit_flk (s : State) (e : Emit) : (s.emit e).flk = s.flk := rfl
@[simp] theorem emit_hif (s : State) (e : Emit) : (s.emit e).hif = s.hif := rfl
@[simp] theorem emit_store (s : State) (e : Emit) : (s.emit e).store = s.store := rfl
@[simp] theorem emit_recs (s : State) (e : Emit) : (s.emit e).recs = s.recs := rfl
@[simp] theorem emit_recSeq (s : State) (e : Emit) : (s.emit e).recSeq = s.recSeq := rfl
@[simp] theorem emit_bist (s : State) (e : Emit) : (s.emit e).bist = s.bist := rfl
@[simp] theorem emit_cvus (s : State) (e : Emit) : (s.emit e).cvus = s.cvus := rfl
@[simp] theorem emit_regs (s : State) (e : Emit) : (s.emit e).regs = s.regs := rfl
@[simp] theorem emit_setNow (s : State) (e : Emit) : (s.emit e).setNow = s.setNow := rfl
@[simp] theorem ret_pending (s : State) (a b : Word) : (s.ret a b).pending = s.pending := rfl
@[simp] theorem ret_fresh (s : State) (a b : Word) : (s.ret a b).fresh = s.fresh := rfl
@[simp] theorem ret_port (s : State) (a b : Word) : (s.ret a b).port = s.port := rfl
@[simp] theorem ret_pwr (s : State) (a b : Word) : (s.ret a b).pwr = s.pwr := rfl
@[simp] theorem ret_sys (s : State) (a b : Word) : (s.ret a b).sys = s.sys := rfl
@[simp] theorem ret_clk (s : State) (a b : Word) : (s.ret a b).clk = s.clk := rfl
@[simp] theorem ret_tb (s : State) (a b : Word) : (s.ret a b).tb = s.tb := rfl
@[simp] theorem ret_chans (s : State) (a b : Word) : (s.ret a b).chans = s.chans := rfl
@[simp] theorem ret_units (s : State) (a b : Word) : (s.ret a b).units = s.units := rfl
@[simp] theorem ret_cfg (s : State) (a b : Word) : (s.ret a b).cfg = s.cfg := rfl
@[simp] theorem ret_loaded (s : State) (a b : Word) : (s.ret a b).loaded = s.loaded := rfl
@[simp] theorem ret_cfgSeq (s : State) (a b : Word) : (s.ret a b).cfgSeq = s.cfgSeq := rfl
@[simp] theorem ret_ins (s : State) (a b : Word) : (s.ret a b).ins = s.ins := rfl
@[simp] theorem ret_pairs (s : State) (a b : Word) : (s.ret a b).pairs = s.pairs := rfl
@[simp] theorem ret_encs (s : State) (a b : Word) : (s.ret a b).encs = s.encs := rfl
@[simp] theorem ret_wets (s : State) (a b : Word) : (s.ret a b).wets = s.wets := rfl
@[simp] theorem ret_outs (s : State) (a b : Word) : (s.ret a b).outs = s.outs := rfl
@[simp] theorem ret_tps (s : State) (a b : Word) : (s.ret a b).tps = s.tps := rfl
@[simp] theorem ret_halves (s : State) (a b : Word) : (s.ret a b).halves = s.halves := rfl
@[simp] theorem ret_banks (s : State) (a b : Word) : (s.ret a b).banks = s.banks := rfl
@[simp] theorem ret_ladle (s : State) (a b : Word) : (s.ret a b).ladle = s.ladle := rfl
@[simp] theorem ret_lid (s : State) (a b : Word) : (s.ret a b).lid = s.lid := rfl
@[simp] theorem ret_perm (s : State) (a b : Word) : (s.ret a b).perm = s.perm := rfl
@[simp] theorem ret_engs (s : State) (a b : Word) : (s.ret a b).engs = s.engs := rfl
@[simp] theorem ret_mems (s : State) (a b : Word) : (s.ret a b).mems = s.mems := rfl
@[simp] theorem ret_epairs (s : State) (a b : Word) : (s.ret a b).epairs = s.epairs := rfl
@[simp] theorem ret_regions (s : State) (a b : Word) : (s.ret a b).regions = s.regions := rfl
@[simp] theorem ret_cells (s : State) (a b : Word) : (s.ret a b).cells = s.cells := rfl
@[simp] theorem ret_ho (s : State) (a b : Word) : (s.ret a b).ho = s.ho := rfl
@[simp] theorem ret_groups (s : State) (a b : Word) : (s.ret a b).groups = s.groups := rfl
@[simp] theorem ret_axes (s : State) (a b : Word) : (s.ret a b).axes = s.axes := rfl
@[simp] theorem ret_avail (s : State) (a b : Word) : (s.ret a b).avail = s.avail := rfl
@[simp] theorem ret_net (s : State) (a b : Word) : (s.ret a b).net = s.net := rfl
@[simp] theorem ret_flk (s : State) (a b : Word) : (s.ret a b).flk = s.flk := rfl
@[simp] theorem ret_hif (s : State) (a b : Word) : (s.ret a b).hif = s.hif := rfl
@[simp] theorem ret_store (s : State) (a b : Word) : (s.ret a b).store = s.store := rfl
@[simp] theorem ret_recs (s : State) (a b : Word) : (s.ret a b).recs = s.recs := rfl
@[simp] theorem ret_recSeq (s : State) (a b : Word) : (s.ret a b).recSeq = s.recSeq := rfl
@[simp] theorem ret_bist (s : State) (a b : Word) : (s.ret a b).bist = s.bist := rfl
@[simp] theorem ret_cvus (s : State) (a b : Word) : (s.ret a b).cvus = s.cvus := rfl
@[simp] theorem ret_regs (s : State) (a b : Word) : (s.ret a b).regs = s.regs := rfl
@[simp] theorem ret_setNow (s : State) (a b : Word) : (s.ret a b).setNow = s.setNow := rfl

/-! ### Vectors, events of the host interface and fault records -/

/-- What `raise` can change: the pending bits and the port. -/
theorem raise_frame (s : State) (v : Nat) : s.raise v = { s with hif := { s.hif with pend := (s.raise v).hif.pend }, port := (s.raise v).port } := by
  unfold State.raise; split <;> rfl

/-- What an event of the host interface can change: its bit, the pending bits and the port. -/
theorem hifEvt_frame (s : State) (i : Nat) : s.hifEvt i =
    { s with hif := { s.hif with evt := (s.hifEvt i).hif.evt, pend := (s.hifEvt i).hif.pend }, port := (s.hifEvt i).port,
             setNow := (s.hifEvt i).setNow } := by
  unfold State.hifEvt State.when
  extract_lets was src u
  split
  · beta_reduce
    have h := raise_frame u 0
    generalize u.raise 0 = w at h ⊢
    rw [h]
    rfl
  · rfl

/-- What a fault record can change: the records, their number, and an event of the host interface. -/
theorem record_frame (s : State) (a : RecArg) : s.record a =
    { s with recs := (s.record a).recs, recSeq := (s.record a).recSeq, port := (s.record a).port, setNow := (s.record a).setNow
             hif := { s.hif with evt := (s.record a).hif.evt, pend := (s.record a).hif.pend } } := by
  unfold State.record
  extract_lets site r
  have h := hifEvt_frame { s with recs := (r :: s.recs).take 4096, recSeq := s.recSeq + 1 } 0
  generalize State.hifEvt _ 0 = w at h ⊢
  rw [h]

end Sys2Proof.Laws
end

