-- ==== Sys2Proof/Laws/Tick.lean ====
section
/-! SUPPORT. What a tick of the clock changes where nothing waits for its end: TB and its fraction, the engines' timers, the refill
accumulators, the lockouts, and what holds within one tick only. Every lemma unfolds the tick by name: comparing the whole
states would unfold TB's arithmetic. -/

namespace Sys2Proof.Laws

open Sys2Proof Sys2Proof.Machine Sys2Proof.Safety

@[simp] theorem tick_inc (u : Timebase) : u.tick.inc = u.inc := by unfold Timebase.tick; rfl
@[simp] theorem lfTick_inc (u : Timebase) : u.lfTick.inc = u.inc := by unfold Timebase.lfTick; rfl
@[simp] theorem tick_latch (u : Timebase) : u.tick.latch = u.latch := by unfold Timebase.tick; rfl
@[simp] theorem lfTick_latch (u : Timebase) : u.lfTick.latch = u.latch := by unfold Timebase.lfTick; rfl
@[simp] theorem tick_lock (u : Timebase) : u.tick.lock = u.lock := by unfold Timebase.tick; rfl
@[simp] theorem lfTick_lock (u : Timebase) : u.lfTick.lock = u.lock := by unfold Timebase.lfTick; rfl
@[simp] theorem tick_unset (u : Timebase) : u.tick.unset = u.unset := by unfold Timebase.tick; rfl
@[simp] theorem lfTick_unset (u : Timebase) : u.lfTick.unset = u.unset := by unfold Timebase.lfTick; rfl
@[simp] theorem tick_evt (u : Timebase) : u.tick.evt = u.evt := by unfold Timebase.tick; rfl
@[simp] theorem lfTick_evt (u : Timebase) : u.lfTick.evt = u.evt := by unfold Timebase.lfTick; rfl
@[simp] theorem tick_lfRun (u : Timebase) : u.tick.lfRun = u.lfRun := by unfold Timebase.tick; rfl
@[simp] theorem lfTick_lfRun (u : Timebase) : u.lfTick.lfRun = u.lfRun := by unfold Timebase.lfTick; rfl
@[simp] theorem tick_offset (u : Timebase) : u.tick.offset = u.offset := by unfold Timebase.tick; rfl
@[simp] theorem lfTick_offset (u : Timebase) : u.lfTick.offset = u.offset := by unfold Timebase.lfTick; rfl
@[simp] theorem tick_good (u : Timebase) : u.tick.good = u.good := by unfold Timebase.tick; rfl
@[simp] theorem lfTick_good (u : Timebase) : u.lfTick.good = u.good := by unfold Timebase.lfTick; rfl
@[simp] theorem tick_far (u : Timebase) : u.tick.far = u.far := by unfold Timebase.tick; rfl
@[simp] theorem lfTick_far (u : Timebase) : u.lfTick.far = u.far := by unfold Timebase.lfTick; rfl
@[simp] theorem tick_refAddr (u : Timebase) : u.tick.refAddr = u.refAddr := by unfold Timebase.tick; rfl
@[simp] theorem lfTick_refAddr (u : Timebase) : u.lfTick.refAddr = u.refAddr := by unfold Timebase.lfTick; rfl
@[simp] theorem tick_src (u : Timebase) : u.tick.src = u.src := by unfold Timebase.tick; rfl
@[simp] theorem lfTick_src (u : Timebase) : u.lfTick.src = u.src := by unfold Timebase.lfTick; rfl
@[simp] theorem tick_port (u : Timebase) : u.tick.port = u.port := by unfold Timebase.tick; rfl
@[simp] theorem lfTick_port (u : Timebase) : u.lfTick.port = u.port := by unfold Timebase.lfTick; rfl
@[simp] theorem tick_utc (u : Timebase) : u.tick.utc = u.utc := by unfold Timebase.tick; rfl
@[simp] theorem lfTick_utc (u : Timebase) : u.lfTick.utc = u.utc := by unfold Timebase.lfTick; rfl
@[simp] theorem tick_measAt (u : Timebase) : u.tick.measAt = u.measAt := by unfold Timebase.tick; rfl
@[simp] theorem lfTick_measAt (u : Timebase) : u.lfTick.measAt = u.measAt := by unfold Timebase.lfTick; rfl
@[simp] theorem tick_farNow (u : Timebase) : u.tick.farNow = u.farNow := by unfold Timebase.tick; rfl
@[simp] theorem lfTick_farNow (u : Timebase) : u.lfTick.farNow = u.farNow := by unfold Timebase.lfTick; rfl
@[simp] theorem tick_utcSrc (u : Timebase) : u.tick.utcSrc = u.utcSrc := by unfold Timebase.tick; rfl
@[simp] theorem lfTick_utcSrc (u : Timebase) : u.lfTick.utcSrc = u.utcSrc := by unfold Timebase.lfTick; rfl
@[simp] theorem tick_utcHost (u : Timebase) : u.tick.utcHost = u.utcHost := by unfold Timebase.tick; rfl
@[simp] theorem lfTick_utcHost (u : Timebase) : u.lfTick.utcHost = u.utcHost := by unfold Timebase.lfTick; rfl
@[simp] theorem tick_leap61 (u : Timebase) : u.tick.leap61 = u.leap61 := by unfold Timebase.tick; rfl
@[simp] theorem lfTick_leap61 (u : Timebase) : u.lfTick.leap61 = u.leap61 := by unfold Timebase.lfTick; rfl
@[simp] theorem tick_leap59 (u : Timebase) : u.tick.leap59 = u.leap59 := by unfold Timebase.tick; rfl
@[simp] theorem lfTick_leap59 (u : Timebase) : u.lfTick.leap59 = u.leap59 := by unfold Timebase.lfTick; rfl
@[simp] theorem tick_leapDay (u : Timebase) : u.tick.leapDay = u.leapDay := by unfold Timebase.tick; rfl
@[simp] theorem lfTick_leapDay (u : Timebase) : u.lfTick.leapDay = u.leapDay := by unfold Timebase.lfTick; rfl

/-- A tick adds INC to the accumulator of TB and its fraction (R82). -/
theorem tick_value (u : Timebase) : u.tick.tb.toNat * 2 ^ 32 + u.tick.frac.toNat =
    (u.tb.toNat * 2 ^ 32 + u.frac.toNat + u.inc.toNat) % 2 ^ 96 := by
  unfold Timebase.tick
  simp only [BitVec.toNat_ofNat]
  omega

@[simp] theorem nextTick_armA (l : LidS) : l.nextTick.armA = l.armA := rfl
@[simp] theorem nextTick_relA (l : LidS) : l.nextTick.relA = l.relA := rfl
@[simp] theorem nextTick_armB (l : LidS) : l.nextTick.armB = l.armB := rfl
@[simp] theorem nextTick_relB (l : LidS) : l.nextTick.relB = l.relB := rfl
@[simp] theorem nextTick_maskA (l : LidS) : l.nextTick.maskA = l.maskA := rfl
@[simp] theorem nextTick_maskB (l : LidS) : l.nextTick.maskB = l.maskB := rfl
@[simp] theorem nextTick_im (l : LidS) : l.nextTick.im = l.im := rfl
@[simp] theorem nextTick_new (l : LidS) : l.nextTick.new = l.new := rfl
@[simp] theorem nextTick_evt (l : LidS) : l.nextTick.evt = l.evt := rfl
@[simp] theorem nextTick_faultA (l : LidS) : l.nextTick.faultA = l.faultA := rfl
@[simp] theorem nextTick_faultB (l : LidS) : l.nextTick.faultB = l.faultB := rfl
@[simp] theorem nextTick_cause (l : LidS) : l.nextTick.cause = l.cause := rfl
@[simp] theorem nextTick_disAt (l : LidS) : l.nextTick.disAt = l.disAt := rfl

@[simp] theorem fabricTick_pending (s : State) : s.fabricTick.pending = s.pending := by unfold State.fabricTick; rfl
@[simp] theorem fabricTick_fresh (s : State) : s.fabricTick.fresh = s.fresh := by unfold State.fabricTick; rfl
@[simp] theorem fabricTick_port (s : State) : s.fabricTick.port = s.port := by unfold State.fabricTick; rfl
@[simp] theorem fabricTick_rd (s : State) : s.fabricTick.rd = s.rd := by unfold State.fabricTick; rfl
@[simp] theorem fabricTick_pwr (s : State) : s.fabricTick.pwr = s.pwr := by unfold State.fabricTick; rfl
@[simp] theorem fabricTick_sys (s : State) : s.fabricTick.sys = s.sys := by unfold State.fabricTick; rfl
@[simp] theorem fabricTick_clk (s : State) : s.fabricTick.clk = s.clk := by unfold State.fabricTick; rfl
@[simp] theorem fabricTick_chans (s : State) : s.fabricTick.chans = s.chans := by unfold State.fabricTick; rfl
@[simp] theorem fabricTick_units (s : State) : s.fabricTick.units = s.units := by unfold State.fabricTick; rfl
@[simp] theorem fabricTick_cfg (s : State) : s.fabricTick.cfg = s.cfg := by unfold State.fabricTick; rfl
@[simp] theorem fabricTick_loaded (s : State) : s.fabricTick.loaded = s.loaded := by unfold State.fabricTick; rfl
@[simp] theorem fabricTick_cfgSeq (s : State) : s.fabricTick.cfgSeq = s.cfgSeq := by unfold State.fabricTick; rfl
@[simp] theorem fabricTick_ins (s : State) : s.fabricTick.ins = s.ins := by unfold State.fabricTick; rfl
@[simp] theorem fabricTick_pairs (s : State) : s.fabricTick.pairs = s.pairs := by unfold State.fabricTick; rfl
@[simp] theorem fabricTick_encs (s : State) : s.fabricTick.encs = s.encs := by unfold State.fabricTick; rfl
@[simp] theorem fabricTick_wets (s : State) : s.fabricTick.wets = s.wets := by unfold State.fabricTick; rfl
@[simp] theorem fabricTick_outs (s : State) : s.fabricTick.outs = s.outs := by unfold State.fabricTick; rfl
@[simp] theorem fabricTick_tps (s : State) : s.fabricTick.tps = s.tps := by unfold State.fabricTick; rfl
@[simp] theorem fabricTick_halves (s : State) : s.fabricTick.halves = s.halves := by unfold State.fabricTick; rfl
@[simp] theorem fabricTick_banks (s : State) : s.fabricTick.banks = s.banks := by unfold State.fabricTick; rfl
@[simp] theorem fabricTick_perm (s : State) : s.fabricTick.perm = s.perm := by unfold State.fabricTick; rfl
@[simp] theorem fabricTick_mems (s : State) : s.fabricTick.mems = s.mems := by unfold State.fabricTick; rfl
@[simp] theorem fabricTick_epairs (s : State) : s.fabricTick.epairs = s.epairs := by unfold State.fabricTick; rfl
@[simp] theorem fabricTick_regions (s : State) : s.fabricTick.regions = s.regions := by unfold State.fabricTick; rfl
@[simp] theorem fabricTick_cells (s : State) : s.fabricTick.cells = s.cells := by unfold State.fabricTick; rfl
@[simp] theorem fabricTick_ho (s : State) : s.fabricTick.ho = s.ho := by unfold State.fabricTick; rfl
@[simp] theorem fabricTick_groups (s : State) : s.fabricTick.groups = s.groups := by unfold State.fabricTick; rfl
@[simp] theorem fabricTick_axes (s : State) : s.fabricTick.axes = s.axes := by unfold State.fabricTick; rfl
@[simp] theorem fabricTick_avail (s : State) : s.fabricTick.avail = s.avail := by unfold State.fabricTick; rfl
@[simp] theorem fabricTick_net (s : State) : s.fabricTick.net = s.net := by unfold State.fabricTick; rfl
@[simp] theorem fabricTick_flk (s : State) : s.fabricTick.flk = s.flk := by unfold State.fabricTick; rfl
@[simp] theorem fabricTick_hif (s : State) : s.fabricTick.hif = s.hif := by unfold State.fabricTick; rfl
@[simp] theorem fabricTick_recs (s : State) : s.fabricTick.recs = s.recs := by unfold State.fabricTick; rfl
@[simp] theorem fabricTick_recSeq (s : State) : s.fabricTick.recSeq = s.recSeq := by unfold State.fabricTick; rfl
@[simp] theorem fabricTick_bist (s : State) : s.fabricTick.bist = s.bist := by unfold State.fabricTick; rfl
@[simp] theorem fabricTick_cvus (s : State) : s.fabricTick.cvus = s.cvus := by unfold State.fabricTick; rfl
@[simp] theorem fabricTick_regs (s : State) : s.fabricTick.regs = s.regs := by unfold State.fabricTick; rfl
@[simp] theorem fabricTick_tb (s : State) : s.fabricTick.tb = s.tb.tick := by unfold State.fabricTick; rfl
@[simp] theorem fabricTick_lid (s : State) : s.fabricTick.lid = s.lid.nextTick := by unfold State.fabricTick; rfl
@[simp] theorem fabricTick_engs (s : State) : s.fabricTick.engs = Tab.mapVal {} Engine.tick s.engs := by unfold State.fabricTick; rfl

@[simp] theorem lfTickS_pending (s : State) : s.lfTick.pending = s.pending := by unfold State.lfTick; rfl
@[simp] theorem lfTickS_fresh (s : State) : s.lfTick.fresh = s.fresh := by unfold State.lfTick; rfl
@[simp] theorem lfTickS_port (s : State) : s.lfTick.port = s.port := by unfold State.lfTick; rfl
@[simp] theorem lfTickS_rd (s : State) : s.lfTick.rd = s.rd := by unfold State.lfTick; rfl
@[simp] theorem lfTickS_pwr (s : State) : s.lfTick.pwr = s.pwr := by unfold State.lfTick; rfl
@[simp] theorem lfTickS_sys (s : State) : s.lfTick.sys = s.sys := by unfold State.lfTick; rfl
@[simp] theorem lfTickS_clk (s : State) : s.lfTick.clk = s.clk := by unfold State.lfTick; rfl
@[simp] theorem lfTickS_chans (s : State) : s.lfTick.chans = s.chans := by unfold State.lfTick; rfl
@[simp] theorem lfTickS_units (s : State) : s.lfTick.units = s.units := by unfold State.lfTick; rfl
@[simp] theorem lfTickS_cfg (s : State) : s.lfTick.cfg = s.cfg := by unfold State.lfTick; rfl
@[simp] theorem lfTickS_loaded (s : State) : s.lfTick.loaded = s.loaded := by unfold State.lfTick; rfl
@[simp] theorem lfTickS_cfgSeq (s : State) : s.lfTick.cfgSeq = s.cfgSeq := by unfold State.lfTick; rfl
@[simp] theorem lfTickS_ins (s : State) : s.lfTick.ins = s.ins := by unfold State.lfTick; rfl
@[simp] theorem lfTickS_pairs (s : State) : s.lfTick.pairs = s.pairs := by unfold State.lfTick; rfl
@[simp] theorem lfTickS_encs (s : State) : s.lfTick.encs = s.encs := by unfold State.lfTick; rfl
@[simp] theorem lfTickS_wets (s : State) : s.lfTick.wets = s.wets := by unfold State.lfTick; rfl
@[simp] theorem lfTickS_outs (s : State) : s.lfTick.outs = s.outs := by unfold State.lfTick; rfl
@[simp] theorem lfTickS_tps (s : State) : s.lfTick.tps = s.tps := by unfold State.lfTick; rfl
@[simp] theorem lfTickS_halves (s : State) : s.lfTick.halves = s.halves := by unfold State.lfTick; rfl
@[simp] theorem lfTickS_banks (s : State) : s.lfTick.banks = s.banks := by unfold State.lfTick; rfl
@[simp] theorem lfTickS_ladle (s : State) : s.lfTick.ladle = s.ladle := by unfold State.lfTick; rfl
@[simp] theorem lfTickS_perm (s : State) : s.lfTick.perm = s.perm := by unfold State.lfTick; rfl
@[simp] theorem lfTickS_engs (s : State) : s.lfTick.engs = s.engs := by unfold State.lfTick; rfl
@[simp] theorem lfTickS_mems (s : State) : s.lfTick.mems = s.mems := by unfold State.lfTick; rfl
@[simp] theorem lfTickS_epairs (s : State) : s.lfTick.epairs = s.epairs := by unfold State.lfTick; rfl
@[simp] theorem lfTickS_regions (s : State) : s.lfTick.regions = s.regions := by unfold State.lfTick; rfl
@[simp] theorem lfTickS_cells (s : State) : s.lfTick.cells = s.cells := by unfold State.lfTick; rfl
@[simp] theorem lfTickS_ho (s : State) : s.lfTick.ho = s.ho := by unfold State.lfTick; rfl
@[simp] theorem lfTickS_groups (s : State) : s.lfTick.groups = s.groups := by unfold State.lfTick; rfl
@[simp] theorem lfTickS_axes (s : State) : s.lfTick.axes = s.axes := by unfold State.lfTick; rfl
@[simp] theorem lfTickS_avail (s : State) : s.lfTick.avail = s.avail := by unfold State.lfTick; rfl
@[simp] theorem lfTickS_net (s : State) : s.lfTick.net = s.net := by unfold State.lfTick; rfl
@[simp] theorem lfTickS_flk (s : State) : s.lfTick.flk = s.flk := by unfold State.lfTick; rfl
@[simp] theorem lfTickS_hif (s : State) : s.lfTick.hif = s.hif := by unfold State.lfTick; rfl
@[simp] theorem lfTickS_store (s : State) : s.lfTick.store = s.store := by unfold State.lfTick; rfl
@[simp] theorem lfTickS_recs (s : State) : s.lfTick.recs = s.recs := by unfold State.lfTick; rfl
@[simp] theorem lfTickS_recSeq (s : State) : s.lfTick.recSeq = s.recSeq := by unfold State.lfTick; rfl
@[simp] theorem lfTickS_bist (s : State) : s.lfTick.bist = s.bist := by unfold State.lfTick; rfl
@[simp] theorem lfTickS_cvus (s : State) : s.lfTick.cvus = s.cvus := by unfold State.lfTick; rfl
@[simp] theorem lfTickS_regs (s : State) : s.lfTick.regs = s.regs := by unfold State.lfTick; rfl

theorem land_quiet (s : State) (h : s.perm.due = []) : s.land = s := by unfold State.land; rw [if_pos h]

theorem hostTick_quiet (s : State) (h : s.hif.late = [] ∧ s.hif.rx = [] ∧ (s.hif.silTo = false ∨ s.hif.silent = true)) :
    s.hostTick = s := by unfold State.hostTick; rw [if_pos h]

theorem reportRun_quiet (s : State) (h : s.bist.ended = none) : s.reportRun = s := by unfold State.reportRun; rw [h]

theorem lockedLoad_quiet (s : State) (h : ¬(s.pwr.phase = .waitLock ∧ s.tb.lock = true)) : s.lockedLoad = s := by
  unfold State.lockedLoad; rw [if_neg h]

theorem seeCleared_quiet (s : State) (h : s.regs.clrNow = []) : s.seeCleared = s := by unfold State.seeCleared; rw [if_pos h]

/-- The end of a tick that nothing waits for changes nothing. -/
theorem tickEnd_quiet (s : State) (h : Quiet s) : s.tickEnd = s := by
  obtain ⟨h1, h2, h3, h4, _⟩ := h
  unfold State.tickEnd
  rw [land_quiet s h1, hostTick_quiet s h2, reportRun_quiet s h3, lockedLoad_quiet s h4]

/-- Everything a tick can be where nothing waits for its end. -/
theorem tick_quiet (s : State) (h : Quiet s) :
    s.tick = if s.tb.lfRun = true then s.lfTick else if (s.coreUp && s.pwr.phase.powered) = true then s.fabricTick else s := by
  unfold State.tick
  rw [tickEnd_quiet s h, seeCleared_quiet s.lfTick (by rw [lfTickS_regs]; exact h.2.2.2.2),
    seeCleared_quiet s.fabricTick (by rw [fabricTick_regs]; exact h.2.2.2.2)]

/-- The same as three cases. -/
theorem tick_cases (s : State) (h : Quiet s) : s.tick = s.lfTick ∨ s.tick = s.fabricTick ∨ s.tick = s := by
  rw [tick_quiet s h]
  split
  · exact .inl rfl
  · split
    · exact .inr (.inl rfl)
    · exact .inr (.inr rfl)

theorem tick_state_pending (s : State) (h : Quiet s) : s.tick.pending = s.pending := by
  rcases tick_cases s h with h | h | h <;> rw [h]
  · exact lfTickS_pending s
  · exact fabricTick_pending s
theorem tick_state_fresh (s : State) (h : Quiet s) : s.tick.fresh = s.fresh := by
  rcases tick_cases s h with h | h | h <;> rw [h]
  · exact lfTickS_fresh s
  · exact fabricTick_fresh s
theorem tick_state_port (s : State) (h : Quiet s) : s.tick.port = s.port := by
  rcases tick_cases s h with h | h | h <;> rw [h]
  · exact lfTickS_port s
  · exact fabricTick_port s
theorem tick_state_rd (s : State) (h : Quiet s) : s.tick.rd = s.rd := by
  rcases tick_cases s h with h | h | h <;> rw [h]
  · exact lfTickS_rd s
  · exact fabricTick_rd s
theorem tick_state_pwr (s : State) (h : Quiet s) : s.tick.pwr = s.pwr := by
  rcases tick_cases s h with h | h | h <;> rw [h]
  · exact lfTickS_pwr s
  · exact fabricTick_pwr s
theorem tick_state_sys (s : State) (h : Quiet s) : s.tick.sys = s.sys := by
  rcases tick_cases s h with h | h | h <;> rw [h]
  · exact lfTickS_sys s
  · exact fabricTick_sys s
theorem tick_state_clk (s : State) (h : Quiet s) : s.tick.clk = s.clk := by
  rcases tick_cases s h with h | h | h <;> rw [h]
  · exact lfTickS_clk s
  · exact fabricTick_clk s
theorem tick_state_chans (s : State) (h : Quiet s) : s.tick.chans = s.chans := by
  rcases tick_cases s h with h | h | h <;> rw [h]
  · exact lfTickS_chans s
  · exact fabricTick_chans s
theorem tick_state_units (s : State) (h : Quiet s) : s.tick.units = s.units := by
  rcases tick_cases s h with h | h | h <;> rw [h]
  · exact lfTickS_units s
  · exact fabricTick_units s
theorem tick_state_cfg (s : State) (h : Quiet s) : s.tick.cfg = s.cfg := by
  rcases tick_cases s h with h | h | h <;> rw [h]
  · exact lfTickS_cfg s
  · exact fabricTick_cfg s
theorem tick_state_loaded (s : State) (h : Quiet s) : s.tick.loaded = s.loaded := by
  rcases tick_cases s h with h | h | h <;> rw [h]
  · exact lfTickS_loaded s
  · exact fabricTick_loaded s
theorem tick_state_cfgSeq (s : State) (h : Quiet s) : s.tick.cfgSeq = s.cfgSeq := by
  rcases tick_cases s h with h | h | h <;> rw [h]
  · exact lfTickS_cfgSeq s
  · exact fabricTick_cfgSeq s
theorem tick_state_ins (s : State) (h : Quiet s) : s.tick.ins = s.ins := by
  rcases tick_cases s h with h | h | h <;> rw [h]
  · exact lfTickS_ins s
  · exact fabricTick_ins s
theorem tick_state_pairs (s : State) (h : Quiet s) : s.tick.pairs = s.pairs := by
  rcases tick_cases s h with h | h | h <;> rw [h]
  · exact lfTickS_pairs s
  · exact fabricTick_pairs s
theorem tick_state_encs (s : State) (h : Quiet s) : s.tick.encs = s.encs := by
  rcases tick_cases s h with h | h | h <;> rw [h]
  · exact lfTickS_encs s
  · exact fabricTick_encs s
theorem tick_state_wets (s : State) (h : Quiet s) : s.tick.wets = s.wets := by
  rcases tick_cases s h with h | h | h <;> rw [h]
  · exact lfTickS_wets s
  · exact fabricTick_wets s
theorem tick_state_outs (s : State) (h : Quiet s) : s.tick.outs = s.outs := by
  rcases tick_cases s h with h | h | h <;> rw [h]
  · exact lfTickS_outs s
  · exact fabricTick_outs s
theorem tick_state_tps (s : State) (h : Quiet s) : s.tick.tps = s.tps := by
  rcases tick_cases s h with h | h | h <;> rw [h]
  · exact lfTickS_tps s
  · exact fabricTick_tps s
theorem tick_state_halves (s : State) (h : Quiet s) : s.tick.halves = s.halves := by
  rcases tick_cases s h with h | h | h <;> rw [h]
  · exact lfTickS_halves s
  · exact fabricTick_halves s
theorem tick_state_banks (s : State) (h : Quiet s) : s.tick.banks = s.banks := by
  rcases tick_cases s h with h | h | h <;> rw [h]
  · exact lfTickS_banks s
  · exact fabricTick_banks s
theorem tick_state_perm (s : State) (h : Quiet s) : s.tick.perm = s.perm := by
  rcases tick_cases s h with h | h | h <;> rw [h]
  · exact lfTickS_perm s
  · exact fabricTick_perm s
theorem tick_state_mems (s : State) (h : Quiet s) : s.tick.mems = s.mems := by
  rcases tick_cases s h with h | h | h <;> rw [h]
  · exact lfTickS_mems s
  · exact fabricTick_mems s
theorem tick_state_epairs (s : State) (h : Quiet s) : s.tick.epairs = s.epairs := by
  rcases tick_cases s h with h | h | h <;> rw [h]
  · exact lfTickS_epairs s
  · exact fabricTick_epairs s
theorem tick_state_regions (s : State) (h : Quiet s) : s.tick.regions = s.regions := by
  rcases tick_cases s h with h | h | h <;> rw [h]
  · exact lfTickS_regions s
  · exact fabricTick_regions s
theorem tick_state_cells (s : State) (h : Quiet s) : s.tick.cells = s.cells := by
  rcases tick_cases s h with h | h | h <;> rw [h]
  · exact lfTickS_cells s
  · exact fabricTick_cells s
theorem tick_state_ho (s : State) (h : Quiet s) : s.tick.ho = s.ho := by
  rcases tick_cases s h with h | h | h <;> rw [h]
  · exact lfTickS_ho s
  · exact fabricTick_ho s
theorem tick_state_groups (s : State) (h : Quiet s) : s.tick.groups = s.groups := by
  rcases tick_cases s h with h | h | h <;> rw [h]
  · exact lfTickS_groups s
  · exact fabricTick_groups s
theorem tick_state_axes (s : State) (h : Quiet s) : s.tick.axes = s.axes := by
  rcases tick_cases s h with h | h | h <;> rw [h]
  · exact lfTickS_axes s
  · exact fabricTick_axes s
theorem tick_state_avail (s : State) (h : Quiet s) : s.tick.avail = s.avail := by
  rcases tick_cases s h with h | h | h <;> rw [h]
  · exact lfTickS_avail s
  · exact fabricTick_avail s
theorem tick_state_net (s : State) (h : Quiet s) : s.tick.net = s.net := by
  rcases tick_cases s h with h | h | h <;> rw [h]
  · exact lfTickS_net s
  · exact fabricTick_net s
theorem tick_state_flk (s : State) (h : Quiet s) : s.tick.flk = s.flk := by
  rcases tick_cases s h with h | h | h <;> rw [h]
  · exact lfTickS_flk s
  · exact fabricTick_flk s
theorem tick_state_hif (s : State) (h : Quiet s) : s.tick.hif = s.hif := by
  rcases tick_cases s h with h | h | h <;> rw [h]
  · exact lfTickS_hif s
  · exact fabricTick_hif s
theorem tick_state_recs (s : State) (h : Quiet s) : s.tick.recs = s.recs := by
  rcases tick_cases s h with h | h | h <;> rw [h]
  · exact lfTickS_recs s
  · exact fabricTick_recs s
theorem tick_state_recSeq (s : State) (h : Quiet s) : s.tick.recSeq = s.recSeq := by
  rcases tick_cases s h with h | h | h <;> rw [h]
  · exact lfTickS_recSeq s
  · exact fabricTick_recSeq s
theorem tick_state_bist (s : State) (h : Quiet s) : s.tick.bist = s.bist := by
  rcases tick_cases s h with h | h | h <;> rw [h]
  · exact lfTickS_bist s
  · exact fabricTick_bist s
theorem tick_state_cvus (s : State) (h : Quiet s) : s.tick.cvus = s.cvus := by
  rcases tick_cases s h with h | h | h <;> rw [h]
  · exact lfTickS_cvus s
  · exact fabricTick_cvus s
theorem tick_state_regs (s : State) (h : Quiet s) : s.tick.regs = s.regs := by
  rcases tick_cases s h with h | h | h <;> rw [h]
  · exact lfTickS_regs s
  · exact fabricTick_regs s

end Sys2Proof.Laws
end

