-- ==== Sys2Proof/Tests/Slice0.lean ====
section
/-! SUPPORT. Tests: ill-formed commands, the spec's worked examples, and for every statement with hypotheses a state and
operands that meet them. A `test_hyp_` theorem carries the hypotheses of one statement, clause by clause. -/

namespace Sys2Proof.Tests

open Sys2Proof Sys2Proof.Machine Sys2Proof.Safety

set_option maxRecDepth 100000

/-! ### Small states -/

/-- A module in service, with every region up and a configuration loaded. -/
def svc : State :=
  { State.reset with
    pwr := { phase := .service, vsysOk := true, holdOk := true }
    sys := { safeOk := true, faultn := false, refreshA := true, refreshB := true }
    regions := 15, loaded := true }

/-- Engine 0 alone in service, tweaked. -/
def single (f : Engine → Engine) : State := { svc with engs := [(0, f { ({} : Engine) with role := .single })] }

/-- Engines 0 and 1 as a pair, both tweaked. -/
def pairOf (f : Engine → Engine) : State :=
  { svc with engs := [(0, f { ({} : Engine) with role := .leader }), (1, f { ({} : Engine) with role := .follower })] }

/-- Engine 0 alone, its runtime data page at 0x0 of cluster 0. -/
def withPage (f : Engine → Engine) : State :=
  { single f with mems := [(0, { ({} : Cluster) with own := [(0, { tag := 1 })], wrote := [(0, 1)] })] }

/-! ### Hypotheses: engines -/

theorem test_hyp_registerResults :
    (gResult (.add 0 1 2 3) = some (0, 1, fun x => x.gr 2 + x.gr 3) ∧ SingleReady (single id) 0) ∧
    (kResult (.kand 0 1 2 3) = some (0, 1, fun x => x.kr 2 && x.kr 3) ∧ SingleReady (single id) 0) ∧
    (quotient (.div 0 1 2 3) = some (0, 1, 2, 3, fun a b => BitVec.ofInt 32 (a.toInt.tdiv b.toInt), fun _ => 0xFFFFFFFF#32) ∧
      SingleReady (single (fun x => x.setG 3 1)) 0 ∧ ((single (fun x => x.setG 3 1)).eng 0).gr 3 ≠ 0 ∧
      SingleReady (single id) 0 ∧ ((single id).eng 0).gr 3 = 0 ∧ ((single id).eng 0).dze = false ∧
      SingleReady (single (fun x => { x with dze := true })) 0 ∧ ((single (fun x => { x with dze := true })).eng 0).gr 3 = 0 ∧
      ((single (fun x => { x with dze := true })).eng 0).dze = true) :=
  ⟨⟨rfl, by decide⟩, ⟨rfl, by decide⟩, rfl, by decide⟩

theorem test_hyp_pairRunsOneStream :
    gResult (.add 0 1 2 3) = some (0, 1, fun x => x.gr 2 + x.gr 3) ∧ PairReady (pairOf id) 0 := ⟨rfl, by decide⟩

theorem test_hyp_branchesEnterTheirSlot :
    (branchOf (.j 0 2) = some (0, fun _ => true, fun pc => pc + 4 + (2 : BitVec 26).signExtend 32 * 4, 0, true) ∧
      SingleReady (single id) 0 ∧ PlainPlace ((single id).eng 0)) ∧
    (fld (((single id).eng 0).gr 3) 1 0 = 0) ∧
    (SingleReady (single (fun x => x.setG 3 6)) 0 ∧ PlainPlace ((single (fun x => x.setG 3 6)).eng 0) ∧
      fld (((single (fun x => x.setG 3 6)).eng 0).gr 3) 1 0 ≠ 0) := ⟨⟨rfl, by decide⟩, by decide⟩

/-- Level 0 active over one word, with a count. -/
def loop0 (n : Word) : Engine := { la0 := true, lp0 := { lc := n, ls := 0x40000000, le := 0x40000000 } }
/-- Level 1 active over one word, with a count. -/
def loop1 (n : Word) : Engine := { la1 := true, lp1 := { lc := n, ls := 0x40000000, le := 0x40000000 } }

theorem test_hyp_retirementMovesThePc :
    (({ ds := some { branch := 0, target := some 8, ends := true, mp := 0, cellM := false } } : Engine).ds.bind (·.target) = some 8) ∧
    ((({} : Engine).ds = none) ∧ ({} : Engine).la0 = false ∧ ({} : Engine).la1 = false) ∧
    ((loop0 2).ds = none ∧ (loop0 2).la0 = true ∧ (loop0 2).la1 = false ∧ (loop0 2).pc = (loop0 2).lp0.le ∧
      (loop0 2).lp0.lc.toNat > 1) ∧
    ((loop0 1).ds = none ∧ (loop0 1).la0 = true ∧ (loop0 1).la1 = false ∧ (loop0 1).pc = (loop0 1).lp0.le ∧
      (loop0 1).lp0.lc.toNat ≤ 1) ∧
    ((loop1 2).ds = none ∧ (loop1 2).la1 = true ∧ (loop1 2).pc = (loop1 2).lp1.le ∧ (loop1 2).lp1.lc.toNat > 1) ∧
    ({ mp := 2 } : Engine).mp = 2 ∧ ({ mp := 1 } : Engine).mp = 1 ∧ ({} : Engine).mp = 0 := by decide

theorem test_hyp_loopActivatesALevel :
    SingleReady (single id) 0 ∧ PlainPlace ((single id).eng 0) ∧ loopForm true 0 3 2 = true ∧ loopForm false 5 0 2 = true ∧
    ((single id).eng 0).la0 = false ∧ ((single id).eng 0).la1 = false ∧ ((single id).eng 0).mp = 0 ∧
    BitVec.ofNat 32 (3 : BitVec 10).toNat ≠ 0 ∧ ((single id).eng 0).gr 5 = 0 := by decide

/-- g2 = 4, the page at 0x0 owned by the runtime of engine 0. -/
def page4 : State := withPage (fun x => x.setG 2 4)

theorem test_hyp_loadsReadClusterMemory :
    loadOf (.ldw 0 1 2 0) = some (0, 1, 2, 0, 4, false) ∧ SingleReady page4 0 ∧
    ((page4.eng 0).gr 2 + (0 : Half).signExtend 32).toNat % 4 = 0 ∧ ((page4.eng 0).gr 2 + (0 : Half).signExtend 32).toNat < 0x40000 ∧
    page4.admitMem 0 (page4.eng 0) .load ((page4.eng 0).gr 2 + (0 : Half).signExtend 32).toNat = .ok (.mem 1) ∧
    cleanWord page4 0 (((page4.eng 0).gr 2 + (0 : Half).signExtend 32).toNat / 4) 1 = true := ⟨rfl, by decide, by decide, by decide, by decide, by decide⟩

theorem test_hyp_storesWriteClusterMemory :
    storeOf (.stb 0 1 2 0) = some (0, 1, 2, 0, 1) ∧ SingleReady page4 0 ∧
    page4.admitMem 0 (page4.eng 0) .part ((page4.eng 0).gr 2 + (0 : Half).signExtend 32).toNat = .ok (.mem 1) ∧
    cleanWord page4 0 (((page4.eng 0).gr 2 + (0 : Half).signExtend 32).toNat / 4) 1 = true := ⟨rfl, by decide, by decide, by decide⟩

theorem test_hyp_misalignedAccessFaults :
    loadOf (.ldh 0 1 2 3) = some (0, 1, 2, 3, 2, true) ∧ storeOf (.stw 0 1 2 3) = some (0, 1, 2, 3, 4) ∧
    SingleReady page4 0 ∧ ((page4.eng 0).gr 2 + (3 : Half).signExtend 32).toNat % 2 ≠ 0 ∧
    ((page4.eng 0).gr 2 + (3 : Half).signExtend 32).toNat % 4 ≠ 0 := ⟨rfl, rfl, by decide⟩

theorem test_hyp_requestsAreSetAside :
    requestOf (.orq 0 1 2 0) = some (0, 2, 0, fun x => x.gr 1) ∧
    (let s := single (fun x => x.setG 2 0x30000FFC#32)
     SingleReady s 0 ∧ (s.eng 0).cellM = false ∧ (s.eng 0).nreq < 256 ∧
      ((s.eng 0).gr 2 + (0 : Half).signExtend 32).toNat % 4 = 0 ∧
      0x30000000 ≤ ((s.eng 0).gr 2 + (0 : Half).signExtend 32).toNat ∧
      ((s.eng 0).gr 2 + (0 : Half).signExtend 32).toNat < 0x30001000) := ⟨rfl, by decide⟩

theorem test_hyp_handlerRegistersAndMode :
    SingleReady (single id) 0 ∧ rdhAllowed ((single id).eng 0).cellM 11 = true ∧ ((single id).eng 0).cellM = false ∧
    wrhAllowed 0 = true ∧ PlainPlace ((single id).eng 0) ∧ RuntimeMode ((single id).eng 0) := by decide

/-- Engine 0 in cell mode, at a word of a code page of cell slot 0. -/
def inCell (f : Engine → Engine) : State :=
  { single (fun x => f { x with cellM := true, pc := 0, ctag := slotTag 0 }) with
    mems := [(0, { ({} : Cluster) with own := [(0, { tag := slotTag 0 })], wrote := [(0, slotTag 0)] })] }

/-- A cell image with a zero descriptor (a cycle of 125 µs, one slot of engine 0) and the reference of identifier 5 from the
seed. -/
def v0 : CellImg :=
  { desc := List.replicate 64 0, code := [], init := [], masks := [], refs := [(5, whiskSeal 0xFFFFFFFF 5)], inst := [] }

/-- Cell c in a state, running version v0 on engine 0. -/
def cellIs (c : Nat) (st : CState) (s : State) : State :=
  { s with cells := [(c, { ({} : CellS) with st := st, ver := some v0 })] }

theorem test_hyp_privilegedAndIllegalFormsFault :
    (SingleReady (inCell id) 0 ∧ PlainPlace ((inCell id).eng 0) ∧ ((inCell id).eng 0).cellM = true ∧ (3 : Fin 32) ≠ 4) ∧
    (SingleReady (single id) 0 ∧ PlainPlace ((single id).eng 0) ∧ ((single id).eng 0).cellM = false ∧
      ((single id).eng 0).hnd = false ∧ ((single id).eng 0).eve = false) ∧
    (Instr.illegalInstruction 0 0xFFFFFFFF).wf = true := by decide

theorem test_hyp_privilegedAndIllegalFormsFault_slot :
    slotBarred (.loop 0 true 0 3 2) = some 0 ∧
    (let s := single (fun x => { x with ds := some { branch := 0x40000000, target := none, ends := true, mp := 0, cellM := false } })
     SingleReady s 0 ∧ (s.eng 0).ds.isSome = true ∧ (s.eng 0).hnd = false) := ⟨rfl, by decide⟩

theorem test_hyp_faultsEnterTheVector :
    (({} : Engine).hnd = false ∧ ({} : Engine).ds = none) ∧
    ({ ds := some { branch := 0, target := none, ends := true, mp := 0, cellM := false } } : Engine).ds =
      some { branch := 0, target := none, ends := true, mp := 0, cellM := false } ∧ ({ hnd := true } : Engine).hnd = true := by decide

theorem test_hyp_serviceCallAndReturn :
    (let s := cellIs 7 .running (inCell (fun x => { x with cell := some 7 }))
     SingleReady s 0 ∧ PlainPlace (s.eng 0) ∧ (s.eng 0).cellM = true ∧ (s.eng 0).hnd = false ∧ (s.eng 0).cell = some 7 ∧
      (s.eng 0).nreq = 0) ∧
    (let s := single (fun x => { x with hnd := true })
     SingleReady s 0 ∧ PlainPlace (s.eng 0) ∧ RuntimeMode (s.eng 0) ∧ (s.eng 0).hnd = true) ∧
    (let s := single (fun x => { x with hnd := true, mp := 1 })
     SingleReady s 0 ∧ (s.eng 0).mp ≠ 0) := by decide

theorem test_hyp_waitAndEvents :
    (let s := single (fun x => { x with eve := true })
     SingleReady s 0 ∧ PlainPlace (s.eng 0) ∧ (s.eng 0).cellM = false ∧ (s.eng 0).eve = true) ∧
    (let s := single (fun x => { x with eve := true, events := 0x20 })
     s.coreUp = true ∧ (s.eng 0).role = .single ∧ (s.eng 0).stall = false ∧ (s.eng 0).dead = false ∧ (s.eng 0).wdHit = false ∧
      (s.eng 0).takesEvents = true ∧ (s.eng 0).lowest = some 5) := by decide

theorem test_hyp_checkpointsCommitAndTest :
    (let s := cellIs 7 .running (single (fun x => { x with cell := some 7 }))
     SingleReady s 0 ∧ PlainPlace (s.eng 0) ∧ (s.eng 0).cell = some 7 ∧ s.runVer 0 = some v0 ∧
      (v0.refs.find? (fun r => r.1 == (5 : Half).toNat)).map (·.2) = some (whiskSeal (s.eng 0).whisk 5) ∧
      (v0.refs.find? (fun r => r.1 == (6 : Half).toNat)).map (·.2) ≠ some (whiskSeal (s.eng 0).whisk 6) ∧
      (s.eng 0).cellM = false) ∧
    (let s := { cellIs 7 .running svc with perm := { slots := [(4 * 63 + 3, { ({} : Slot) with cell := some 7 })],
                                                     due := [{ eng := 0, cell := some 7, newV := false,
                                                               reqs := [{ slot := false, off := 4 * 63, data := 1 }] }] } }
     (s.cell 7).ver = some v0 ∧ (s.cell 7).eng = 0 ∧ s.slotOf 7 63 = some 3 ∧ s.heldArmed 7 = false ∧ s.stoHolds 7 63 = false ∧
      (0 : Nat) ≠ 63) ∧
    ((pairOf id).eng 0).role = .leader ∧
    whiskSeal ((pairOf id).eng 0).whisk 5 = whiskSeal ((pairOf id).eng 1).whisk 5 := by decide

theorem test_hyp_pairCheckpointCompares :
    (1 : Word) ≠ 2 ∧ (({ pairOf id with epairs := [(0, { ({} : EPair) with formed := true })] } : State).epair 0).formed = true := by
  decide

/-- Engine 0 alone with a timer armed in a mode. -/
def timed (reload : Bool) : State :=
  single (fun x => { x with wdHit := true, etMode := if reload then 1 else 0, et := [(0, { ({} : EtTimer) with armed := true })] })

theorem test_hyp_engineTimers :
    (Tab.get {} ((timed false).eng 0).et 0).armed = true ∧ bit ((timed false).eng 0).etMode 0 = false ∧
    ((timed false).tb.tb.extractLsb' 0 32 - (Tab.get {} ((timed false).eng 0).et 0).value).toNat < 2 ^ 31 ∧
    ((timed false).eng 0).role = .single ∧
    (Tab.get {} ((timed true).eng 0).et 0).armed = true ∧ bit ((timed true).eng 0).etMode 0 = true ∧
    (Tab.get {} ((timed true).eng 0).et 0).count = 0 ∧ ((timed true).eng 0).role = .single ∧
    SingleReady (single id) 0 ∧ ((single id).eng 0).cellM = false ∧
    (timed true).coreUp = true ∧ ((timed true).eng 0).dead = false ∧ ((timed true).eng 0).wdHit = true ∧
    (timed false).tb.lfRun = false ∧
    (let s := pairOf (fun x => { x with wdHit := true })
     (0 : Fin 64).val = 2 * (0 : Fin 32) ∧ s.coreUp = true ∧ (s.eng 0).role = .leader ∧ (s.eng 0).dead = false ∧
      (s.eng 0).wdHit = true) := by decide

/-! ### Hypotheses: power, start-up, time -/

/-- In service, with the power die's fields tweaked. -/
def powered (f : Power → Power) : State := { svc with pwr := f svc.pwr }

/-- The same at a TB in ns. -/
def atTb (n : Nat) (s : State) : State := { s with tb := { s.tb with tb := BitVec.ofNat 64 n } }

theorem test_hyp_supplyDips :
    (powered (fun p => { p with phase := .off })).pwr.phase = .off ∧ svc.pwr.phase.powered = true ∧
    (let s := powered (fun p => { p with dip := true })
     s.pwr.dip = true ∧ s.pwr.fail = false ∧ s.past s.pwr.dipAt 100000 = false) ∧
    (let s := atTb 100000 (powered (fun p => { p with dip := true }))
     s.pwr.phase.powered = true ∧ s.pwr.dip = true ∧ s.pwr.fail = false ∧ s.past s.pwr.dipAt 100000 = true ∧
      s.store.holder ≠ some 1 ∧ s.store.op ≠ .eraseSector ∧ s.store.op ≠ .eraseBlock) ∧
    (let s := powered (fun p => { p with fail := true })
     s.pwr.fail = true ∧ s.store.holder = none ∧ s.pwr.vsysOk = true) ∧
    (let s := powered (fun p => { p with fail := true, vsysOk := false })
     s.pwr.fail = true ∧ s.store.holder = none ∧ s.pwr.vsysOk = false) := by decide

theorem test_hyp_supervisorsAct :
    svc.pwr.phase.powered = true ∧ 189 ≤ (189 : Byte).toNat ∧ 189 ≤ (203 : Byte).toNat ∧ (203 : Byte).toNat < 204 ∧
    svc.pwr.ot = false ∧ 204 ≤ (204 : Byte).toNat ∧ (178 : Byte).toNat < 179 ∧
    (powered (fun p => { p with otHold := true })).pwr.phase.powered = true ∧
    (powered (fun p => { p with otHold := true })).pwr.otHold = true ∧ svc.pwr.otHold = false ∧
    (379 : BitVec 10).toNat < 380 ∧ svc.pwr.vsysOk = true ∧ svc.pwr.holdOk = true ∧ 380 ≤ (380 : BitVec 10).toNat ∧
    (let s := atTb 500000000 (powered (fun p => { p with holdOk := false }))
     s.pwr.holdOk = false ∧ s.pwr.holdRep = false ∧ s.past s.pwr.railsAt 500000000 = true) ∧
    (let s := powered (fun p => { p with holdOk := false, holdRep := true })
     s.pwr.holdOk = false ∧ s.pwr.holdRep = true) ∧
    (powered (fun p => { p with phase := .standby, vsysOk := false })).pwr.phase.powered = false ∧
    (powered (fun p => { p with phase := .standby, vsysOk := false })).pwr.vsysOk = false := by decide

theorem test_hyp_resetClearsTheModule :
    1000 ≤ 1000 ∧ svc.pwr.phase.powered = true ∧ 99 < 100 ∧
    (powered (fun p => { p with phase := .reset })).pwr.phase = .reset := by decide

/-- The same, with the host's bus up. -/
def busState : State := { svc with hif := { linkUp := true } }

/-- The bus up, and a cell hand-over waiting. -/
def exchanging : State := { busState with ho := { step := .waiting, kind := .exchange } }

theorem test_hyp_standbyAndWake :
    (State.reset.pwr.fail = false ∧ State.reset.pwr.phase = .starting ∧ State.reset.dipOver = false) ∧
    (svc.pwr.fail = false ∧ svc.pwr.phase = .service ∧ svc.dipOver = false) ∧
    (let s := atTb 100000 (powered (fun p => { p with dip := true }))
     s.pwr.phase = .service ∧ s.dipOver = true) ∧
    (exchanging.pwr.phase.hostUp = true ∧ exchanging.busUp = true ∧
      (exchanging.permitsOff && !exchanging.cellHandover && !exchanging.commitRuns) = false) ∧
    (busState.pwr.phase.hostUp = true ∧ busState.busUp = true ∧ busState.dipOver = false ∧
      (busState.permitsOff && !busState.cellHandover && !busState.commitRuns) = true) ∧
    (let s := powered (fun p => { p with phase := .standby })
     s.pwr.phase = .standby ∧ s.pwr.vsysOk = true ∧ s.pwr.stbyn = true) ∧
    (let s := powered (fun p => { p with phase := .standby, vsysOk := false })
     s.pwr.phase = .standby ∧ s.pwr.vsysOk = false ∧ s.pwr.stbyn = true) := by decide

theorem test_hyp_clocksAndModuleDebug :
    svc.spineRuns = true ∧ svc.pwr.phase ≠ .faultStop ∧ (-1000 : Int) ≤ -1000 ∧ (1000 : Int) ≤ 1000 ∧ (1000 : Int) < 1001 ∧
    ({ svc with clk := { refOk := true } } : State).clk.refOk = true ∧
    (powered (fun p => { p with phase := .debugHalt })).pwr.phase = .debugHalt := by decide

/-- Nothing found at start-up. -/
def allGood : StartObs :=
  { spine := [], lidA := false, lidB := false, storeLost := false, vf := 15, field := [], elements := [], sources := [], regions := 15, items := [], lock := true }

theorem test_hyp_startUpSequence :
    (let s := State.reset; let o := allGood
     s.pwr.phase = .starting ∧ o.spine = [] ∧ o.field = [] ∧ o.items = [] ∧ o.lidA = false ∧ o.lidB = false ∧
      o.storeLost = false ∧ o.regions ≠ 0 ∧ s.store.bank0.hdr = {} ∧ s.store.bank1.hdr = {} ∧ s.store.holder = none ∧
      s.store.credBad ≠ 3 ∧ s.bist.hold = false) ∧
    (let o : StartObs := { allGood with lidA := true }
     o.spine = [] ∧ o.lidA = true) ∧
    (let o : StartObs := { allGood with regions := 0 }
     o.spine = [] ∧ o.lidA = false ∧ o.lidB = false ∧ o.field = [] ∧ o.items = [] ∧ o.regions = 0) ∧
    (let s := atTb 10000000000 (powered (fun p => { p with phase := .waitLock }))
     s.pwr.phase = .waitLock ∧ s.cfg.cells = [] ∧ s.tb.lock = false ∧ s.past s.pwr.s10At (secs 10) = true) ∧
    (let s : State := { powered (fun p => { p with phase := .waitLock }) with tb := { ({} : Timebase) with lock := true } }
     s.pwr.phase = .waitLock ∧ s.cfg.cells = [] ∧ s.tb.lock = true) := by decide

theorem test_hyp_latchedReads :
    (let s : State := { svc with encs := [(0, { ({} : Encoder) with queue := [⟨1, 2, 3⟩] })] }
     (s.enc 0).queue = ⟨1, 2, 3⟩ :: [] ∧ (Tab.get {} s.cfg.caps 0).consumer = none ∧ (s.inp (encInputA 0)).code ≠ 15 ∧
      (Tab.get {} s.cfg.caps (0 : Fin 8)).consumer ≠ some (7 : Fin 1024).val) ∧
    (let s : State := { svc with encs := [(0, { ({} : Encoder) with queue := [⟨1, 2, 3⟩] })],
                                 cfg := { svc.cfg with caps := [(0, { ({} : CapCfg) with consumer := some 7 })] } }
     (Tab.get {} s.cfg.caps (0 : Fin 8)).consumer = some (7 : Fin 1024).val) := by decide

/-- Channel n armed with an action, for a use and a cell. -/
def armed (n : Nat) (code : BitVec 12) (use : ChUse) (cell : Option Nat) (s : State) : State :=
  { s with chans := [(n, { ({} : Chan) with armed := true, act := code, use := use, cell := cell })] }

theorem test_hyp_channelWrites :
    svc.due 255 = false ∧ svc.due (224 + (31 : Fin 32)) = false ∧
    (let s := armed 255 0 .none none svc
     s.due (255 : Fin 256) = true ∧ (s.chan (255 : Fin 256)).code ≠ 5 ∧ (s.chan 255).code ≠ 6 ∧ (s.chan 255).code ≠ 8 ∧
      s.due (224 + (31 : Fin 32)) = true ∧ (s.chan (224 + (31 : Fin 32))).code ≤ 2) ∧
    (reached svc.now ((1 : Word).toNat * 2 ^ 32 + (svc.chan 255).lo.toNat) = false ∨ svc.tb.lfRun = true) ∧
    (reached svc.now ((0 : Word).toNat * 2 ^ 32 + (svc.chan 224).lo.toNat) = true ∧ svc.tb.lfRun = false ∧ (svc.chan 224).code = 0 ∧
      (svc.chan 224).cell = none ∧ (svc.chan 224).shared = false ∧ 224 ≤ (224 : Fin 256).val ∧ (0 : Nat) ≠ 224) ∧
    fld (2 : Word) 3 0 ≤ 2 ∧ fld (3 : Word) 3 0 > 2 := by decide

/-- Output 63 in a mode. -/
def outMode (m : Word) (s : State) : State := { s with cfg := { s.cfg with outs := [(63, { ({} : Rec2) with w0 := m })] } }

theorem test_hyp_channelActions :
    (let s := armed 224 0 .none none svc
     s.due 224 = true ∧ (s.chan 224).code = 0 ∧ (s.chan 224).cell = none) ∧
    (let s := outMode 2 (armed 224 0x7F1 .none none svc)
     s.due 224 = true ∧ (s.chan 224).code = 1 ∧ 224 ≤ (224 : Fin 256).val ∧
      (s.outRec (16 * fld (s.chan 224).act 5 4 + fld (s.chan 224).act 9 6)).mode = 2) ∧
    (let s := armed 255 2 .none none svc
     s.due 255 = true ∧ (s.chan 255).code = 2) ∧
    (let s := armed 0 3 .none (some 7) (cellIs 7 .running svc)
     s.due 0 = true ∧ (s.chan 0).code = 3 ∧ (s.chan 0).cell = some 7) ∧
    (let s := { armed 0 4 .none (some 7) (cellIs 7 .running svc) with perm := { held := [⟨7, 1, false⟩] } }
     s.due 0 = true ∧ (s.chan 0).code = 4 ∧ (s.chan 0).cell = some 7 ∧ (s.fired 0).heldArmed 7 = false ∧
      s.perm.held = [⟨7, 1, false⟩] ∧ (⟨7, 1, false⟩ : Held).cell = 7 ∧ (⟨7, 1, false⟩ : Held).second = false) ∧
    (let s := armed 0 5 (.bank 3) none svc
     s.due 0 = true ∧ (s.chan 0).code = 5 ∧ (s.chan 0).use = .bank 3) ∧
    (let s := armed 0 7 .none none svc
     s.due 0 = true ∧ (s.chan 0).code = 7) ∧
    (svc.tb.chanOff.contains 63 = false ∧ svc.tb.hostOff.contains 63 = false ∧
      ({ svc.tb with chanOff := [63] } : Timebase).chanOff.contains 63 = true) := by decide

/-- MAC 0 a PTP slave with an Announce received, source PTP. -/
def ptpOn : State :=
  { svc with net := { ptpCfg := 0x10001, macs := [(0, { ({} : Mac) with en := true, link := true, port := 9 })] },
             tb := { ({} : Timebase) with src := 0, lock := true } }

theorem test_hyp_timeSourcesDiscipline :
    (svc.anyLoaded = false ∧ 1000 < (-1001 : Int).natAbs) ∧ ((cellIs 7 .running svc).anyLoaded = true ∨ (5000 : Int).natAbs ≤ 1000) ∧
    (-1000 : Int).natAbs ≤ 1000 ∧
    (ptpOn.ptpRuns 0 = true ∧ ptpOn.ptpProfile ≠ 3 ∧ (ptpOn.mac 0).port = 9 ∧ ptpOn.tb.src = 0 ∧ 7 ≤ (ptpOn.mac 0).port.toNat ∧
      8 ≤ (ptpOn.mac 0).port.toNat) ∧
    (ptpOn.tb.src.toNat ≤ 1 ∧ ptpOn.tb.measAt = none ∧ ptpOn.tb.lock = true) ∧
    (let s : State := { svc with tb := { ({} : Timebase) with src := 1, measAt := some 0, tb := 100000 } }
     s.tb.src.toNat ≤ 1 ∧ s.tb.measAt = some 0 ∧ s.past 0 (if s.tb.src = 1 then 100000 else 100000000) = true) ∧
    (let s : State := { svc with tb := { ({} : Timebase) with src := 0, measAt := some 0, tb := 99999999 } }
     s.tb.src.toNat ≤ 1 ∧ s.tb.measAt = some 0 ∧ s.past 0 (if s.tb.src = 1 then 100000 else 100000000) = false) ∧
    (let s : State := { svc with tb := { ({} : Timebase) with leap61 := true, tb := 86401000000000#64 } }
     s.tb.leap61 = true ∧ ((s.tb.leapDay + 1 : Nat) : Int) * 86400000000 + 1000000 ≤ utcMicros s.now s.tb.utc.toInt) := by
  decide

/-! ### Hypotheses: inputs -/

/-- Inputs 0 and 1 with configured words 0, in service. -/
def inCfg (w0 w1 w2 : Word) (s : State) : State :=
  { s with cfg := { s.cfg with ins := [(0, ⟨w0, w1, w2⟩), (1, ⟨w0 &&& 7, 0, 0⟩)] } }

/-- Inputs 0 and 1 in states. -/
def inputs (a b : Input) (s : State) : State := { s with ins := [(0, a), (1, b)] }

/-- The module 200 ns (or another time) into a schedule of bank 0 that pulses its sources 0 and 1 for 4 µs every ms, inputs 0 and 1 on
them. -/
def scheduled (now : Nat) (a : Input) : State :=
  let s := inputs a {} (inCfg 2 0 0 svc)
  atTb now { s with cfg := { s.cfg with tps := [(0, { ({} : Rec2) with w0 := 0x811 }), (1, { ({} : Rec2) with w0 := 0x811 })] },
                    banks := [(0, { ({} : FBank) with vf := true, sched := some 0 })] }

theorem test_hyp_inputEdgesQualify :
    (let s := inCfg 1 0x0101 0 svc
     (s.inp 0).raw ≠ true ∧ s.inputOut 0 = false ∧ (s.inRec 0).filtered = true ∧ (s.inp 0).q ≠ true ∧ s.filterTime 0 true ≠ 0) ∧
    (let s := inCfg 2 0 0 svc
     (s.inp 0).raw ≠ true ∧ s.inputOut 0 = false ∧ (s.inRec 0).windowed = true ∧ (s.inp 0).inWin = false ∧ s.winOpen 0 = none) ∧
    (let s := inputs { inWin := true, winEnd := 1 } {} (inCfg 3 0 0 svc)
     (s.inp 0).raw ≠ true ∧ s.inputOut 0 = false ∧ (s.inRec 0).windowed = true ∧ (s.inp 0).inWin = true ∧
      s.past (s.inp 0).winEnd 0 = false) ∧
    (let s := scheduled 200 {}
     (s.inp 0).raw ≠ true ∧ s.inputOut 0 = false ∧ (s.inRec 0).windowed = true ∧ (s.inp 0).inWin = false ∧
      s.winOpen 0 = some 4160) ∧
    (let s := inputs { raw := true, q := true } { q := true } (inCfg 0x204 0x500000 1 svc)
     (s.inp 0).raw ≠ false ∧ s.inputOut 0 = false ∧ (s.inRec 0).ossd = true ∧ (s.inRec 0).sig = 0 ∧ (s.inp 0).q = true ∧
      (s.inp (0 / 2 * 2 + (1 - 0 % 2))).q = true ∧ (s.inp (0 / 2 * 2 + (1 - 0 % 2))).ossd = none ∧ s.ossdTooSoon 0 = false) := by
  decide

/-- Pair 0 configured and OFF. -/
def pairSoon0 : State := inCfg 0x40201 0 0 svc

theorem test_hyp_inputTestsFindFaults :
    (let s := inputs { laneBad := 1, code := 9, armClr := true, inWin := true, held := true } {} (inCfg 2 0 0 svc)
     (s.inRec 0).kind ≠ 0 ∧ ((s.inRec (0 / 2 * 2)).pair = false ∨ s.discDue (0 / 2) = false) ∧ (s.inp 0).laneBad = 1 ∧
      (s.inRec 0).kind = 2 ∧ (s.inp 0).inWin = true ∧ (s.inp 0).held = true ∧ (s.inp 0).dropSeen = false ∧
      s.past (s.inp 0).winEnd 0 = true ∧ (s.inp 0).code = 9 ∧ (s.inp 0).armClr = true) ∧
    (let s := pairSoon0
     (s.inRec 0).kind ≠ 0 ∧ (s.inRec (0 / 2 * 2)).pair = true ∧ s.discDue (0 / 2) = false) ∧
    (let s := scheduled 4300 { raw := true, dropAt := some 100 }
     (s.inRec 0).kind = 2 ∧ (s.inRec 0).src ≠ (1 : Fin 8).val ∧ (s.inp 0).dropAt = some 100 ∧
      s.foreignWindow 0 (8 * (0 / 32) + (1 : Fin 8)) = some (100, 4160) ∧ (s.inp 0).raw = true) ∧
    (let s := inputs { wbLow := 2 } {} (inCfg 0x101 0 0 svc)
     (s.inRec 0).wb = true ∧ (s.inp 0).inWin = false ∧ s.inputOut 0 = false ∧ (s.inp 0).raw = false ∧ (s.inp 0).wbLow = 2 ∧
      (s.inp 0).wbAt = none) ∧
    (let s := atTb 1000000 (inputs { wbLow := 2, wbAt := some 0 } {} (inCfg 0x101 0 0 svc))
     (s.inp 0).wbAt = some 0 ∧ s.past 0 1000000 = true) ∧
    (let s := atTb 10000000000 (inputs {} {} (inCfg 1 0 0 svc))
     s.past (s.inp 0).edgeAt (secs 10) = true) ∧
    (let s := inputs { code := 9, armClr := true } {} (inCfg 1 0 0 svc)
     (s.inp 0).code = 9 ∧ (s.inp 0).armClr = true ∧ (s.inp 0).raw = false ∧ (s.inp 0).inWin = false ∧ (s.inp 0).ossd = none) ∧
    (let s : State := atTb 1900000 { svc with wets := [(0, { ({} : Wetting) with now := some 1, waiting := [2] })] }
     s.wetQ (0 : Fin 8) = { now := some 1, at_ := 0, waiting := 2 :: [] } ∧ 2 ≠ 1 ∧ s.past 0 1900000 = true) := by decide

theorem test_hyp_inputTimers :
    ((scheduled 200 {}).winOpen 0 = some 4160 ∧ ((scheduled 200 {}).inp 0).inWin = false) ∧ (scheduled 99 {}).winOpen 0 = none ∧
    (let s := inputs { filter := some 0, raw := true } {} (inCfg 1 0 0 svc)
     (s.inp 0).filter = some 0 ∧ (s.inRec 0).filtered = true ∧ s.past 0 (s.filterTime 0 (s.inp 0).raw) = true) ∧
    (let s := inputs { filter := some 0, raw := true } {} (inCfg 1 0x0101 0 svc)
     s.past 0 (s.filterTime 0 (s.inp 0).raw) = false) ∧
    (let s := inputs { ossd := some 0 } {} (inCfg 0x204 0 0 svc)
     (s.inp 0).ossd = some 0 ∧ s.past 0 (s.inRec 0).ow = true) ∧
    (let s := inputs { ossd := some 0 } {} (inCfg 0x204 0x40000 0 svc)
     s.past 0 (s.inRec 0).ow = false) ∧
    (∀ l : Option Nat, l = none ∨ l = some 0 →
     let s : State := atTb 1000000 { inputs { q := true, onSince := some 0, lastTest := l } {} (inCfg 0x4 0 0x400 svc) with
        pairs := [(0, { ({} : InPair) with st := .on })] }
     (s.inRec 0).ossd = true ∧ (s.inRec 0).pmax ≠ 0 ∧ (s.inp 0).q = true ∧ (s.pair (0 / 2)).st ≠ .off ∧
      (s.inp 0).onSince = some 0 ∧ s.past 0 (s.inRec 0).pmax = true ∧ (s.inp 0).lastTest = l ∧ (s.inRec 0).kind ≠ 0) ∧
    (let s := inputs { q := true, onSince := some 0 } {} (inCfg 0x4 0 0x400 svc)
     s.past 0 (s.inRec 0).pmax = false) ∧
    (let s := inputs { raw := true, onSince := some 0 } {} (inCfg 4 0 0 svc)
     (s.inp 0).onSince = some 0 ∧ (s.inRec 0).ossd = true ∧ (s.inp 0).hold0 = true ∧ (s.inp 0).raw = true ∧
      s.past 0 (2 * (s.inRec 0).ow) = true) ∧
    (let s := inputs { raw := true, onSince := some 0 } {} (inCfg 4 0x40000 0 svc)
     s.past 0 (2 * (s.inRec 0).ow) = false) ∧
    (∀ st : PairSt, st = .off ∨ st = .on →
     let s : State := { svc with pairs := [(63, { ({} : InPair) with st := st, deferred := some (⟨1, 0, 0⟩, ⟨1, 0, 0⟩, 7) })] }
     (s.pair (63 : Fin 64)).deferred = some (⟨1, 0, 0⟩, ⟨1, 0, 0⟩, 7) ∧ (s.pair (63 : Fin 64)).st = st) := by
  refine ⟨by decide, by decide, by decide, by decide, by decide, by decide, ?_, by decide, by decide, by decide, ?_⟩
  · rintro l (rfl | rfl) <;> decide
  · rintro l (rfl | rfl) <;> decide

/-- Pair 0 of filtered inputs in a state, its channels active as said. -/
def pairIs (st : PairSt) (a b : Bool) : State :=
  { inputs { q := a, hold0 := false } { q := b, hold0 := false } (inCfg 0x201 0 0 svc) with
    pairs := [(0, { ({} : InPair) with st := st, start := some 0 })] }

/-- The same before its discrepancy time, 1 ms, has passed. -/
def pairEarly (st : PairSt) : State :=
  { inputs { hold0 := false } { hold0 := false } (inCfg 0x40201 0 0 svc) with
    pairs := [(0, { ({} : InPair) with st := st, start := some 0 })] }

theorem test_hyp_pairMachine :
    (((pairIs .off true true).inRec 0).pair = true ∧ ((pairIs .off true true).pair 0).st = .off ∧
      (pairIs .off true true).active 0 = true ∧ (pairIs .off true true).active 1 = true) ∧
    ((pairIs .off true false).active 0 = true ∧ (pairIs .off true false).active 1 = false) ∧
    ((pairIs .off false false).active 0 = false ∧ (pairIs .off false false).active 1 = false) ∧
    (((pairIs .on true false).inRec 0).pair = true ∧ ((pairIs .on true false).pair 0).st = .on ∧
      (pairIs .on true false).active 0 ≠ (pairIs .on true false).active 1) ∧
    (((pairIs .on false false).pair 0).st = .on ∧ (pairIs .on false false).active 0 = false ∧
      (pairIs .on false false).active 1 = false) ∧
    (let s := pairEarly .waitOff
     (s.inRec 0).pair = true ∧ (s.pair 0).st = .waitOff ∧ s.discDue 0 = false ∧ s.active 0 = false ∧ s.active 1 = false) ∧
    ((pairIs .waitOn true false).inRec 0).kind ≠ 0 ∧
    ((pairIs .waitOn true false).discDue 0 = true ∧ ((pairIs .waitOn true false).pair 0).st = .waitOn) ∧
    ((pairIs .waitOff true false).discDue 0 = true ∧ ((pairIs .waitOff true false).pair 0).st = .waitOff) := by decide

/-- A pair whose discrepancy time still runs. -/
def pairSoon (st : PairSt) (a b : Bool) : State :=
  { inputs { q := a, hold0 := false } { q := b, hold0 := false } (inCfg 0x40201 0 0 svc) with
    pairs := [(0, { ({} : InPair) with st := st, start := some 0, first := .a })] }

theorem test_hyp_pairMachine_waiting :
    (∀ a b, (let s := pairSoon .waitOn a b
      (s.inRec 0).pair = true ∧ (s.pair 0).st = .waitOn ∧ (s.pair 0).first = .a ∧ s.discDue 0 = false ∧
        s.active 0 = a ∧ s.active 1 = b)) ∧
    (let s := pairSoon .waitOff true false
     (s.pair 0).st = .waitOff ∧ s.discDue 0 = false ∧ s.active 0 = true) ∧
    (let s := pairSoon .on true true
     (s.pair 0).st = .on ∧ s.active 0 = true ∧ s.active 1 = true) := by decide

theorem test_hyp_pairMachine_fault :
    (let s := pairSoon .fault false false
     (s.inRec 0).pair = true ∧ (s.pair 0).st = .fault ∧ s.safe3 0 = true ∧ s.safe3 1 = true ∧
       ownForcing (s.inp 0).code = false ∧ ownForcing (s.inp 1).code = false) ∧
    (pairSoon .fault true false).safe3 0 = false := by decide

theorem test_hyp_encoderCounts :
    let s : State := { svc with cfg := { svc.cfg with ins := [(28, ⟨5, 0, 0⟩), (29, ⟨5, 0, 0⟩)] } }
    s.encActive 0 = true ∧ (s.enc 0).rearm = false ∧ (s.enc 0).lastA = none ∧ (s.enc 0).lastB = none ∧
      s.inputOut (encInputA (0 : Fin 8)) = false ∧ s.inputOut (encInputA (0 : Fin 8) + 1) = false := by decide

/-! ### Hypotheses: outputs, Ladle, Lid -/

/-- Output 63 configured and in a state, in service with bank 3 supplied and its schedule running. -/
def outIs (w0 : Word) (r : Output) : State :=
  { outMode w0 svc with outs := [(63, r)], banks := [(3, { ({} : FBank) with vf := true, sched := some 0 })] }

/-- A standard output whose element A is commanded on, and a bucket of bank 3 at a level. -/
def standard (level : Int) : State :=
  { outIs 2 { ({} : Output) with level := true, stdWait := false } with
    ladle := { vf := [(3, { ({} : Bucket) with level := level })] } }

/-- Both elements conduct. -/
def bothOn : Output := { a := { ({} : Element) with on := true }, b := { ({} : Element) with on := true } }

theorem test_hyp_outputsTurnOnAndOff :
    svc.coreUp = true ∧
    (let s := standard 240
     s.elCmd 63 .a = true ∧ (s.out 63).el .a = {} ∧ (s.bucket (63 / 16 + 1)).queue = [] ∧
      (s.turnOnCost 63 .a : Int) ≤ (s.bucket (63 / 16 + 1)).level) ∧
    (let s := standard 239
     s.elCmd 63 .a = true ∧ (s.out 63).el .a = {} ∧ 0 < s.turnOnCost 63 .a ∧
      (s.bucket (63 / 16 + 1)).level < s.turnOnCost 63 .a) ∧
    (let s := outIs 1 { bothOn with limAt := some 0 }
     (s.out 63).conducts = true ∧ (s.out 63).limAt = some 0 ∧ s.past 0 (s.outRec 63).limt = true) ∧
    (let s := outIs 0x2000001 { bothOn with limAt := some 0 }
     (s.out 63).conducts = true ∧ s.past 0 (s.outRec 63).limt = false) ∧
    svc.halfOut (3 : Fin 4) .b = false ∧ 6500 < 6501 ∧ 6500 ≤ 6500 := by decide

theorem test_hyp_outputCodesLatch :
    codeRefused ((outIs 1 { code := 6 }).out 63).code.toNat 5 = true ∧ codeRefused (svc.out 63).code.toNat 9 = false ∧
    codeRefused (svc.out 63).code.toNat 3 = false ∧ codeRefused (svc.out 63).code.toNat 4 = false ∧
    codeRefused (svc.out 63).code.toNat 10 = false ∧ 63 < 64 ∧ (62 : Nat) ≠ 63 ∧
    (((outIs 1 { code := 8 }).out 63).code = 8 ∧ (((outIs 1 { code := 8 }).out 63).el (AB.other .a)).hot = false) ∧
    (((outIs 1 { b := { ({} : Element) with hot := true } }).out 63).el (AB.other .a)).hot = true ∧
    ((outIs 1 {}).outRec 63).mode = 1 ∧ ((outIs 2 {}).outRec 63).mode = 2 ∧ ((outIs 2 {}).out 63).code ≠ 12 ∧
    (let s := atTb 1000000000 (outIs 1 { code := 5, lowAt := some 0 })
     (s.out 63).lowAt = some 0 ∧ s.past 0 1000000000 = true ∧ (s.out 63).dark = true ∧ (s.out 63).code = 5) ∧
    (let s := atTb 1000000000 (outIs 1 { code := 6, lowAt := some 0, partner := none })
     (s.out 63).code = 6 ∧ s.partnerLow (s.out 63).partner = true) ∧
    (let s := atTb 100000000 (outIs 1 { code := 7 })
     (s.out 63).code = 7 ∧ (s.out 63).conducts = false ∧ s.past (s.out 63).offAt 100000000 = true) ∧
    (let s := atTb 20000 (outIs 2 {})
     (s.outRec 63).mode = 2 ∧ Lvl.high ≠ (if s.stays 63 .a && s.stays 63 .b then Lvl.high else Lvl.low) ∧
      Lvl.low = (if s.stays 63 .a && s.stays 63 .b then Lvl.high else Lvl.low) ∧
      s.past (s.out 63).onAt ((s.outRec 63).limt + 20000) = true ∧ s.past (s.out 63).offAt ((s.outRec 63).limt + 20000) = true) ∧
    (let s := outIs 2 { code := 16 }
     Lvl.low = (if (s.out 63).conducts then Lvl.high else Lvl.low) ∧ (s.out 63).code = 16 ∧ (s.out 63).rbA = .low ∧
      (s.out 63).rbB = .low) := by decide

/-- Output 63 with a record and in a state, 20 µs (or another time) into the schedule of bank 3, which both halves hold. -/
def inSlot (now : Nat) (w0 : Word) (r : Output) : State :=
  atTb now { outIs w0 r with halves := [(6, { ({} : FieldHalf) with sched := some 0 }), (7, { ({} : FieldHalf) with sched := some 0 })] }

/-- Element A under its off-pulse since 0. -/
def pulsing : Output := { a := { ({} : Element) with test := .pulse }, b := { ({} : Element) with on := true } }

theorem test_hyp_outputTestsAndLanesJudge :
    (let s := inSlot 100 0x8001 bothOn
     (s.outRec 63).mode = 1 ∧ edgeDue (s.slotPhase 63 .a) 0 = true ∧ (s.out 63).conducts = true ∧
      (s.half (63 / 16) .a).silent = false) ∧
    (let s := inSlot 100 0x8001 pulsing
     s.pulsed 63 = some .a ∧ ((s.out 63).el .a).test = .pulse ∧
      s.past ((s.out 63).el .a).testAt ((s.outRec 63).opw + 100) = true ∧
      s.dipped (63 / 16) .a = false ∧ s.dipped (63 / 16) .b = false) ∧
    (let s : State := { inSlot 100 0x8001 pulsing with halves := [(6, { ({} : FieldHalf) with dipAt := some 0 })] }
     s.pulsed 63 = some .a ∧ s.dipped (63 / 16) .a = true) ∧
    (let good := foldReadings [⟨.low, .low⟩, ⟨.low, .low⟩, ⟨.low, .low⟩]
     let bad := foldReadings [⟨.low, .low⟩, ⟨.high, .low⟩, ⟨.low, .low⟩]
     pulsePass .a good = true ∧ pulsePass .a good ≠ pulsePass .a bad ∧ pulsePass .a bad = false) ∧
    (∀ f : Reading, f = ⟨.high, .high⟩ ∨ f = ⟨.low, .low⟩ →
      let s := atTb 20000 (outIs 1 { failX := some (.b, f, f) })
      (s.out 63).failX = some (.b, f, f) ∧ s.past (s.out 63).offAt 20000 = true ∧ s.dipped (63 / 16) .a = false ∧
        s.dipped (63 / 16) .b = false) ∧
    ((⟨.high, .high⟩ : Reading).ball = .high ∧ (⟨.high, .low⟩ : Reading).n = .high ∧ (⟨.low, .low⟩ : Reading).ball = .low ∧
      (⟨.low, .low⟩ : Reading).n = .low ∧ (⟨.low, .low⟩ : Reading).ball ≠ .high ∧ (⟨.low, .low⟩ : Reading).n ≠ .high) ∧
    (inSlot 100 0x8011 {}).probeReady 63 .a = true ∧
    (let s := atTb 20000 (outIs 1 { a := { ({} : Element) with on := true, test := .probe } })
     ((s.out 63).el .a).test = .probe ∧ ((s.out 63).el .a).late = false ∧ s.past ((s.out 63).el .a).testAt 20000 = true ∧
      s.dipped (63 / 16) .a = false ∧ s.dipped (63 / 16) .b = false) ∧
    (let s := atTb 20000 (outIs 1 { b := { ({} : Element) with on := true, test := .probe } })
     ((s.out 63).el .b).test = .probe ∧ ((s.out 63).el .b).late = false ∧ s.past ((s.out 63).el .b).testAt 20000 = true ∧
      Lvl.undef ≠ Lvl.low) ∧
    (svc.continuousCode 63 ⟨.low, .low⟩ false = 0 ∧ svc.dipped (63 / 16) .b = false ∧ ((outIs 1 {}).outRec 63).mode = 1 ∧
      (outIs 1 {}).out 63 = {} ∧ (outIs 1 {}).dipped (63 / 16) .b = false ∧ (⟨.high, .low⟩ : Reading).n ≠ .low) ∧
    (let s : State := { svc with halves := [(6, { ({} : FieldHalf) with silent := true, buffered := List.replicate 15 ⟨48, 0, []⟩ }),
                                            (7, { ({} : FieldHalf) with silent := true, buffered := List.replicate 16 ⟨48, 0, []⟩ })] }
     s.halfOut (63 / 16) .a = false ∧ s.hbMissing (63 / 16) .a = true ∧ (s.half (63 / 16) .a).buffered.length < 16 ∧
      s.halfOut (63 / 16) .b = false ∧ s.hbMissing (63 / 16) .b = true ∧ 16 ≤ (s.half (63 / 16) .b).buffered.length) ∧
    (let s := outIs 1 { verA := some 3, a := { ({} : Element) with laneBad := 1 } }
     s.halfOut (63 / 16) .b = false ∧ s.hbMissing (63 / 16) .b = false ∧ s.cvus = [] ∧ (s.out 63).verA = some 3 ∧ (3 : Byte) ≠ 4 ∧
      ((s.out 63).el .a).laneBad = 1 ∧ codeRefused (s.out 63).code.toNat 11 = false ∧ (s.out 63).code = 0) := by
  refine ⟨by decide, by decide, by decide, by decide, ?_, by decide, by decide, by decide, by decide, by decide, by decide, by decide⟩
  rintro f (rfl | rfl) <;> decide

theorem test_hyp_fieldSupplyAndSilence :
    (let s : State := { svc with halves := [(6, { ({} : FieldHalf) with ref := some 255, lastHb := some 0 }),
                                            (7, { ({} : FieldHalf) with ref := some 255, silent := true, run := 7 })] }
     s.halfOut (3 : Fin 4) .a = false ∧ (s.half (3 : Fin 4) .a).silent = false ∧ (s.half (3 : Fin 4) .a).ref ≠ some ((9 : Byte) - 1) ∧
      (s.half (3 : Fin 4) .a).ref = some ((0 : Byte) - 1) ∧ (s.half (3 : Fin 4) .a).quiet = false ∧ s.silDue (3 : Fin 4) .a = false ∧
      (s.half (3 : Fin 4) .b).silent = true ∧ (s.half (3 : Fin 4) .b).ref = some ((0 : Byte) - 1) ∧
      (s.half (3 : Fin 4) .b).run = 7 ∧ s.halfOut (3 : Fin 4) .b = false) ∧
    ((svc.half (3 : Fin 4) .a).silent = false ∧ (svc.half (3 : Fin 4) .a).quiet = false ∧ svc.halfOut (3 : Fin 4) .a = false ∧
      svc.silDue (3 : Fin 4) .a = true) ∧
    (let s := outIs 1 { a := { ({} : Element) with discard := 2 }, b := { ({} : Element) with discard := 1 } }
     ((s.out 63).el .a).discard = 2 ∧ (s.out 63).code = 0 ∧ ((s.out 63).el .b).discard < 2) ∧
    (let s : State := { outIs 1 { code := 14 } with tps := [(31, { ({} : Source) with code := 6 })] }
     (s.bank (3 : Fin 4)).vf = true ∧ (s.out (16 * (3 : Fin 4) + (15 : Fin 16))).code = 14 ∧
      (s.tp (8 * (3 : Fin 4) + (7 : Fin 8))).code = 6) ∧
    ((svc.half (3 : Fin 4) .a).vfLow = false ∧ (svc.half (3 : Fin 4) .a).vfHigh = false) := by decide

/-- Source 31 in a mode and a state, bank 3 supplied, its schedule in its half. -/
def sourceIs (mode : Word) (r : Source) : State :=
  { svc with cfg := { svc.cfg with tps := [(31, { ({} : Rec2) with w0 := mode })] }, tps := [(31, r)],
             banks := [(3, { ({} : FBank) with vf := true, sched := some 0 })],
             halves := [(7, { ({} : FieldHalf) with sched := some 0 })] }

theorem test_hyp_testPulseSources :
    (let s := atTb 100 (sourceIs 0x801 {})
     (s.tpRec 31).mode = 1 ∧ (s.half (31 / 8) (sourceHalf 31)).sched = some 0 ∧ (s.tp 31).pulse = false ∧
      (s.half (31 / 8) (sourceHalf 31)).silent = false ∧
      edgeDue (s.phaseOf (some 0) (s.tpRec 31).ofs (s.tpRec 31).tpp) 0 = true) ∧
    (let s : State := { sourceIs 0x801 {} with halves := [(7, { ({} : FieldHalf) with sched := some 0, silent := true })] }
     (s.half (31 / 8) (sourceHalf 31)).sched = some 0 ∧ (s.tp 31).pulse = false ∧ (s.half (31 / 8) (sourceHalf 31)).silent = true) ∧
    (let s := atTb 100 (sourceIs 0x801 { pulse := true })
     (s.tpRec 31).mode = 1 ∧ (s.half (31 / 8) (sourceHalf 31)).sched = some 0 ∧ (s.tp 31).pulse = true ∧
      s.past (s.tp 31).pulseAt ((s.tpRec 31).tpw + 100) = true ∧ s.past (s.tp 31).pulseAt ((s.tpRec 31).tpw + 100 - us 5) = true ∧
      s.dipped (31 / 8) (sourceHalf 31) = false) ∧
    (let s := sourceIs 1 {}
     s.dipped (31 / 8) (sourceHalf 31) = false ∧ (s.tp 31).pulse = false ∧ s.tpOn 31 = true ∧ (s.tp 31).code = 0 ∧
      Lvl.undef ≠ .high ∧ (s.tp 31).code.toNat ≠ 1) ∧
    (let s := sourceIs 1 { limAt := some 0 }
     s.tpOn 31 = true ∧ (s.tp 31).limAt = some 0 ∧ s.past 0 1000000 = false ∧ (atTb 1000000 s).past 0 1000000 = true ∧
      (atTb 1000000 s).tpOn 31 = true) ∧
    ((sourceIs 1 { code := 4 }).tp 31).code = 4 ∧
    (let s := sourceIs 1 { code := 3 }
     (s.tp 31).code = 3 ∧ (s.tp 31).waiting = false ∧ (s.tp 31).retrying = false ∧ s.past (s.tp 31).retryAt (secs 1) = false) ∧
    (let s := atTb 1000000000 (sourceIs 1 { code := 3 })
     s.past (s.tp 31).retryAt (secs 1) = true ∧
      ((s.updTp 31 (fun r => { r with retryAt := s.now })).request (31 / 8 + 1) (siteSource 31) s.tpCost).1 = true) ∧
    (let s : State := { atTb 1000000000 (sourceIs 1 { code := 3 }) with ladle := { vf := [(3, { ({} : Bucket) with level := 119 })] } }
     s.past (s.tp 31).retryAt (secs 1) = true ∧
      ((s.updTp 31 (fun r => { r with retryAt := s.now })).request (31 / 8 + 1) (siteSource 31) s.tpCost).1 = false) ∧
    (let s := sourceIs 1 { code := 3, retrying := true }
     (s.tp 31).code = 3 ∧ (s.tp 31).waiting = false ∧ (s.tp 31).retrying = true) := by decide

/-- Domain 4 with a request of 60 tokens at a level, made at 0, after 50 µs. -/
def asked (level : Int) : State :=
  { svc with tb := { ({} : Timebase) with tb := 50000 },
             ladle := { vf := [(3, { ({} : Bucket) with level := level, queue := [⟨siteElement 63 .a, 60, 0⟩] })] } }

theorem test_hyp_ladleMovesTokens :
    (((asked 60).bucket 4).queue = ⟨siteElement 63 .a, 60, 0⟩ :: [] ∧
      ((60 : Nat) : Int) ≤ ((asked 60).bucket 4).level) ∧
    (((asked 59).bucket 4).level < ((60 : Nat) : Int) ∧ (4 : Fin 5) ≠ 0 ∧ (asked 59).past 0 50000 = true) ∧
    (let s : State := { asked 0 with ladle := { vf := [(3, { ({} : Bucket) with grants := [⟨4096, 60, 0⟩] })] } }
     s.returnDue 4 (4096 : Half).toNat = true) ∧
    (1 < ({ spent := 2, acc := 64000 } : Bucket).spent ∧ 64000 ≤ ({ spent := 2, acc := 64000 } : Bucket).acc) ∧
    (svc.halfHolds 3 .a + (0 : Half).toNat = (0 : Half).toNat + (0 : Half).toNat ∧
      svc.halfHolds 3 .b + (0 : Half).toNat = (0 : Half).toNat + (0 : Half).toNat ∧
      svc.halfHolds 3 .a + (0 : Half).toNat ≠ (1 : Half).toNat + (0 : Half).toNat) ∧
    (svc.sys.lock = false ∧ fld (0x17FFF : Word) 15 0 ≠ 0 ∧ fld (0x17FFF : Word) 15 0 ≤ 32767 ∧ fld (0x17FFF : Word) 31 16 ≠ 0) ∧
    ({ svc with sys := { svc.sys with lock := true } } : State).sys.lock = true := by decide

theorem test_hyp_ladleBooksBalance : (∀ d : Nat, (svc.bucket d).balanced = true) ∧ ∃ t, exec (.ladleGrant 4) svc = .next t := by
  refine ⟨fun d => ?_, svc, rfl⟩
  unfold State.bucket
  split
  · decide
  · exact (by decide : ({} : Bucket).balanced = true)

theorem test_hyp_lidLatchesAndMasks : 63 < 64 ∧ svc.lid.faultA = false ∧ svc.lid.faultB = false := by decide

/-! ### Hypotheses: cells, pairs, debug, cell control -/

/-- An image like v0 with another SIG, PAIR_OK and SINGLE_OK, an engine and a release 60 µs later. -/
def v1 (eng : Word) : CellImg := { v0 with desc := ((v0.desc.set 0 0xC00).set 1 (eng <<< 8 ||| 60)).set 62 1 }

theorem test_hyp_cellsReleaseRenewExpire :
    (let s := cellIs 1023 .running svc
     s.pwr.phase = .service ∧ s.coreUp = true ∧ (s.cell 1023).st = .running ∧ (s.cell 1023).ver = some v0 ∧
      (s.cell 1023).nver = none ∧ s.releaseDue v0 (s.cell 1023).relAt = true ∧ (atTb 5000 s).releaseDue v0 (s.cell 1023).relAt = false) ∧
    (let s := cellIs 7 .running (single id)
     (s.cell 7).st = .running ∧ (s.cell 7).expd = false ∧ (s.cell 7).first = false ∧ s.groupsOf 7 = [] ∧
      s.canRelease 0 false = true) ∧
    (let s := cellIs 7 .running (pairOf id)
     s.canRelease 0 true = true ∧ (s.eng 0).whisk = (s.eng (0 + 1)).whisk) ∧
    (svc.cell 1023).st = .unloaded ∧
    (let s : State := { cellIs 7 .running svc with
        tb := { ({} : Timebase) with tb := 255000 },
        perm := { slots := [(255, { ({} : Slot) with cell := some 7, p0 := true }), (0, { ({} : Slot) with cell := some 7, p0 := true, t0 := 1 })] } }
     (Tab.get {} s.perm.slots (255 : Fin 256)).cell = some 7 ∧ (s.cell 7).ver = some v0 ∧
      (Tab.get {} s.perm.slots (255 : Fin 256)).use0 = true ∧ (Tab.get {} s.perm.slots (255 : Fin 256)).p0 = true ∧
      2 * v0.cycle + 5000 ≤ s.since (Tab.get {} s.perm.slots (255 : Fin 256)).t0 ∧ (0 : Nat) ≠ (255 : Fin 256)) ∧
    (let s : State := { cellIs 7 .running svc with
        tb := { ({} : Timebase) with tb := 254999 }, perm := { slots := [(255, { ({} : Slot) with cell := some 7, p0 := true })] } }
     (Tab.get {} s.perm.slots (255 : Fin 256)).p0 = true ∧
      s.since (Tab.get {} s.perm.slots (255 : Fin 256)).t0 < 2 * v0.cycle + 5000) ∧
    (let s : State := { svc with cells := [(7, { ({} : CellS) with st := .running, ver := some v0, dEng := true, dAt := some 0 })] }
     s.degrTime (7 : Fin 1024) = some (0, 0) ∧ (s.cell 7).degraded = true ∧ 0 ≤ 2 * 0 ∧ 9 * 0 ≤ 10 * 0 ∧ (s.cell 7).r50 = false ∧
      (s.cell 7).r90 = false ∧ (s.cell 7).st = .running ∧ (s.cell 7).expd = false ∧ s.handingOver (7 : Fin 1024) = false) := by decide

/-- Pair 31 in a state, its engines in roles. -/
def pair31 (st : PState) (a b : EngRole) (f : EPair → EPair) : State :=
  { svc with engs := [(62, { ({} : Engine) with role := a }), (63, { ({} : Engine) with role := b })],
             epairs := [(31, f { ({} : EPair) with st := st })] }

theorem test_hyp_pairsResolveMismatches :
    (let s := pair31 .paired .leader .follower (fun x => { x with l := some 1 })
     (s.eng (2 * (31 : Fin 32))).role = .leader ∧ (s.eng (2 * (31 : Fin 32) + 1)).role = .follower ∧
      (s.epair (31 : Fin 32)).l.isSome ≠ (s.epair (31 : Fin 32)).f.isSome ∧ s.past (s.epair (31 : Fin 32)).sealAt 400 = false ∧
      (atTb 400 s).past (s.epair (31 : Fin 32)).sealAt 400 = true) ∧
    (let s := pair31 .resolving .leader .halted id
     (s.epair (31 : Fin 32)).st = .resolving ∧ (s.epair (31 : Fin 32)).disc5 = false ∧ (s.epair (31 : Fin 32)).both = [] ∧
      (s.eng (2 * (31 : Fin 32) + 1)).role = .halted) ∧
    (let s := pair31 .resolving .halted .follower (fun x => { x with disc5 := true })
     (s.epair (31 : Fin 32)).st = .resolving ∧ (s.epair (31 : Fin 32)).disc5 = true ∧
      (s.eng (2 * (31 : Fin 32))).role = .halted) := by decide

theorem test_hyp_selfTestsAndScrubbing :
    ((single id).eng 0).role = .single ∧ State.reset.regionUp ((15 : Fin 16) / 4) = false ∧
    svc.regionUp ((15 : Fin 16) / 4) = true ∧ (0xFFFE : Half) ≠ 0xFFFF#16 ∧
    (Tab.get {} (svc.clu 15).own ((0xFFFE : Half).toNat / 256)).tag = 0 ∧
    (∀ n : Nat, n < 3 →
     let m : Cluster := { own := [(255, { ({} : OwnE) with tag := 9 })], wrote := [(255, 9)], err := if n = 0 then [] else [(0xFFFE, n)] }
     (Tab.get {} m.own ((0xFFFE : Half).toNat / 256)).tag ≠ 0 ∧ (Tab.get {} m.own ((0xFFFE : Half).toNat / 256)).badPar = false ∧
      m.wroteTag (0xFFFE : Half).toNat = (Tab.get {} m.own ((0xFFFE : Half).toNat / 256)).tag ∧
      m.wroteAt (0xFFFE : Half).toNat = BitVec.ofNat 16 (0xFFFE : Half).toNat ∧ Tab.get 0 m.err (0xFFFE : Half).toNat = n) := by
  refine ⟨by decide, by decide, by decide, by decide, by decide, ?_⟩
  intro n h
  match n, h with
  | 0, _ => decide
  | 1, _ => decide
  | 2, _ => decide

/-- Engine 0 with debug enabled by the configuration. -/
def debugging (f : Engine → Engine) : State := { withPage f with cfg := { svc.cfg with dbgEn := true } }

theorem test_hyp_debugAndTestAccess :
    (SingleReady (single id) 0 ∧ PlainPlace ((single id).eng 0) ∧ ((single id).loaded && (single id).cfg.dbgEn) = false ∧
      (single id).debugOk 0 = false ∧ ((single id).eng 0).role ≠ .halted) ∧
    (SingleReady (debugging id) 0 ∧ PlainPlace ((debugging id).eng 0) ∧ (debugging id).debugOk 0 = true ∧
      ((debugging id).eng ((debugging id).head 0)).wdHit = false ∧ (debugging id).interrupted ((debugging id).head 0) = false ∧
      ((debugging id).eng 0).role = .single) ∧
    (let s := debugging (fun x => { x with role := .halted, dbg := true })
     (s.eng 0).role = .halted ∧ (s.eng 0).dbg = true ∧ s.debugReach 0 0x3FF 1 true = true ∧ s.debugReach 0 0x400 1 true = false ∧
      s.debugReach 0 0x3FF 1 false = true ∧ cleanWord s (0 / 4) ((0x3FF : BitVec 18).toNat / 4) 1 = true ∧
      s.debugReach 0 0x400 1 false = false) ∧
    svc.bist.inHold = false ∧ ({ svc with bist := { inHold := true } } : State).bist.inHold = true ∧ svc.pwr.rstn = true ∧
    (powered (fun p => { p with rstn := false })).pwr.rstn = false := by decide

/-- A submission entry: code, session, length and parameters, with a buffer. -/
def desc (opc sess len : Word) (ps : List Word) (buf : List Byte := []) : Desc :=
  { w := [opc, sess, 0, 0, len] ++ ps ++ List.replicate (11 - ps.length) 0, sqidx := 0, buf := some buf, memErr := false, ran := false,
    net := opcNetwork opc.toNat }

/-- Queue pair 63 of a class ACTIVE with a command, the maintenance session 1 and the safety session 2 open on it. -/
def asking (cls : Bool) (d : Desc) (s : State) : State :=
  { s with
    hif := { s.hif with linkUp := true, qps := [(63, { ({} : Qp) with st := .active, en := true, cls := cls, cmds := [d], out := 1, cqCfg := 4 })] },
    store := { s.store with maint := { s.store.maint with sess := some (1, 63) },
                            safety := { s.store.safety with sess := some (2, 63) } } }

theorem test_hyp_cellExchangeRuns :
    (let s := asking false (desc 0x20 2 0 [20]) exchanging
     s.controlFree = false) ∧
    (let d := desc 0x20 2 0 [1, 7]
     let s := asking false d svc
     s.controlFree = true ∧ CanRun s 63 0x20 .safety d ∧ fld (d.p 0) 31 5 = 0 ∧ 1 ≤ fld (d.p 0) 4 0 ∧ fld (d.p 0) 4 0 ≤ 20 ∧
      d.cellListOk 1 (fld (d.p 0) 4 0) = true) ∧
    (v0.sig = v0.sig ∧ (v1 1).sig ≠ v0.sig ∧ (v1 1).eng ≠ v0.eng) ∧
    (let s : State := { svc with ho := { rest := [7] }, store := { svc.store with lost := true } }
     s.ho.rest = 7 :: [] ∧ s.store.lost = true) := by decide

/-- Cell 7 runs v0 on engine 0; the winning bank holds a new version of it. -/
def newVersion : State :=
  let s := cellIs 7 .running (single id)
  { s with ho := { rest := [7] },
           store := { s.store with win := some false, bank0 := { image := { Image.none with cells := [(7, (v1 0))] } } } }

theorem test_hyp_exchangeNext :
    let s := newVersion
    let u : State := { s with ho := { s.ho with cell := 7, rest := [], axes := s.committed.axes, groups := s.committed.groups,
                                                conns := s.committed.conns } }
    s.ho.rest = 7 :: [] ∧ s.store.lost = false ∧ s.committed.cell 7 = some (v1 0) ∧ (s.cell 7).ver = some v0 ∧ (s.cell 7).st = .running ∧
      (s.cell 7).eng = 0 ∧ u.exchangeCode 7 (v1 0) v0 = 0 ∧
      u.findPlace (v1 0) (0 / 4) false = some (1, 0, 0) := by decide

/-- A command of queue pair 63 as it has started: its session touched, marked as run. -/
def started (d : Desc) (s : State) : State := (s.touchSession 63 d.sess).markRan 63 d

/-- CELL_MOVE of cell 7 to an engine. -/
def moveTo (e : Word) : Desc := desc 0x21 1 0 [7, e]
/-- A module asked to move cell 7, which runs v1 on engine 0. -/
def moving (e : Word) : State :=
  asking false (moveTo e) { single id with cells := [(7, { ({} : CellS) with st := .running, ver := some (v1 0) })] }
/-- The move as its checks see it. -/
def moveSeen (e : Word) : State :=
  { started (moveTo e) (moving e) with
    ho := { step := .idle, kind := .move, cell := 7, qp := 63, axes := (moving e).cfg.axes, groups := (moving e).cfg.groups,
            conns := (moving e).cfg.conns } }

theorem test_hyp_cellMoveRuns :
    (moving 63).controlFree = true ∧ CanRun (moving 63) 63 0x21 .maint (moveTo 63) ∧ fld ((moveTo 63).p 0) 31 10 = 0 ∧
    fld ((moveTo 63).p 1) 31 7 = 0 ∧ 7 = fld ((moveTo 63).p 0) 9 0 ∧ 63 = fld ((moveTo 63).p 1) 5 0 ∧
    false = bit ((moveTo 63).p 1) 6 ∧
    ((moving 63).cell 7).ver = some (v1 0) ∧ ((moving 63).cell 7).st = .running ∧
    (moveSeen 63).moveCode 7 (v1 0) 63 false = 0 ∧ (moveSeen 63).findPlace (v1 0) (63 / 4) false = some (0, 0, 0) := by decide

theorem test_hyp_cellMoveRefused :
    let s : State := { moving 63 with engs := [(63, { ({} : Engine) with role := .out })] }
    let u : State := { started (moveTo 63) s with
      ho := { step := .idle, kind := .move, cell := 7, qp := 63, axes := s.cfg.axes, groups := s.cfg.groups, conns := s.cfg.conns } }
    s.controlFree = true ∧ CanRun s 63 0x21 .maint (moveTo 63) ∧ (s.cell 7).ver = some (v1 0) ∧ (s.cell 7).st = .running ∧
      u.moveCode 7 (v1 0) 63 false ≠ 0 := by decide

/-- Cell 7 in a state, running v0 with v1 prepared, a hand-over of it at a step. -/
def handing (st : CState) (step : HoStep) (kind : HoKind) : State :=
  { svc with cells := [(7, { ({} : CellS) with st := st, ver := some v0, nver := some (v1 0) })],
             ho := { step := step, kind := kind, cell := 7 } }

theorem test_hyp_exchangeSteps :
    (let s := handing .loading .loading .exchange
     s.ho.step = .loading ∧ s.ho.cell = 7 ∧ (s.cell 7).nver = some (v1 0) ∧ (s.cell 7).st = .loading) ∧
    (let s := handing .running .loading .exchange
     s.ho.step = .loading ∧ s.ho.cell = 7 ∧ (s.cell 7).nver = some (v1 0) ∧ (s.cell 7).ver = some v0 ∧ (s.cell 7).st = .running) ∧
    (let s := handing .running .waiting .exchange
     s.ho.step = .waiting ∧ s.ho.kind = .exchange ∧ (s.cell s.ho.cell).ver = some v0 ∧ (s.cell s.ho.cell).nver = some (v1 0) ∧
      s.inGap v0 = false) ∧
    (let s := atTb 124999 (handing .running .waiting .exchange)
     ({ s with ho := { s.ho with x := 125000 } } : State).inGap v0 = true) ∧
    (let s : State := { handing .running .running .exchange with tb := { ({} : Timebase) with tb := 125000 } }
     s.inHandCycle s.ho.cell = true ∧ (s.cell s.ho.cell).ver = some v0 ∧ (s.cell s.ho.cell).nver = some (v1 0) ∧
      s.past s.ho.x.toNat (max (v1 0).cycle v0.cycle) = true) ∧
    (let s : State := { handing .running .running .exchange with tb := { ({} : Timebase) with tb := 124999 } }
     s.inHandCycle s.ho.cell = true ∧ s.past s.ho.x.toNat (max (v1 0).cycle v0.cycle) = false) := by decide

/-- The hand-over of pair 31 waiting. -/
def pairWaits (kind : HoKind) : State := { svc with ho := { step := .waiting, kind := kind, pair := 31 } }

/-- A fired channel without its use. -/
def spent (n : Nat) (s : State) : State := (s.fired n).updChan n (fun h => { h with use := .none })

theorem test_hyp_handoverInstants :
    (let s := armed 0 6 (.cell 7) none (handing .running .waiting .exchange)
     s.due 0 = true ∧ (s.chan 0).code = 6 ∧ (s.chan 0).use = .cell 7 ∧ (spent 0 s).handingOver 7 = true ∧
      (spent 0 s).ho.step = .waiting) ∧
    (let s := armed 0 8 (.cell 7) none (handing .running .waiting .move)
     s.due 0 = true ∧ (s.chan 0).code = 8 ∧ (s.chan 0).use = .cell 7 ∧ (spent 0 s).handingOver 7 = true ∧
      (spent 0 s).ho.step = .waiting) ∧
    (let s := armed 0 8 (.pair 31) none (pairWaits .split)
     s.due 0 = true ∧ (s.chan 0).code = 8 ∧ (s.chan 0).use = .pair 31 ∧ (spent 0 s).ho.step = .waiting ∧
      (spent 0 s).ho.pair = 31 ∧ (spent 0 s).ho.kind = .split) ∧
    (let s := armed 0 8 (.pair 31) none (pairWaits .merge)
     s.due 0 = true ∧ (spent 0 s).ho.pair = 31 ∧ (spent 0 s).ho.kind = .merge) ∧
    (∀ kind : HoKind, kind = .split ∨ kind = .merge →
     let s : State := { pair31 .handover .halted .halted id with ho := { step := .running, kind := kind, pair := 31 } }
     s.ho.step = .running ∧ s.ho.pair = 31 ∧ (s.eng (2 * 31)).role = .halted ∧ (s.eng (2 * 31 + 1)).role = .halted ∧
      s.ho.kind = kind ∧ (s.epair 31).st ≠ .debug) := by
  refine ⟨by decide, by decide, by decide, by decide, ?_⟩
  rintro kind (rfl | rfl) <;> decide

/-- PAIR_SPLIT of pair 31 with cell 7 to its odd engine. -/
def splitCmd : Desc := desc 0x22 1 0 [31, 1, 7]
/-- A split of pair 31 asked for, the pair formed or not. -/
def splitting (formed : Bool) : State :=
  asking false splitCmd { pair31 .paired .leader .follower (fun x => { x with formed := formed }) with
    cells := [(7, { ({} : CellS) with st := .running, ver := some (v1 62), eng := 62, onP := true })] }
/-- The split as its checks see it. -/
def splitSeen (formed : Bool) : State :=
  { started splitCmd (splitting formed) with
    ho := { step := .idle, kind := .split, pair := 31, qp := 63, odd := [7], at_ := 0 } }

theorem test_hyp_pairSplitRuns :
    (splitting true).controlFree = true ∧ CanRun (splitting true) 63 0x22 .maint splitCmd ∧ CanRun (splitting false) 63 0x22 .maint splitCmd ∧
    fld (splitCmd.p 0) 31 5 = 0 ∧ fld (splitCmd.p 1) 31 5 = 0 ∧ fld (splitCmd.p 1) 4 0 ≤ 18 ∧ splitCmd.cellListOk 2 (fld (splitCmd.p 1) 4 0) = true ∧
    fld (splitCmd.p 0) 4 0 = 31 ∧ splitCmd.cellList 2 (fld (splitCmd.p 1) 4 0) = [7] ∧
    (splitSeen false).splitCode 31 [7] = 0x39 ∧ (splitSeen true).splitCode 31 [7] = 0 ∧
    (splitSeen true).pairBoundary 31 ≠ none := by decide

/-- PAIR_MERGE of pair 31. -/
def mergeCmd : Desc := desc 0x23 1 0 [31]
/-- A merge of pair 31 asked for, its engines in a role. -/
def merging (r : EngRole) : State := asking false mergeCmd (pair31 .split r r id)
/-- The merge as its checks see it. -/
def mergeSeen (r : EngRole) : State :=
  { started mergeCmd (merging r) with ho := { step := .idle, kind := .merge, pair := 31, qp := 63, at_ := 0 } }

theorem test_hyp_pairMergeRuns :
    (merging .single).controlFree = true ∧ CanRun (merging .single) 63 0x23 .maint mergeCmd ∧ fld (mergeCmd.p 0) 31 5 = 0 ∧
    fld (mergeCmd.p 0) 4 0 = 31 ∧ (mergeSeen .single).mergeCode 31 = 0 ∧ (mergeSeen .out).mergeCode 31 ≠ 0 ∧
    ((mergeSeen .single).when (!(mergeSeen .single).carries (2 * 31) || !(mergeSeen .single).carries (2 * 31 + 1))
      (fun s => s.abandonRun (31 / 8))).pairBoundary 31 ≠ none ∧
    ((pair31 .split .single .single id).epair 31).st ≠ .debug ∧ (pair31 .split .single .single id).pairBusy (2 * 31) = false ∧
    ((pair31 .split .single .single id).epair 31).st ≠ .paired := by decide

/-- CELL_RESTART of cell 7. -/
def restartCmd : Desc := desc 0x24 1 0 [7]
/-- Cell 7 in a state on engine 0, its version v0 committed. -/
def restarting (st : CState) : State :=
  let s := asking false restartCmd (cellIs 7 st (single id))
  { s with store := { s.store with win := some false, bank0 := { image := { Image.none with cells := [(7, v0)] } } } }
/-- The restart as it sees its place. -/
def restartSeen : State :=
  ((restarting .held).touchSession 63 1).freeAreas v0 0 0 0 |>.updCell 7 (fun y => { y with st := .loading })

theorem test_hyp_cellRestartRuns :
    (restarting .running).controlFree = true ∧ CanRun (restarting .running) 63 0x24 .maint restartCmd ∧
    fld (restartCmd.p 0) 31 10 = 0 ∧ ((restarting .running).cell (fld (restartCmd.p 0) 9 0)).st ≠ .held ∧
    (restarting .held).controlFree = true ∧ CanRun (restarting .held) 63 0x24 .maint restartCmd ∧ 7 = fld (restartCmd.p 0) 9 0 ∧
    (let u := (restarting .held).touchSession 63 1
     (u.cell 7).st = .held ∧ (u.cell 7).dEng = false ∧ u.placeUp (u.cell 7).eng (u.cell 7).onP = true ∧
      u.committed.cell 7 = some v0 ∧ (u.cell 7).ver = some v0 ∧ u.ownershipOk 7 v0 = true) ∧
    restartSeen.findPlace v0 (0 / 4) false ≠ none := by decide

/-- UNIT_RESET of an engine by its site. -/
def resetCmd : Desc := desc 0x25 1 0 [BitVec.ofNat 32 (siteEngine 63)]

/-- Engine 63 carries cell 7. -/
def busyEngine : State :=
  { svc with
    engs := [(63, { ({} : Engine) with role := .single })]
    cells := [(7, { ({} : CellS) with st := .running, ver := some (v1 63), eng := 63 })] }

theorem test_hyp_unitResetRuns :
    (let s := asking false resetCmd svc
     let u := s.touchSession 63 1
     CanRun s 63 0x25 .maint resetCmd ∧ fld (resetCmd.p 0) 31 19 = 0 ∧ u.resetCode (u.targetOf (resetCmd.p 0)) = 0 ∧
      (u.targetOf (resetCmd.p 0)).regionOf = some 3 ∧ u.regionUp 3 = true ∧ ({ u with regions := 7 } : State).regionUp 3 = false) ∧
    (let s := asking false resetCmd busyEngine
     let u := s.touchSession 63 1
     CanRun s 63 0x25 .maint resetCmd ∧ u.resetCode (u.targetOf (resetCmd.p 0)) ≠ 0) ∧
    (svc.targetOf (BitVec.ofNat 32 (siteInput 127)) = .input 127 ∧ svc.resetCode (.input 127) = 0 ∧
      (Target.input 127).regionOf = none ∧ ∀ g : Nat, Target.input 127 ≠ .region g) ∧
    (svc.targetOf (BitVec.ofNat 32 (2 * 65536 + siteRegion 3)) = .region 3 ∧ svc.resetCode (.region 3) = 0) ∧
    (svc.eng 63).role = .idle := by
  refine ⟨by decide, by decide, ⟨by decide, by decide, rfl, fun g h => Target.noConfusion h⟩, by decide, by decide⟩

/-! ### Hypotheses: Wilis and FiminLink -/

/-- Connection 5 of CID 9, one data word each way, T_WD 1 ms, on MAC 0 (and 1 where dual), in a state. -/
def wilis (resp dual : Bool) (st : ConnSt) : State :=
  { svc with
    cfg := { svc.cfg with conns := [(5, [atBit 32 31 resp ||| 9, 0x84001 ||| atBit 32 25 dual, 0, 1])] }
    net := { udp := 1, macs := [(0, { ({} : Mac) with en := true, wlEn := true, link := true })],
             conns := [(5, { ({} : Conn) with st := st, rx := 100 })] } }

/-- The peer's frame of a type with a sequence and one data word. -/
def peerFrame (type : Nat) (resp : Bool) (seq : Half) (data : List Word) : List Byte :=
  wilisFrame type false 0 (9 ||| atBit 32 31 (!resp)) seq 0 data

/-- An encapsulation that passes its checks. -/
def udpOk : Encap := ⟨true, true⟩

/-- What admits a frame, and what it leaves. -/
def admits (s : State) (f : List Byte) (type : Nat) : Option Nat := (s.admitFrame 0 udpOk f type).1
/-- The state after admission. -/
def admitted (s : State) (f : List Byte) (type : Nat) : State := (s.admitFrame 0 udpOk f type).2

theorem test_hyp_wilisData :
    admits (wilis true false .open) [] ftData = none ∧
    (let s := wilis true false .open
     let f := fun (seq : Half) => peerFrame ftData true seq [7]
     admits s (f 101) ftData = some 5 ∧ (admitted s (f 101) ftData).wdDue 5 = false ∧ ((admitted s (f 101) ftData).conn 5).st = .open ∧
      (admitted s (f 101) ftData).freshFrame 5 (f 101) = true ∧ 1 ≤ (fSeq (f 101) - ((admitted s (f 101) ftData).conn 5).rx).toNat ∧
      (fSeq (f 101) - ((admitted s (f 101) ftData).conn 5).rx).toNat ≤ 32767 ∧
      admits s (f 100) ftData = some 5 ∧ fSeq (f 100) = ((admitted s (f 100) ftData).conn 5).rx ∧
      admits s (f 99) ftData = some 5 ∧ 32767 < (fSeq (f 99) - ((admitted s (f 99) ftData).conn 5).rx).toNat) ∧
    (let s : State := { wilis true false .open with tb := { ({} : Timebase) with tb := 990000 } }
     admits s (peerFrame ftData true 101 [7]) ftData = some 5 ∧ (admitted s (peerFrame ftData true 101 [7]) ftData).wdDue 5 = true) := by
  decide

theorem test_hyp_wilisConnect :
    admits (wilis true false .connecting) [] ftConnect = none ∧
    (let s := wilis true false .connecting
     let f := peerFrame ftConnect true 1 [s.connParam 5]
     let g := peerFrame ftConnect true 1 [s.connParam 5 + 1]
     admits s f ftConnect = some 5 ∧ (admitted s f ftConnect).connResp 5 = true ∧ (admitted s f ftConnect).freshFrame 5 f = true ∧
      ((admitted s f ftConnect).conn 5).st = .connecting ∧ fData f 0 = (admitted s f ftConnect).connParam 5 ∧
      admits s g ftConnect = some 5 ∧ (admitted s g ftConnect).freshFrame 5 g = true ∧
      ((admitted s g ftConnect).conn 5).st = .connecting ∧ fData g 0 ≠ (admitted s g ftConnect).connParam 5) ∧
    (let s := wilis false false .connecting
     let f := peerFrame ftAccept false 1 [s.connParam 5]
     let g := peerFrame ftReject false 1 [2]
     admits s f ftAccept = some 5 ∧ (admitted s f ftAccept).connResp 5 = false ∧ (admitted s f ftAccept).freshFrame 5 f = true ∧
      ((admitted s f ftAccept).conn 5).st = .connecting ∧ fData f 0 = (admitted s f ftAccept).connParam 5 ∧
      admits s g ftReject = some 5 ∧ (admitted s g ftReject).connResp 5 = false ∧ (admitted s g ftReject).freshFrame 5 g = true ∧
      ((admitted s g ftReject).conn 5).st = .connecting) ∧
    (let f := peerFrame ftClose true 101 []
     admits (wilis true false .open) f ftClose = some 5 ∧ ((admitted (wilis true false .open) f ftClose).conn 5).st = .open ∧
      admits (wilis true false .connecting) f ftClose = some 5 ∧
      ((admitted (wilis true false .connecting) f ftClose).conn 5).st ≠ .open) := by decide

theorem test_hyp_wilisTimers :
    (let s : State := { wilis true false .open with cells := [(0, { ({} : CellS) with st := .running, ver := some v0 })] }
     (s.conn 5).st = .open ∧ s.txDue 5 = true ∧ s.passive 5 = false) ∧
    ((wilis true false .open).conn 5).st = .open ∧ (wilis true false .open).txDue 5 = true ∧ (wilis true false .open).passive 5 = true ∧
    (svc.conn 5).st ≠ .open ∧ (atTb 16001 (wilis true false .open)).txDue 5 = false ∧
    ((wilis false false .connecting).conn 5).st = .connecting ∧ (wilis false false .connecting).connResp 5 = false ∧
    (wilis false false .connecting).txDue 5 = true ∧
    (let s : State := { wilis true true .open with tb := { ({} : Timebase) with tb := 990000 } }
     s.wdDue 5 = true) ∧
    svc.wdDue 5 = false ∧
    (let s : State := { svc with
        cfg := { svc.cfg with conns := [(5, [9, 0x2084001, 0, 1])] }, tb := { ({} : Timebase) with tb := 1000000 },
        net := { conns := [(5, { ({} : Conn) with st := .open, rxAt := 20000 })] } }
     (s.conn 5).st = .open ∧ s.wdDue 5 = false ∧ s.connDual 5 = true ∧ s.pathDue 5 false = true ∧ (s.conn 5).up1 = false) ∧
    (let s : State := { wilis true false .failed with tb := { ({} : Timebase) with tb := 1000000 } }
     (s.conn 5).st = .failed ∧ s.past (s.conn 5).since (s.connWd 5) = true) := by decide

theorem test_hyp_ethernet :
    ((wilis true false .open).mac 0).en = true ∧ ((wilis true false .open).mac 0).link = true ∧ ([] : List Byte).length < 60 ∧
    60 ≤ (List.replicate 60 (0 : Byte)).length ∧ (List.replicate 1518 (0 : Byte)).length ≤ 1518 ∧
    (let s : State := { svc with hif := { qps := [(63, { ({} : Qp) with st := .active, cls := true, mac := 3 })] } }
     s.netQp 3 = some 63 ∧ (s.qp 63).posts = [] ∧ (s.qp 62).st ≠ .active) ∧
    (let s : State := { svc with hif := { qps := [(63, { ({} : Qp) with st := .active, cls := true, posts := [desc 0x31 0 64 []] })] } }
     (s.qp 63).st = .active ∧ (s.qp 63).posts = desc 0x31 0 64 [] :: []) ∧
    ((wilis true false .open).mac 0).link ≠ (((wilis true false .open).mac 0).en && (Link.down == .up)) ∧ Link.bad = .bad := by decide

/-- Modules 0 (this one) and 1 on FiminLink, in a role, both rings up, with link A measured as 100 ns. -/
def ring (r : FlkRole) : State :=
  { svc with
    cfg := { svc.cfg with flkEn := true, present := 3, imports := [(191, (1, 63))] }
    flk := { role := r, linkA := true, linkB := true, delays := [100] } }

/-- Module 1's slot body and SYNC body with right check values. -/
def slot1 : List Byte := (ring .run).withChk (ofWords ([0x11, 0] ++ List.replicate 29 0))
/-- Module 1's SYNC body. -/
def sync1 : List Byte := (ring .run).withChk (ofWords [0x11, 0, 0])

theorem test_hyp_fiminLinkRing :
    ((ring .listen).flkUp = true ∧ (ring .listen).flk.role = .listen ∧ (ring .listen).past (ring .listen).flk.roleAt 100000 = false ∧
      (atTb 100000 (ring .listen)).past (ring .listen).flk.roleAt 100000 = true) ∧
    (let s : State := { ring .backoff with cfg := { (ring .backoff).cfg with modAddr := 1 } }
     s.flkUp = true ∧ s.flk.role = .backoff ∧ s.flk.lead = false ∧ s.past s.flk.roleAt (100000 * s.modAddr) = false ∧
      (atTb 100000 s).past s.flk.roleAt (100000 * s.modAddr) = true) ∧
    (let s : State := { ring .backoff with flk := { (ring .backoff).flk with lead := true } }
     s.flk.role = .backoff ∧ s.flk.lead = true) ∧
    ((ring .run).sends = true ∧ (ring .run).slotDue = false ∧ (atTb 1600 (ring .run)).slotDue = true ∧ (ring .run).flkUp = true ∧
      (ring .run).now % 50000 < 2000 ∧ (ring .run).flk.cycAt ≠ some (ring .run).cycNo ∧ (ring .run).flk.syncB = none ∧
      (ring .run).flk.role ≠ .backoff ∧ svc.flkUp = false) ∧
    (let b := List.replicate 128 (0x12 : Byte)
     (ring .run).ringUp .a = true ∧ (ring .run).configured (fld (b.getD 0 0) 3 0) = false ∧ b.length = 128 ∧
      (ring .run).chkOk b 124 = false) ∧
    (let s := ring .run
     let u := (s.emit (.forward .a slot1)).measureLink .a 1 slot1 100
     fld (slot1.getD 0 0) 3 0 = (1 : Fin 16).val ∧ (1 : Fin 16).val ≠ s.modAddr ∧ s.configured (1 : Fin 16) = true ∧ slot1.length = 128 ∧
      s.chkOk slot1 124 = true ∧ slotShape slot1 = true ∧ word4 (slot1.drop 4) = BitVec.ofNat 32 (((s.now : Int) - 100).toNat / 50000) ∧
      u.linkLong .a = false ∧ u.pathKnown .a (1 : Fin 16) = true ∧ ((100 : Int) - u.pathDelay .a (1 : Fin 16)).natAbs ≤ 200) ∧
    (let s := ring .run
     s.flkUp = true ∧ s.ringUp .a = true ∧ sync1.length = 16 ∧ s.configured (fld (sync1.getD 0 0) 3 0) = true ∧ s.flk.isMaster = false ∧
      s.chkOk sync1 12 = true ∧ syncShape sync1 = true ∧ s.linkLong .a = false ∧
      s.chkOk (sync1.set 12 (sync1.getD 12 0 + 1)) 12 = false ∧ (sync1.set 12 (sync1.getD 12 0 + 1)).length = 16 ∧
      s.configured (fld ((sync1.set 12 (sync1.getD 12 0 + 1)).getD 0 0) 3 0) = true) ∧
    (let s : State := { ring .run with
        flk := { role := .run, linkA := true, linkB := true, peers := [(1, { ({} : Peer) with adm := true, leave := true })] } }
     s.flkUp = true ∧ (1 : Fin 16).val ≠ s.modAddr ∧ (s.peer (1 : Fin 16)).adm = true ∧ (s.peer (1 : Fin 16)).leave = true ∧
      (191, (1, 63)) ∈ s.cfg.imports ∧ 191 < 192) := by decide

/-! ### Hypotheses: the host interface -/

/-- Queue pair 63 tweaked. -/
def queue (f : Qp → Qp) : State := { busState with hif := { linkUp := true, qps := [(63, f { ({} : Qp) with sqCfg := 1, cqCfg := 1 })] } }

theorem test_hyp_queuePairsRun :
    (let u := (queue (fun x => { x with st := .active, en := true })).hostWrite
     fld (0x10000 : Word) 31 16 ≠ 0 ∧ fld (2 : Word) 31 16 = 0 ∧ (u.qp 63).st = .active ∧ (u.qp 62).st ≠ .active ∧
      ((2 : Word).extractLsb' 0 16 - (u.qp 63).sqc).toNat ≤ 2 ^ (u.qp 63).sqExp ∧
      2 ^ (u.qp 63).sqExp < ((3 : Word).extractLsb' 0 16 - (u.qp 63).sqc).toNat ∧
      ((0 : Word).extractLsb' 0 16 - (u.qp 63).cqc).toNat ≤ ((u.qp 63).cqp - (u.qp 63).cqc).toNat ∧
      ((u.qp 63).cqp - (u.qp 63).cqc).toNat < ((1 : Word).extractLsb' 0 16 - (u.qp 63).cqc).toNat) ∧
    ((((queue id).qp 63).sqpAt ≠ some 4) ∧ (5 : Nat) ≠ 4) ∧
    (let s := queue (fun x => { x with st := .active, en := true, sqp := 2 })
     s.busUp = true ∧ s.hostPath = true ∧ s.sqReads < 8 ∧ (s.qp 63).fetchable s.now = 2 ∧ s.fetchTurn = some (63 : Fin 64).val ∧
      s.fetchTurn ≠ some (62 : Fin 64).val) ∧
    (let s := queue id
     (s.hostWrite.qp 63).st = .disabled ∧ bit (0xF : Word) 0 = true ∧
      (s.hostWrite.updQp 63 (fun x => { x with cls := bit (0xF : Word) 1, mac := (0xF : Word).extractLsb' 2 2 })).setupOk 63 = true) ∧
    (let s := queue (fun x => { x with st := .active, en := true, reading := some (0, 1) })
     (s.qp 63).reading = some (0, 1) ∧ (s.qp 63).st = .active ∧ (s.qp 63).en = true) ∧
    (let s := queue (fun x => { x with cqCfg := 0x11, irq := 1 })
     (s.qp 63).irqOn = true ∧ (s.qp 63).irq ≠ 0 ∧ s.past (s.qp 63).irqAt (1000 * fld (s.qp 63).cqCfg 22 13) = true) := by decide

theorem test_hyp_hostLinkResetAndSilence :
    (svc.isOut (siteSpine 0 0 7) = false ∧ svc.hif.perstn = true ∧ svc.pwr.phase.hostUp = true) ∧
    ({ svc with hif := { perstn := false } } : State).hif.perstn = false ∧
    (svc.updUnit (siteSpine 0 0 7) (fun u => { u with oos := true })).isOut (siteSpine 0 0 7) = true ∧
    (let s := atTb 1000000000 (queue (fun x => { x with st := .active, en := true }))
     s.anyActive = true ∧ s.hif.tHsil ≠ 0 ∧ s.past s.hif.lastW (1000000 * (10 * s.hif.tHsil.toNat)) = true) ∧
    (let s0 := queue (fun x => { x with st := .active, en := true })
     let s : State := { s0 with hif := { s0.hif with silTo := true } }
     s.pwr.phase = .service ∧ s.hif.silTo = true ∧ s.hif.silent = false ∧ s.anyActive = true ∧ s.hif.late = [] ∧ s.hif.rx = []) := by
  decide

/-- Queue pair 63 of class host with a command in front. -/
def host (d : Desc) : State := asking false d svc
/-- Queue pair 63 of class network. -/
def network (d : Desc) : State := asking true d svc

theorem test_hyp_queueCommandsAreChecked :
    (let d := desc 6 1 0 [3]
     (host d).nextCmd 63 = some d ∧ d.opc ≠ 7 ∧ d.opc = 6 ∧ 6 ≠ 1 ∧ d.net = opcNetwork 6 ∧ CanRun (host d) 63 6 .maint d ∧
      (host d).sessionRole 63 d.sess = some .maintenance) ∧
    (let d : Desc := { desc 6 1 0 [3] with net := true }
     (network d).nextCmd 63 = some d ∧ d.net ≠ opcNetwork 6) ∧
    (let d := desc 6 1 1 [3]
     (host d).nextCmd 63 = some d ∧ d.opc = 6 ∧ d.net = opcNetwork 6 ∧ d.shapeOk = false) ∧
    (let d : Desc := { desc 6 1 0 [3] with memErr := true }
     (host d).nextCmd 63 = some d ∧ d.opc = 6 ∧ d.net = opcNetwork 6 ∧ d.shapeOk = true ∧ d.memErr = true) ∧
    (let d : Desc := { desc 0x11 2 4 [0] with buf := none }
     (host d).nextCmd 63 = some d ∧ d.opc = 0x11 ∧ d.net = opcNetwork 0x11 ∧ d.shapeOk = true ∧ d.memErr = false ∧
      opcReads 0x11 = true ∧ d.buf = none) ∧
    (let d := desc 6 7 0 [3]
     (host d).nextCmd 63 = some d ∧ d.opc = 6 ∧ d.net = opcNetwork 6 ∧ d.shapeOk = true ∧ d.memErr = false ∧ d.buf.isSome = true ∧
      (host d).sessionCode 63 d.sess .maint ≠ 0 ∧ (host d).sessionRole 63 d.sess = none) := by decide

/-- A record numbered 3. -/
def rec3 : FRec :=
  { seq := 3, cal := 0, tb := 0, site := 0, level := 0, startup := false, recov := false, acked := false, bd := false, src := 0, code := 0,
    cell := none, related := 0, d6 := 0, d7 := 0 }

theorem test_hyp_hostCommandsAct :
    CanRun (network (desc 1 0 0 [])) 63 1 .none (desc 1 0 0 []) ∧
    (CanRun (host (desc 2 0 128 [0])) 63 2 .none (desc 2 0 128 [0]) ∧ (desc 2 0 128 [0]).p 0 = 0) ∧
    (let d := desc 3 0 0 [0, 0x80000000, 0, 0x80000000]
     let s := outMode 2 (host d)
     CanRun s 63 3 .none d ∧ d.named.all (fun o => ((s.touchSession 63 d.sess).outRec o).mode == 2) = true ∧
      (s.touchSession 63 d.sess).tb.chanOff.contains 63 = false ∧
      ({ s.tb with chanOff := [63] } : Timebase).chanOff.contains 63 = true) ∧
    (let d := desc 6 1 0 [3]
     let s : State := { host d with recs := [rec3] }
     CanRun s 63 6 .maint d ∧ (s.touchSession 63 d.sess).recs.any (fun r => r.seq == d.p 0) = true) ∧
    (let d := desc 9 0 0 [0xFFFF]
     CanRun (host d) 63 9 .none d ∧ fld (d.p 0) 31 16 = 0 ∧ ((host d).touchSession 63 d.sess).tb.utcSrc ≠ .ptp) ∧
    (CanRun (host (desc 5 1 0 [0])) 63 5 .maint (desc 5 1 0 [0]) ∧ (desc 5 1 0 [0]).len = 0) ∧
    (let d := desc 5 1 128 [0]
     CanRun (host d) 63 5 .maint d ∧ d.len % 128 = 0 ∧ d.len ≠ 0 ∧ ((host d).touchSession 63 d.sess).store.lost = false) ∧
    (let d := desc 0x30 0 60 [] (List.replicate 60 0)
     let s : State := { network d with net := { macs := [(0, { ({} : Mac) with en := true, link := true })] } }
     let u := s.touchSession 63 d.sess
     CanRun s 63 0x30 .none d ∧ 60 ≤ d.len ∧ d.len ≤ 1518 ∧ u.looksWilis ((d.buf.getD []).take d.len) = false ∧
      (u.mac (u.qp 63).mac.toNat).en = true ∧ (u.mac (u.qp 63).mac.toNat).link = true) ∧
    (let d := desc 0x31 0 64 []
     CanRun (network d) 63 0x31 .none d ∧ 64 ≤ d.len ∧ (((network d).touchSession 63 d.sess).qp 63).st = .active) :=
  ⟨by decide, by decide, by decide, by decide, by decide, by decide, by decide, by decide, by decide⟩

theorem test_hyp_timeSet :
    let d := desc 8 0 0 [0, 0x7B210800, 0xFFFF]
    let u := (host d).touchSession 63 d.sess
    CanRun (host d) 63 8 .none d ∧ (0xFFFF : Half) = (d.p 2).extractLsb' 0 16 ∧ fld (d.p 2) 31 16 = 0 ∧
      ((d.p 1).toNat * 2 ^ 32 + (d.p 0).toNat) % 64 = 0 ∧ ((d.p 1).toNat * 2 ^ 32 + (d.p 0).toNat) / 64 % 2 ^ 20 ≤ 999999 ∧
      dateExists ((d.p 1).toNat * 2 ^ 32 + (d.p 0).toNat) = true ∧ u.ownRef = true ∧ u.ptpLocked = false ∧ u.anyLoaded = false := by decide

theorem test_hyp_diagReads :
    (let d := desc 4 0 32 [1, 0]
     CanDiag (host d) 63 1 d ∧ d.len % 32 = 0) ∧
    (CanDiag (host (desc 4 0 32 [2, 0])) 63 2 (desc 4 0 32 [2, 0]) ∧ (desc 4 0 32 [2, 0]).p 1 = 0) ∧
    (CanDiag (host (desc 4 0 32 [3, 63])) 63 3 (desc 4 0 32 [3, 63]) ∧ ((desc 4 0 32 [3, 63]).p 1).toNat ≤ 63) ∧
    (let d := desc 4 0 32 [4, 1023]
     CanDiag (host d) 63 4 d ∧ (d.p 1).toNat ≤ 1023 ∧ (((host d).touchSession 63 d.sess).cell (d.p 1).toNat).st = .unloaded) ∧
    (let d := desc 4 0 32 [4, 1023]
     let s := cellIs 1023 .running (host d)
     CanDiag s 63 4 d ∧ ((s.touchSession 63 d.sess).cell (d.p 1).toNat).st ≠ .unloaded ∧
      ((s.touchSession 63 d.sess).cell (d.p 1).toNat).ver = some v0) ∧
    (let d := desc 4 0 32 [5, 0]
     CanDiag (host d) 63 5 d ∧ fld (d.p 1) 31 19 = 0 ∧ ((host d).touchSession 63 d.sess).siteRef (d.p 1) = some (0, 0)) ∧
    (let d := desc 4 0 32 [5, 0x1000]
     CanDiag (host d) 63 5 d ∧ fld (d.p 1) 31 19 = 0 ∧ ((host d).touchSession 63 d.sess).siteRef (d.p 1) = none) ∧
    (CanDiag (host (desc 4 0 32 [6, 0])) 63 6 (desc 4 0 32 [6, 0]) ∧ (desc 4 0 32 [6, 0]).p 1 = 0) ∧
    ((desc 4 0 1 []).len < [(0 : Byte), 0].length ∧ [(0 : Byte)].length ≤ (desc 4 0 1 []).len) :=
  ⟨by decide, by decide, by decide, by decide, by decide, by decide, by decide, by decide, by decide⟩

/-- SESS_OPEN of the maintenance role. -/
def openCmd : Desc := desc 0x10 0 8 [1] (List.replicate 8 0x41)
/-- It waits, the maintenance role in a state. -/
def opening (f : RoleS → RoleS) : State :=
  let s := host openCmd
  { s with store := { s.store with maint := f { s.store.maint with sess := none } } }

/-- The password check of the open runs, against a hash. -/
def checking (hash : BitVec 256) (fails : Nat) : State :=
  let s := host { openCmd with ran := true }
  { s with store := { s.store with
      maint := { s.store.maint with sess := none, chk := some 63, fails := fails, cred := ⟨0, 4096, hash, false⟩ } } }

theorem test_hyp_sessionsOpenAndClose :
    (let s := opening (fun r => { r with locked := true })
     let u := s.touchSession 63 openCmd.sess
     CanRun s 63 0x10 .none openCmd ∧ openCmd.roleOf = some .maintenance ∧ 8 ≤ openCmd.len ∧ openCmd.len ≤ 64 ∧
      u.store.lost = false ∧ (u.role .maintenance).shut u.now = true) ∧
    (let u := (opening (fun r => { r with sess := some (9, 5) })).touchSession 63 openCmd.sess
     (u.role .maintenance).shut u.now = false ∧ (u.role .maintenance).sess.isSome = true) ∧
    (let u := (opening id).touchSession 63 openCmd.sess
     CanRun (opening id) 63 0x10 .none openCmd ∧ (u.role .maintenance).shut u.now = false ∧ (u.role .maintenance).sess = none ∧
      (u.role .maintenance).chk = none) ∧
    (let s := opening (fun r => { r with locked := true })
     (s.role .maintenance).locked = true ∧ (s.role .maintenance).lockT = 0 ∧ (s.role .safetyEngineer).locked = false) ∧
    (let s : State := { svc with store := { svc.store with safety := { svc.store.safety with sess := some (2, 63) } },
                                 tb := { ({} : Timebase) with tb := 900000000000 } }
     (s.role .safetyEngineer).sess.isSome = true ∧ s.past (s.role .safetyEngineer).lastC 900000000000 = true) ∧
    (svc.role .safetyEngineer).sess.isSome = false ∧
    (let d := desc 0x13 2 0 []
     CanRun (host d) 63 0x13 .any d ∧ ((host d).touchSession 63 d.sess).sessionRole 63 d.sess = some .safetyEngineer) := by decide

theorem test_hyp_passwordChecks :
    let h := Config.pbkdf2 ((openCmd.buf.getD []).take openCmd.len) 0 4096
    ((checking h 0).role .maintenance).chk = some 63 ∧
    ((checking h 0).qp 63).cmds.find? (fun d => d.ran && d.opc == 0x10 && d.roleOf == some .maintenance) = some { openCmd with ran := true } ∧
    ((checking h 0).qp 63).st = .active ∧
    Config.pbkdf2 ((openCmd.buf.getD []).take openCmd.len) ((checking h 0).credOf .maintenance).salt
      ((checking h 0).credOf .maintenance).iters = ((checking h 0).credOf .maintenance).hash ∧
    ((checking h 0).role .maintenance).fails = 0 ∧ ((checking h 0).role .maintenance).level = 0 ∧
    Config.pbkdf2 ((openCmd.buf.getD []).take openCmd.len) ((checking (h + 1) 4).credOf .maintenance).salt
      ((checking (h + 1) 4).credOf .maintenance).iters ≠ ((checking (h + 1) 4).credOf .maintenance).hash ∧
    ((checking (h + 1) 4).role .maintenance).fails = 4 ∧ (checking (h + 1) 4).store.works = [] ∧ (checking (h + 1) 4).store.holder = none := by
  refine ⟨rfl, rfl, rfl, rfl, rfl, rfl, ?_, rfl, rfl, rfl⟩
  intro e
  have e2 : Config.pbkdf2 ((openCmd.buf.getD []).take openCmd.len) 0 4096 =
    Config.pbkdf2 ((openCmd.buf.getD []).take openCmd.len) 0 4096 + 1 := e
  have h0 : (0 : BitVec 256) = 1 := by
    have := congrArg (fun x => x - Config.pbkdf2 ((openCmd.buf.getD []).take openCmd.len) 0 4096) e2
    simp [BitVec.add_comm] at this
  exact absurd h0 (by decide)

/-- A valid bank 0 of one byte. -/
def bankOne : BankS :=
  let h : Header := { seq := 1, len := 1, bcrc := crc32cInit 1 [0xFF], rev := 0xB0, icrc := 0, resv := 0,
                      commit := 0xFFFFFFFE#32, revoke := 0xFFFFFFFF#32 }
  { hdr := { h with hcrc := h.crc 0xF10000 } }

theorem test_hyp_storePortAndCommit :
    (let d := desc 0x11 2 65536 [0x5F0000]
     let u := (host d).touchSession 63 d.sess
     CanRun (host d) 63 0x11 .safety d ∧ d.len ≤ 65536 ∧ (d.p 0).toNat + d.len ≤ imageMax ∧ u.store.lost = false ∧ u.store.works = []) ∧
    (let d := desc 0x12 2 0 []
     let u := (host d).touchSession 63 d.sess
     CanRun (host d) 63 0x12 .safety d ∧ u.store.lost = false ∧ u.committing = false) ∧
    (let d := desc 0x12 2 0 []
     let s0 := host d
     let s : State := { s0 with store := { s0.store with works := [⟨63, some d, [], 0, 0⟩] } }
     CanRun s 63 0x12 .safety d ∧ (s.touchSession 63 d.sess).committing = true) ∧
    (let s : State := { svc with ho := { step := .loading } }
     s.store.holder = none ∧ s.store.freeze = false ∧ s.pwr.fail = false ∧ s.store.lost = false ∧ s.pwr.phase.hostUp = true ∧
      s.chosen = some 0) ∧
    (let s : State := { powered (fun p => { p with holdOk := false }) with ho := { step := .loading } }
     s.chosen = some 0 ∧ s.pwr.holdOk = false) ∧
    (let s : State := { svc with store := { svc.store with holder := some 0 } }
     s.store.holder.isSome = true ∧ s.store.holder = some 0) ∧ svc.pwr.fail = false ∧
    (powered (fun p => { p with fail := true })).pwr.fail = true ∧ svc.store.lost = false ∧
    svc.store.bank0.failing false ≠ 0 ∧ bankOne.failing false = 0 := by decide

theorem test_hyp_builtInSelfTest :
    (let s := atTb 900000000000 { svc with clk := { pllLock := true, refOk := true } }
     let u : State := { s with bist := { s.bist with conds := true } }
     s.pwr.phase = .service ∧ s.bist.active = false ∧ s.runDue = true ∧ u.condsNow = true ∧ u.nextRegion = some 0 ∧
      s.ladle.vsys.queue = [] ∧ 15 ≤ s.ladle.vsys.level ∧ s.holds 0 (siteSpine 0 0 4) = false) ∧
    svc.runDue = false ∧
    (let s : State := { svc with bist := { active := true, sums := [(0, { ({} : BistSum) with incompl := 2 })] } }
     s.bist.active = true ∧ s.bist.paused = false ∧ (Tab.get {} s.bist.sums s.bist.region.toNat).incompl = 2 ∧
      s.past s.bist.runAt 60000000000 = false ∧ (atTb 60000000000 s).past s.bist.runAt 60000000000 = true) ∧
    ({ svc with bist := { active := true, ended := some [] } } : State).bist.ended = some [] ∧
    (∀ i ∈ ([] : List BistItem), i.code = 0) := by decide

theorem test_hyp_registerAccess :
    svc.sys.lock = false ∧ ({ svc with sys := { svc.sys with lock := true } } : State).sys.lock = true ∧
    (3 : BitVec 14).toNat % 4 ≠ 0 ∧ offsetInUse (0x3FFC : BitVec 14).toNat = false ∧
    (∀ i : Nat, i < 32 → svc.hostWrite.setNow.contains (32 * 0x028 + i) = false) ∧ (svc.cvu 7).was = none ∧
    7 ≤ fld (0x1C1 : Word) 10 6 ∧ fld (0x1C1 : Word) 3 1 ≤ 1 ∧ bit (0x1C1 : Word) 0 = true ∧
    7 ≤ fld (0x7C2 : Word) 10 6 ∧ fld (0x7C2 : Word) 3 1 ≤ 1 ∧ bit (0x7C2 : Word) 0 = false ∧ fld (0x181 : Word) 10 6 < 7 ∧
    (6 < 7 ∧ bit ({ svc with hif := { svc.hif with evt := 64 } } : State).hif.evt 6 = true ∧
      bit (0x400000 : Word) (16 + 6) = true ∧ bit (0 : Word) (16 + 6) = false) ∧
    readAccepted false (0x0001 : BitVec 14).toNat 4 = false := by decide

theorem test_hyp_stepRunsTheFrontCommand :
    svc.pending = [] ∧ svc.tb.lfRun = false ∧ svc.coreUp = true ∧ svc.pwr.phase = .service ∧ Quiet svc := by decide

/-- The invariant holds at reset. -/
theorem reset_inv : Inv State.reset := by
  refine ⟨by unfold PinsFollow; decide, fun _ e he => absurd he (by simp [State.reset]), fun _ h => absurd h (by decide)⟩

theorem test_hyp_everyStepKeepsTheInvariant : Inv State.reset ∧ step State.reset = .next State.reset.tick := ⟨reset_inv, rfl⟩

/-! ### Ill-formed commands: one for each check of `Instr.wf` -/

theorem test_wf_refuses :
    (Instr.qpEnable 3 0).wf = false ∧ (Instr.qpDisable 3 1).wf = false ∧ (Instr.cvuStart 0 0).wf = false ∧
    (Instr.cvuStop 0 1).wf = false ∧ (Instr.cvuRegisterWrite 0 0 5).wf = false ∧ (Instr.jmpr 0 4 4).wf = false ∧
    (Instr.loop 0 true 3 5 4).wf = false ∧ (Instr.loop 0 false 3 5 4).wf = false ∧ (Instr.loop 0 true 0 5 1).wf = false ∧
    (Instr.rdh 0 4 12).wf = false ∧ (Instr.wrh 0 4 10).wf = false ∧ (Instr.illegalInstruction 0 0x00170039).wf = false ∧
    (Instr.dmaReadCompletion 0 (.entries [])).wf = false ∧ (Instr.dmaReadCompletion 0 (.entries [[1]])).wf = false ∧
    (Instr.debugMemoryWrite 0 2 (.write 0) 1).wf = false ∧ (Instr.controlLaneReport 0 .a 0 []).wf = false ∧
    (Instr.reservedRangeRead false 0x0C00 8).wf = false ∧ (Instr.reservedRangeRead true 0x2000 2).wf = false ∧
    (Instr.msiXTableWrite 0x7FC 0).wf = false := by decide

theorem test_wf_accepts :
    (Instr.qpEnable 3 1).wf = true ∧ (Instr.cvuStart 0 0x1C1).wf = true ∧ (Instr.jmpr 0 4 5).wf = true ∧ (Instr.loop 0 true 0 3 3).wf = true ∧
    (Instr.illegalInstruction 0 0xFFFFFFFF).wf = true ∧ (Instr.msiXTableWrite 0xC0C 1).wf = true := by decide

/-- The opcode table gives no bits. -/
theorem test_decode_none : decodeTableWord 32 0x00170039 = none ∧ State.reset.withFetchWord 32 0x00170039 = State.reset := ⟨rfl, rfl⟩

/-! ### The spec's worked examples -/

/-- The encodings worked out after R253: each word is a legal instruction. -/
theorem test_worked_words :
    legalWord 0x000501E6 = true ∧ legalWord 0x0000282A = true ∧ legalWord 0x00C03070 = true ∧ legalWord 0x00010038 = true ∧
    legalWord 0x00170039 = true := by decide

/-- "A fault in a delay slot": EPC, the vector, ES.CAUSE, ES.BD and ES.SMODE. -/
theorem test_fault_in_slot :
    let x : Engine := { role := .single, cellM := true, pc := 0x2A44, ds := some ⟨0x2A40, some 0x2A58, true, 0, true⟩ }
    let y := (x.fault 2 0x1234 false).1
    y.epc = 0x2A40 ∧ y.pc = 0x40000480 ∧ y.eva = 0x1234 ∧ fld y.es 3 0 = 2 ∧ bit y.es 6 = true ∧ y.cellM = false := by decide

/-- "A fault in the shadow of MODE": SMODE 0, EPC the JMPR, SMP 2, SPM 1. -/
theorem test_fault_in_shadow :
    let x : Engine := { role := .single, pc := 0x40000348, pm := true, mp := 1, ds := some ⟨0x40000344, some 0x2A00, true, 2, false⟩ }
    let y := (x.fault 1 0x40 false).1
    y.epc = 0x40000344 ∧ bit y.es 6 = false ∧ fld y.es 8 7 = 2 ∧ bit y.es 9 = true := by decide

/-- "A worked wrap": the timer armed for 0x0002_49F0 does not fire at 0xFFFE_7960 and fires at its value. -/
theorem test_timer_wrap :
    let t : EtTimer := { ({} : EtTimer) with armed := true, value := 0x000249F0 }
    let s := fun (now : Dword) => ({ single (fun x => { x with et := [(1, t)] }) with tb := { ({} : Timebase) with tb := now } } : State)
    (match exec (.etFire 0 1) (s 0xFFFE7960) with | .next u => (u.eng 0).etStat | _ => 0xF) = 0 ∧
    (match exec (.etFire 0 1) (s 0x1000249F0) with | .next u => (u.eng 0).etStat | _ => 0) = 2 := by decide

/-- QP3 of "A credit count worked through". -/
def credit : State :=
  { busState with hif := { linkUp := true, qps := [(3, { ({} : Qp) with
      en := true, st := .active, sqCfg := 6, cqCfg := 4, sqp := 0xFFF8, sqc := 0xFFF8, cqp := 0xFFF5, cqc := 0xFFF0 })] } }

/-- The doorbell 0x0005 is accepted and four entries of a credit of 11 are fetched first; 0x0045 is an error of cause 1. -/
theorem test_credit_count :
    (match exec (.sqDoorbell 3 5) credit with | .next u => ((u.qp 3).sqp, (u.qp 3).st, (u.qp 3).fetchable (u.now + 4)) | _ => (0, .error, 0)) =
      (5, .active, 4) ∧
    (match exec (.sqDoorbell 3 0x45) credit with | .next u => ((u.qp 3).st, (u.qp 3).cause) | _ => (.active, 0)) = (.error, 1) ∧
    2 ^ (credit.qp 3).cqExp - (((credit.qp 3).cqp - (credit.qp 3).cqc).toNat + (credit.qp 3).out) = 11 := by decide

/-- R456: at the reset VF rate 16 tokens move every µs, 250 ticks. -/
theorem test_refill_rate : 250 * ({} : Bucket).rate = 16 * 64000 := by decide

/-! ### One step -/

/-- The front command runs with the queue's rest. -/
theorem test_step_front :
    (match step { single (fun x => x.setG 2 5) with pending := [.addI 0 1 2 0xFFFF, .wait 0] } with
     | .next t => ((t.eng 0).gr 1, (t.eng 0).pc, t.pending)
     | _ => (0, 0, [])) = (4, 0x40000004, [.wait 0]) := by decide

/-- An empty queue: TB advances by 4 ns in service. -/
theorem test_step_tick : (match step svc with | .next t => t.tb.tb | _ => 0) = 4 := by decide

/-- DIV of the most negative number by −1 (R253). -/
theorem test_div_corner :
    (match exec (.div 0 1 2 3) (single (fun x => (x.setG 2 0x80000000).setG 3 0xFFFFFFFF)) with
     | .next t => (t.eng 0).gr 1
     | _ => 0) = 0x80000000 := by decide

/-- A store of a byte writes that byte alone, and a load sign-extends it (R250). -/
theorem test_store_load :
    (match exec (.stb 0 1 2 0) (withPage (fun x => (x.setG 1 0x1FF).setG 2 5)) with
     | .next t => ((t.clu 0).byte 4, (t.clu 0).byte 5, (t.clu 0).byte 6,
         (match exec (.ldb 0 3 2 0) t with | .next u => (u.eng 0).gr 3 | _ => (0 : Word)))
     | _ => (1, 1, 1, (1 : Word))) = (0, 0xFF, 0, 0xFFFFFFFF) := by decide

end Sys2Proof.Tests
end

section
/-! The pair machine of R133: what a code of an input touches, the move of a pair, one equation for the evaluation in each of
the five states, and from these the rows of the rule's table. -/

namespace Sys2Proof.Laws

open Sys2Proof Sys2Proof.Machine Sys2Proof.Safety

/-! ### What fault records, codes and the fabric leave -/

@[simp] theorem record_ins (s : State) (a : RecArg) : (s.record a).ins = s.ins := by rw [record_frame s a]
@[simp] theorem record_pairs (s : State) (a : RecArg) : (s.record a).pairs = s.pairs := by rw [record_frame s a]

@[simp] theorem settle_inp (s : State) (n : Nat) : s.settle.inp n = s.inp n := by simp only [State.inp, settle_ins]
@[simp] theorem settle_pair (s : State) (p : Nat) : s.settle.pair p = s.pair p := by simp only [State.pair, settle_pairs]

@[simp] theorem clearIn_pairs (s : State) (n : Nat) : (s.clearIn n).pairs = s.pairs := rfl

theorem code_clearIn (s : State) (n : Nat) : ((s.clearIn n).inp n).code = 0 :=
  congrArg Input.code (inp_updInp_same s n (fun i => { i with code := 0, armClr := false }))

theorem when_pairs {s : State} {c : Bool} {f : State → State} (h : (f s).pairs = s.pairs) : (s.when c f).pairs = s.pairs := by
  cases c
  · rfl
  · exact h

theorem when_code {s : State} {c : Bool} {f : State → State} {n : Nat} (h : ((f s).inp n).code = (s.inp n).code) :
    ((s.when c f).inp n).code = (s.inp n).code := by
  cases c
  · rfl
  · exact h

/-- The cut of an input out of service leaves its code (R13, R143). -/
theorem cutInput_code (s : State) (n : Nat) : ((s.cutInput n).inp n).code = (s.inp n).code := by
  simp only [State.cutInput, inp_updInp_same]

@[simp] theorem raiseIn_pairs (s : State) (n code related : Nat) (d6 : Word) (quiet : Bool) :
    (s.raiseIn n code related d6 quiet).pairs = s.pairs := by
  unfold State.raiseIn
  split
  · rfl
  · extract_lets s1 _ s2 s3
    have h3 : s3.pairs = s2.pairs := when_pairs rfl
    exact (when_pairs (record_pairs s3 _)).trans h3

/-- A used input holds the code that is raised on it, whether new or held before (R143). -/
theorem code_raiseIn {s : State} {n code : Nat} (related : Nat) (d6 : Word) (quiet : Bool)
    (hk : (s.inRec n).kind ≠ 0) : ((s.raiseIn n code related d6 quiet).inp n).code = BitVec.ofNat 8 code := by
  unfold State.raiseIn
  split
  next held =>
    have same : (s.inp n).code.toNat = code := by simpa [hk] using held
    rw [← same, BitVec.ofNat_toNat, BitVec.setWidth_eq]
  next =>
    extract_lets s1 _ s2 s3
    have h1 : (s1.inp n).code = BitVec.ofNat 8 code := by simp only [s1, inp_updInp_same]
    have h3 : (s3.inp n).code = (s1.inp n).code := when_code (cutInput_code (s2.takeOut (siteInput n) 9) n)
    have h4 : ((s3.record { src := 1, code := code, site := siteInput n, related := related, d6 := d6 }).inp n).code =
        (s3.inp n).code := by simp only [State.inp, record_ins]
    exact (when_code h4).trans (h3.trans h1)

/-! ### The move of a pair -/

/-- Pair p goes to a state, with its timer and the channel that was first. -/
def pairTo (s : State) (p : Nat) (st : PairSt) (start : Option Nat) (first : AB) : State :=
  s.updPair p (fun r => { r with st := st, start := start, first := first })

@[simp] theorem pair_pairTo (s : State) (p : Nat) (st : PairSt) (start : Option Nat) (first : AB) :
    (pairTo s p st start first).pair p = { s.pair p with st := st, start := start, first := first } :=
  pair_updPair_same s p _

/-- Channel A or B of pair p is active (R119). -/
def chActive (s : State) (p : Nat) (x : AB) : Bool := s.active (2 * p + x.n)

@[simp] theorem chActive_a (s : State) (p : Nat) : chActive s p .a = s.active (2 * p) := rfl
@[simp] theorem chActive_b (s : State) (p : Nat) : chActive s p .b = s.active (2 * p + 1) := rfl

@[simp] theorem pairFault_st (s : State) (p code : Nat) : ((s.pairFault p code).pair p).st = .fault := by
  simp [State.pairFault, State.pair, State.updPair]

theorem pairFault_code {s : State} {p code : Nat} (hk : (s.inRec (2 * p)).kind ≠ 0) :
    ((s.pairFault p code).inp (2 * p)).code = BitVec.ofNat 8 code :=
  code_raiseIn (s := s.updPair p _) 0 0 false hk

/-! ### The evaluation in each state -/

section Evaluation

variable {s : State} {p : Nat}

theorem evalPair_of_off (hp : (s.inRec (2 * p)).pair = true) (hs : (s.pair p).st = .off) :
    s.evalPair p =
      if s.active (2 * p) && s.active (2 * p + 1) then pairTo s p .on none (s.pair p).first
      else if s.active (2 * p) then pairTo s p .waitOn (some s.now) .a
      else if s.active (2 * p + 1) then pairTo s p .waitOn (some s.now) .b
      else s := by
  simp only [State.evalPair, hp, hs]
  rfl

theorem evalPair_of_waitOn (hp : (s.inRec (2 * p)).pair = true) (hs : (s.pair p).st = .waitOn) (hd : s.discDue p = false) :
    s.evalPair p =
      if chActive s p (s.pair p).first && chActive s p (s.pair p).first.other then pairTo s p .on none (s.pair p).first
      else if chActive s p (s.pair p).first then s
      else if chActive s p (s.pair p).first.other then pairTo s p .waitOn (some s.now) (s.pair p).first.other
      else pairTo s p .off none (s.pair p).first := by
  simp only [State.evalPair, hp, hs, hd]
  cases (s.pair p).first <;> rfl

theorem evalPair_of_on (hp : (s.inRec (2 * p)).pair = true) (hs : (s.pair p).st = .on) :
    s.evalPair p =
      if s.active (2 * p) && s.active (2 * p + 1) then s
      else if s.active (2 * p) || s.active (2 * p + 1) then pairTo s p .waitOff (some s.now) (s.pair p).first
      else pairTo s p .off none (s.pair p).first := by
  simp only [State.evalPair, hp, hs]
  rfl

theorem evalPair_of_waitOff (hp : (s.inRec (2 * p)).pair = true) (hs : (s.pair p).st = .waitOff) (hd : s.discDue p = false) :
    s.evalPair p =
      if !s.active (2 * p) && !s.active (2 * p + 1) then pairTo s p .off none (s.pair p).first else s := by
  simp only [State.evalPair, hp, hs, hd]
  rfl

/-- DISC run out in WAIT_ON is DISC_ON, whatever the channels do in that tick (R133, R135). -/
theorem evalPair_of_waitOn_expired (hp : (s.inRec (2 * p)).pair = true) (hs : (s.pair p).st = .waitOn)
    (hd : s.discDue p = true) : s.evalPair p = s.pairFault p 1 := by
  simp only [State.evalPair, hp, hs, hd]
  rfl

/-- DISC run out in WAIT_OFF is DISC_OFF, whatever the channels do in that tick (R133, R135). -/
theorem evalPair_of_waitOff_expired (hp : (s.inRec (2 * p)).pair = true) (hs : (s.pair p).st = .waitOff)
    (hd : s.discDue p = true) : s.evalPair p = s.pairFault p 2 := by
  simp only [State.evalPair, hp, hs, hd]
  rfl

/-- The exit of FAULT: OFF, with the pair's code cleared (R133). -/
def faultExit (s : State) (p : Nat) : State :=
  (s.updPair p (fun r => { r with st := .off, start := none })).when (pairCode (s.inp (2 * p)).code)
    (fun t => t.clearIn (2 * p))

theorem evalPair_of_fault (hp : (s.inRec (2 * p)).pair = true) (hs : (s.pair p).st = .fault) :
    s.evalPair p =
      if s.safe3 (2 * p) && s.safe3 (2 * p + 1) && !ownForcing (s.inp (2 * p)).code && !ownForcing (s.inp (2 * p + 1)).code
      then faultExit s p else s := by
  simp only [State.evalPair, hp, hs]
  rfl

theorem faultExit_st (s : State) (p : Nat) : ((faultExit s p).pair p).st = .off := by
  have kept : (faultExit s p).pairs = (s.updPair p _).pairs := when_pairs (clearIn_pairs _ _)
  simp [State.pair, kept, State.updPair]

theorem faultExit_code (s : State) (p : Nat) : pairCode ((faultExit s p).inp (2 * p)).code = false := by
  unfold faultExit
  cases h : pairCode (s.inp (2 * p)).code with
  | false => exact h
  | true => exact congrArg pairCode (code_clearIn _ (2 * p))

theorem pairOn_iff (hp : (s.inRec (2 * p)).pair = true) : s.pairOn p = true ↔ (s.pair p).st = .on := by
  simp [State.pairOn, hp]

/-- The rows of R133's table for WAIT_ON before expiry, by the channel that became active first. -/
theorem evalPair_waitOn_rows (hp : (s.inRec (2 * p)).pair = true) (first : AB) (hs : (s.pair p).st = .waitOn)
    (hf : (s.pair p).first = first) (hd : s.discDue p = false) :
    (s.active (2 * p) = true → s.active (2 * p + 1) = true → ((s.evalPair p).pair p).st = .on) ∧
    (s.active (2 * p) = decide (first = .a) → s.active (2 * p + 1) = decide (first = .b) → s.evalPair p = s) ∧
    (s.active (2 * p) = decide (first = .b) → s.active (2 * p + 1) = decide (first = .a) →
      ((s.evalPair p).pair p).st = .waitOn ∧ ((s.evalPair p).pair p).start = some s.now ∧
      ((s.evalPair p).pair p).first = first.other) ∧
    (s.active (2 * p) = false → s.active (2 * p + 1) = false → ((s.evalPair p).pair p).st = .off) := by
  have moves := evalPair_of_waitOn hp hs hd
  rw [hf] at moves
  cases first with
  | a | b => refine ⟨?_, ?_, ?_, ?_⟩ <;> (intro ha hb; simp [moves, AB.other, ha, hb])

/-- DISC run out: the command of the timer ends in FAULT with the code that the evaluation raises (R133). -/
theorem discTimerExpiry_faults {p : Fin 64} {code : Nat} (hk : (s.inRec (2 * p)).kind ≠ 0) (hd : s.discDue p = true)
    (he : s.evalPair p = s.pairFault p code) :
    Gives (exec (.discTimerExpiry p) s) (fun t => (t.pair p).st = .fault ∧ (t.inp (2 * p)).code = BitVec.ofNat 8 code) := by
  have run : exec (.discTimerExpiry p) s = .next (s.pairFault p code).settle := by
    show execDiscTimerExpiry p s = _
    rw [execDiscTimerExpiry, if_pos hd, he, doneSettled]
  refine ⟨_, run, ?_, ?_⟩
  · rw [settle_pair, pairFault_st]
  · rw [settle_inp, pairFault_code hk]

end Evaluation

/-- Settles O31, state by state: the equation of the evaluation in that state, run on each row of R133's table. -/
theorem pairMachine : Obligations.PairMachine := by
  unfold Obligations.PairMachine
  refine ⟨fun p s hp => ⟨pairOn_iff hp, ?offBoth, ?offA, ?offB, ?offNone, ?waitOn, ?onOne, ?onNone, ?onBoth, ?waitOff, ?fault⟩,
    fun p s hp hk hd => ⟨?waitOnExpired, ?waitOffExpired⟩⟩
  case offBoth | offA | offB | offNone =>
    intro hs ha hb
    simp [evalPair_of_off hp hs, ha, hb]
  case waitOn => exact evalPair_waitOn_rows hp
  case onOne =>
    intro hs hab
    have other : s.active (2 * p) = !s.active (2 * p + 1) := Bool.eq_not.mpr hab
    simp [evalPair_of_on hp hs, other]
  case onNone | onBoth =>
    intro hs ha hb
    simp [evalPair_of_on hp hs, ha, hb]
  case waitOff =>
    intro hs hd
    rw [evalPair_of_waitOff hp hs hd]
    refine ⟨fun ha hb => ?_, fun hab => if_neg ?_⟩
    · simp [ha, hb]
    · rcases hab with h | h <;> simp [h]
  case fault =>
    intro hs
    rw [evalPair_of_fault hp hs]
    refine ⟨fun hsa hsb hca hcb => ?_, fun stay => if_neg ?_⟩
    · rw [if_pos (by simp [hsa, hsb, hca, hcb])]
      exact ⟨faultExit_st s p, faultExit_code s p⟩
    · rcases stay with h | h | h | h <;> simp [h]
  case waitOnExpired =>
    intro hs
    exact discTimerExpiry_faults hk hd (evalPair_of_waitOn_expired hp hs hd)
  case waitOffExpired =>
    intro hs
    exact discTimerExpiry_faults hk hd (evalPair_of_waitOff_expired hp hs hd)

end Sys2Proof.Laws
end

section
/-! Damuno's system instructions on a single engine: what raises the illegal-instruction exception (R243, R249, R250, R255), the
service call that ends a cycle (R270, R288) and the return from a handler (R271). -/

namespace Sys2Proof.Laws

open Sys2Proof Sys2Proof.Machine Sys2Proof.Safety

/-! ### Illegal instructions -/

section Illegal
variable {s : State} {e : Nat} {i : Ins} {k : State → State} {half : State → Bool → State} {o : Host.Outcome State Fault Refusal}

/-- A command that issues an instruction which is illegal at its place is the fault of cause 3 (R249, R263). -/
theorem issue_illegal_faulted (ho : o = doneSettled (s.issue e i k half)) (h : SingleReady s e)
    (hi : (s.eng e).illegal i = true) : o = .next (faulted s e 3 0).settle := by
  rw [ho, issue_single_illegal s e i k half h hi, doneSettled]

/-- A form, mode or state that the instruction itself refuses is illegal at every place (R250). -/
theorem illegal_bad {x : Engine} (hb : i.bad x = true) : x.illegal i = true := by simp [Engine.illegal, hb]

/-- A command whose instruction refuses the engine's mode or state is the fault of cause 3 (R250). -/
theorem issue_bad_faulted (ho : o = doneSettled (s.issue e i k half)) (h : SingleReady s e) (hb : i.bad (s.eng e) = true) :
    o = .next (faulted s e 3 0).settle :=
  issue_illegal_faulted ho h (illegal_bad hb)

end Illegal

/-- What is legal at a plain place is what its own form, mode and state allow (R255, R260). -/
theorem legal_plain {x : Engine} {i : Ins} (hp : PlainPlace x) (hb : i.bad x = false) : x.illegal i = false := by
  obtain ⟨hds, hpc, hnext⟩ := hp
  rw [Engine.illegal, hds, hpc, hnext, hb]
  simp

/-- Cell mode reads LC0, LC1, EID and CTAG only (R243). -/
theorem rdhAllowed_cell_eq_false {c : Fin 32} (h4 : c ≠ 4) (h7 : c ≠ 7) (h10 : c ≠ 10) (h11 : c ≠ 11) :
    rdhAllowed true c = false := by
  simp only [rdhAllowed, if_true, Bool.or_eq_false_iff, beq_eq_false_iff_ne]
  omega

/-- A word that the command may name is no legal instruction, and is issued as one that every state refuses (R249). -/
theorem exec_illegalInstruction {e : Fin 64} {w : Word} (s : State) (hw : (Instr.illegalInstruction e w).wf = true) :
    exec (.illegalInstruction e w) s = doneSettled (s.issue e { bad := fun _ => true, act := fun x => .step x }) := by
  have hl : legalWord w = false := by simpa [Instr.wf] using hw
  exact if_neg (by simp [hl])

/-- Each instruction of R255's list issues as one that is barred from delay slots. -/
theorem exec_slotBarred {c : Instr} {e : Fin 64} (s : State) (hc : slotBarred c = some e) :
    ∃ (i : Ins) (k : State → State) (half : State → Bool → State),
      exec c s = doneSettled (s.issue e i k half) ∧ i.barred = true := by
  unfold slotBarred at hc
  split at hc
  case h_20 => cases hc
  all_goals
    obtain rfl := Option.some.inj hc
    exact ⟨_, _, _, rfl, rfl⟩

/-- An entry leaves its address in EPC (R270). -/
@[simp] theorem enter_epc (x : Engine) (cause : Nat) (epc : Word) (bd fetch : Bool) (smp : BitVec 2) (eva : Word) (evn : Nat) :
    (x.enter cause epc bd fetch smp eva evn).epc = epc := by simp [Engine.enter]

/-- An entry goes on at the vector of its cause (R268, R270). -/
@[simp] theorem enter_pc (x : Engine) (cause : Nat) (epc : Word) (bd fetch : Bool) (smp : BitVec 2) (eva : Word) (evn : Nat) :
    (x.enter cause epc bd fetch smp eva evn).pc = vector cause := by simp [Engine.enter]

/-- A fault in a delay slot, outside a handler, enters with EPC the branch (R269). -/
theorem fault_slot {x : Engine} {d : DSlot} (cause : Nat) (eva : Word) (fetch : Bool) (hd : x.ds = some d) (hh : x.hnd = false) :
    (x.fault cause eva fetch).1.epc = d.branch ∧ (x.fault cause eva fetch).1.pc = vector cause := by
  simp [Engine.fault, hd, hh]

/-- Settles O11: in each state named the instruction refuses its mode, the word is none of R249's, or the slot bars it. -/
theorem privilegedAndIllegalFormsFault : Obligations.PrivilegedAndIllegalFormsFault := by
  refine ⟨fun e r c cell imm s h _ => ⟨fun hm => ⟨?wrh, ?mode, ?wait, ?rth, fun h4 h7 h10 h11 => ?rdh⟩,
    fun hm => ⟨?sys, fun hh => ?rthOutside, fun hv => ?waitMasked⟩⟩, fun e w s hw h => ?word, fun c e d s hc h hd => ⟨?slot, ?entry⟩⟩
  case wrh | mode | wait | rth | sys => exact issue_bad_faulted rfl h (by simp [hm])
  case rdh => exact issue_bad_faulted rfl h (by simp [hm, rdhAllowed_cell_eq_false h4 h7 h10 h11])
  case rthOutside => exact issue_bad_faulted rfl h (by simp [hh])
  case waitMasked => exact issue_bad_faulted rfl h (by simp [hv])
  case word => exact issue_bad_faulted (exec_illegalInstruction s hw) h rfl
  case slot =>
    obtain ⟨i, k, half, ho, hb⟩ := exec_slotBarred s hc
    exact issue_illegal_faulted ho h (illegal_slot _ i d hb hd)
  case entry => exact fault_slot 3 0 false hd

/-! ### A service call -/

@[simp] theorem fold_role (x : Engine) (n : Nat) (v : Word) : (x.fold n v).role = x.role := by
  unfold Engine.fold; split <;> rfl
@[simp] theorem fold_nreq (x : Engine) (n : Nat) (v : Word) : (x.fold n v).nreq = x.nreq := by
  unfold Engine.fold; split <;> rfl
@[simp] theorem fold_cell (x : Engine) (n : Nat) (v : Word) : (x.fold n v).cell = x.cell := by
  unfold Engine.fold; split <;> rfl
@[simp] theorem shadow_cell (x : Engine) (m : BitVec 2) : (x.shadow m).cell = x.cell := by
  unfold Engine.shadow; split <;> rfl
@[simp] theorem fetched_cell (x : Engine) (w : Word) : (x.fetched w).cell = x.cell := rfl
@[simp] theorem fetched_hnd (x : Engine) (w : Word) : (x.fetched w).hnd = x.hnd := rfl

/-- An engine that has made a service call: entered at the vector of cause 0, with EPC after the call and the shadow counted
from there (R266, R270). -/
def serviced (x : Engine) : Engine := (x.shadow x.mp).enter 0 (x.pc + 4) false false (x.shadow x.mp).mp 0 0

@[simp] theorem serviced_role (x : Engine) : (serviced x).role = x.role := by simp [serviced, Engine.enter]
@[simp] theorem serviced_nreq (x : Engine) : (serviced x).nreq = x.nreq := by simp [serviced, Engine.enter]
@[simp] theorem serviced_cell (x : Engine) : (serviced x).cell = x.cell := by simp [serviced, Engine.enter]

@[simp] theorem when_true (s : State) (f : State → State) : s.when true f = f s := rfl

@[simp] theorem eng_issued (s : State) (e : Nat) (f : Engine → Engine) :
    (issued s e f).eng e = f ((s.eng e).fetched (fetchWord s e)) := eng_updEng_same _ _ _

/-- A command that issues a service call outside a handler enters, and what follows the instruction is its service (R270). -/
theorem issue_service_entered {s : State} {e : Nat} {i : Ins} {k : State → State} {half : State → Bool → State}
    {o : Host.Outcome State Fault Refusal} (ho : o = doneSettled (s.issue e i k half)) (h : SingleReady s e)
    (hi : (s.eng e).illegal i = false) (ha : i.act (fetchedEng s e) = .service) (hh : (s.eng e).hnd = false) :
    o = doneSettled ((k (issued s e serviced)).overflow e) := by
  rw [ho, issue_single s e i k half h hi, ha]
  simp only [State.runAct, State.runService, eng_updEng_same, fetched_hnd, hh, updEng_updEng, Bool.false_eq_true, if_false]
  exact congrArg (fun t => doneSettled ((k t).overflow e)) (updEng_congr s e _ _ rfl)

/-- A single engine is its own head (R211). -/
theorem head_single {s : State} {e : Nat} (hr : (s.eng e).role = .single) : s.head e = e := if_neg (by simp [hr])

/-- The cell dispatched on a single engine is the one that runs. -/
theorem running_dispatched {s : State} {e c : Nat} (hr : (s.eng e).role = .single) (hc : (s.eng e).cell = some c) :
    s.running e = some c := by
  simp [State.running, head_single hr, hc]

/-- A change of an engine and its follower is, on a single engine, a change of that engine. -/
theorem updBoth_single {s : State} {e : Nat} {f : Engine → Engine} (hr : (f (s.eng e)).role = .single) :
    s.updBoth e f = s.updEng e f := by
  simp [State.updBoth, State.when, hr]

/-- Service 0 with no request unsealed ends the cycle of the cell dispatched: none is dispatched, and ET_WD stops (R288). -/
theorem serve_endsCycle {s : State} {e c : Nat} (hr : (s.eng e).role = .single) (hc : (s.eng e).cell = some c)
    (hn : (s.eng e).nreq = 0) : s.serve e 0 = s.updEng e (fun x => { x with cell := none, wd := 0 }) := by
  simp [State.serve, running_dispatched hr hc, head_single hr, hn, updBoth_single, hr]

/-! ### The return from a handler -/

/-- No shadow, no change (R265). -/
@[simp] theorem shadow_zero (x : Engine) : x.shadow 0 = x := if_pos rfl

@[simp] theorem fetched_mp (x : Engine) (w : Word) : (x.fetched w).mp = x.mp := rfl

/-- A command that issues a jump outside a mode shadow makes of the engine that has fetched it what the jump makes of it, and
issue goes on at its address. -/
theorem issue_jump_issued {s : State} {e : Nat} {i : Ins} {y : Engine → Engine} {pc : Engine → Word}
    {o : Host.Outcome State Fault Refusal} (ho : o = doneSettled (s.issue e i)) (h : SingleReady s e)
    (hi : (s.eng e).illegal i = false) (ha : i.act (fetchedEng s e) = .jump (y (fetchedEng s e)) (pc (fetchedEng s e)))
    (hmp : (s.eng e).mp = 0) (hr : (y (fetchedEng s e)).role = .single) (hn : (y (fetchedEng s e)).nreq ≤ 256) :
    o = doneSettled (issued s e (fun x => { y x with pc := pc x })) := by
  rw [ho, issue_single s e i id _ h hi, ha]
  simp only [State.runAct, id_eq, updEng_updEng, eng_updEng_same, fetched_mp, hmp, shadow_zero]
  rw [overflow_single _ e (by simp [hr]) (by simp [hn])]
  exact congrArg doneSettled (updEng_congr s e _ _ rfl)

/-- Settles O13: the entry of a call with its service after it, the registers that RTH restores, and its refusal in a shadow. -/
theorem serviceCallAndReturn : Obligations.ServiceCallAndReturn := by
  refine ⟨fun e c s h hp hm hh hc hn => ?call, fun e s h hp hrun hh => ?back, fun e s h hmp => ?shadow⟩
  case call =>
    have ⟨_, hr, _⟩ := h
    have enters := issue_service_entered (o := exec (.sys e 0) s)
      (k := fun t => t.when (s.running e).isSome (fun t => t.serve e 0)) rfl h (legal_plain hp (by simp [hm])) rfl hh
    have serves : (issued s e serviced).serve e 0 = (issued s e serviced).updEng e (fun x => { x with cell := none, wd := 0 }) :=
      serve_endsCycle (c := c) (by simp [hr]) (by simp [hc]) (by simp [hn])
    rw [enters, running_dispatched hr hc, Option.isSome_some, when_true, serves,
      overflow_single _ e (by simp [hr]) (by simp [hn]), issued, updEng_updEng]
    rfl
  case back =>
    have ⟨_, hr, _, _, _, _, hn, _⟩ := h
    obtain ⟨hm, hmp⟩ := hrun
    exact issue_jump_issued (y := Engine.returned) (pc := Engine.epc) rfl h (legal_plain hp (by simp [hm, hh, hmp])) rfl hmp hr hn
  case shadow => exact issue_bad_faulted rfl h (by simp only [bne_iff_ne.mpr hmp, Bool.or_true])

end Sys2Proof.Laws
end

section
/-! The queue pairs of the host interface: what events, records and silence leave of them, the doorbells of R394 with the
judgement at the end of the tick, the fetch of R395, the set-up of R396 and the end of a queue pair whose entry read fails. -/

namespace Sys2Proof.Laws

open Sys2Proof Sys2Proof.Machine Sys2Proof.Safety

/-! ### What leaves the queue pairs as they are -/

@[simp] theorem raise_qps (s : State) (v : Nat) : (s.raise v).hif.qps = s.hif.qps := by rw [raise_frame s v]
@[simp] theorem hifEvt_qps (s : State) (i : Nat) : (s.hifEvt i).hif.qps = s.hif.qps := by rw [hifEvt_frame s i]
@[simp] theorem record_qps (s : State) (a : RecArg) : (s.record a).hif.qps = s.hif.qps := by rw [record_frame s a]

theorem when_qps {s : State} {c : Bool} {f : State → State} (h : (f s).hif.qps = s.hif.qps) :
    (s.when c f).hif.qps = s.hif.qps := by
  cases c
  · rfl
  · exact h

/-- The begin and the end of host silence change no queue pair (R408). -/
@[simp] theorem checkSilence_qps (s : State) : s.checkSilence.hif.qps = s.hif.qps := by
  unfold State.checkSilence
  split
  · rfl
  · extract_lets cleared _ _ judged
    have hcleared : cleared.hif.qps = s.hif.qps := when_qps rfl
    have hjudged : judged.hif.qps = cleared.hif.qps := by
      simp only [judged]
      split
      · exact (record_qps _ _).trans (hifEvt_qps _ 2)
      · split
        · exact record_qps _ _
        · rfl
    refine Eq.trans (when_qps ?_) (hjudged.trans hcleared)
    exact raise_qps _ 0

@[simp] theorem qp_checkSilence (s : State) (q : Nat) : s.checkSilence.qp q = s.qp q := by simp only [State.qp, checkSilence_qps]
@[simp] theorem qp_settle (s : State) (q : Nat) : s.settle.qp q = s.qp q := by simp only [State.qp, settle_hif_qps]
@[simp] theorem qp_hifEvt (s : State) (i q : Nat) : (s.hifEvt i).qp q = s.qp q := by simp only [State.qp, hifEvt_qps]
@[simp] theorem qp_mark (s : State) (reg i q : Nat) : (s.mark reg i).qp q = s.qp q := rfl

/-! ### Doorbells (R394, R411) -/

section Doorbell
variable {q : Fin 64} {v : Word} {s : State}

/-- A doorbell to a queue pair that is not ACTIVE, or with high bits, sets DB_EVT alone. -/
theorem doorbells_refused (h : fld v 31 16 ≠ 0 ∨ (s.hostWrite.qp q).st ≠ .active) :
    exec (.sqDoorbell q v) s = .next (s.hostWrite.hifEvt 4).settle ∧
      exec (.cqDoorbell q v) s = .next (s.hostWrite.hifEvt 4).settle :=
  ⟨if_pos h, if_pos h⟩

/-- What an SQ doorbell to an ACTIVE queue pair does: its index is taken within the queue and an error of cause 1 beyond it. -/
theorem sqDoorbell_active (hv : fld v 31 16 = 0) (ha : (s.hostWrite.qp q).st = .active) :
    exec (.sqDoorbell q v) s =
      if (v.extractLsb' 0 16 - (s.hostWrite.qp q).sqc).toNat ≤ 2 ^ (s.hostWrite.qp q).sqExp then
        .next (s.hostWrite.updQp q (fun x => x.ring s.hostWrite.now (v.extractLsb' 0 16))).settle
      else .next (s.hostWrite.qpError q 1).checkSilence.settle :=
  if_neg (by simp [hv, ha])

/-- What a CQ doorbell to an ACTIVE queue pair does: its index is taken up to CQP and kept for the end of the tick beyond it. -/
theorem cqDoorbell_active (hv : fld v 31 16 = 0) (ha : (s.hostWrite.qp q).st = .active) :
    exec (.cqDoorbell q v) s =
      if (v.extractLsb' 0 16 - (s.hostWrite.qp q).cqc).toNat ≤ ((s.hostWrite.qp q).cqp - (s.hostWrite.qp q).cqc).toNat then
        .next (s.hostWrite.updQp q (fun x => { x with cqc := v.extractLsb' 0 16 })).settle
      else .next (State.settle { s.hostWrite with hif := { s.hostWrite.hif with
        late := s.hostWrite.hif.late ++ [(q.val, v.extractLsb' 0 16)] } }) :=
  if_neg (by simp [hv, ha])

end Doorbell

/-- What the end of the tick makes of a CQ doorbell that was beyond CQP: taken, or an error of cause 5 (R411, log entry 93). -/
theorem lateDoorbell_active {s : State} {q : Nat} (c : Half) (ha : (s.qp q).st = .active) :
    s.lateDoorbell q c =
      if (c - (s.qp q).cqc).toNat ≤ ((s.qp q).cqp - (s.qp q).cqc).toNat then s.updQp q (fun x => { x with cqc := c })
      else (s.qpError q 5).checkSilence :=
  if_neg (not_not.mpr ha)

/-- The index of a doorbell is hidden from the fetch decisions of its tick. -/
theorem sqpSeen_ring_now {x : Qp} {now : Nat} (p : Half) (h : x.sqpAt ≠ some now) : (x.ring now p).sqpSeen now = x.sqp := by
  simp [Qp.ring, Qp.sqpSeen, h]

/-- The index of a doorbell is seen by the fetch decisions of every other tick. -/
theorem sqpSeen_ring_later (x : Qp) {now later : Nat} (p : Half) (h : later ≠ now) : (x.ring now p).sqpSeen later = p :=
  if_neg (fun at_later => h (Option.some.inj at_later).symm)

/-- An aligned 32-bit read of the doorbells returns what BAR2 shows there (R389). -/
theorem exec_read_doorbells {a : Nat} (s : State) (h4 : a % 4 = 0) (h : a < 0x200) :
    exec (.reservedRangeRead true (BitVec.ofNat 14 a) 4) s = .next ({ s with rd := { lo := s.bar2Read a, hi := 0 } }).settle := by
  have ha : (BitVec.ofNat 14 a).toNat = a := by rw [BitVec.toNat_ofNat]; omega
  have accepted : readAccepted true a 4 = true := by simp [readAccepted, bar2InUse, h4, h]
  show execReservedRangeRead true (BitVec.ofNat 14 a) 4 s = _
  simp only [execReservedRangeRead, ha, accepted]
  rfl

/-- At 8q BAR2 shows SQP of queue pair q, the index that its SQ doorbell last accepted (R394, log entry 64). -/
theorem bar2Read_sqDoorbell (s : State) (q : Fin 64) : s.bar2Read (8 * q) = (s.qp q).sqp.zeroExtend 32 := by
  have hq : 8 * q.val < 0x200 := by omega
  have h0 : 8 * q.val % 8 = 0 := by omega
  have hd : 8 * q.val / 8 = q.val := by omega
  rw [State.bar2Read, if_pos hq, if_pos h0, hd]

/-- At 8q + 4 BAR2 shows CQC of queue pair q, the index that its CQ doorbell last accepted (R394, log entry 64). -/
theorem bar2Read_cqDoorbell (s : State) (q : Fin 64) : s.bar2Read (8 * q + 4) = (s.qp q).cqc.zeroExtend 32 := by
  have hq : 8 * q.val + 4 < 0x200 := by omega
  have h0 : ¬(8 * q.val + 4) % 8 = 0 := by omega
  have hd : (8 * q.val + 4) / 8 = q.val := by omega
  rw [State.bar2Read, if_pos hq, if_neg h0, hd]

/-! ### Fetches (R393, R395) -/

theorem fetchable_le_four (x : Qp) (now : Nat) : x.fetchable now ≤ 4 := min_le_left _ _

theorem fetchable_le_posted (x : Qp) (now : Nat) : x.fetchable now ≤ (x.sqpSeen now - x.sqc).toNat :=
  (min_le_right _ _).trans (min_le_left _ _)

theorem fetchable_le_credit (x : Qp) (now : Nat) : x.fetchable now ≤ 2 ^ x.cqExp - ((x.cqp - x.cqc).toNat + x.out) :=
  (min_le_right _ _).trans (min_le_right _ _)

/-! ### The set-up (R396) -/

/-- A queue pair as a valid set-up enables it: ACTIVE with every index 0. -/
def qpEnabled (x : Qp) : Qp := { x with en := true, st := .active, sqp := 0, sqc := 0, cqp := 0, cqc := 0, irq := 0 }

/-- A queue pair with the class and the MAC that a write of QP_CTL names. -/
def qpControlled (v : Word) (x : Qp) : Qp := { x with cls := bit v 1, mac := v.extractLsb' 2 2 }

/-- EN written in DISABLED: the class and the MAC are taken, and the set-up is judged with them. -/
theorem writeQpCtl_disabled {s : State} {q : Nat} {v : Word} (hd : (s.qp q).st = .disabled) (hv : bit v 0 = true) :
    s.writeQpCtl q v = ((s.updQp q (qpControlled v)).enableQp q).checkSilence := by
  simp only [State.writeQpCtl, if_pos hd, hv, when_true]
  rfl

theorem qp_enableQp {s : State} {q : Nat} (h : s.setupOk q = true) : (s.enableQp q).qp q = qpEnabled (s.qp q) := by
  rw [State.enableQp, if_pos h, qp_updQp_same]
  rfl

/-- EN written in DISABLED over a valid set-up enables the queue pair, of the class and MAC written. -/
theorem qp_writeQpCtl {s : State} {q : Nat} {v : Word} (hd : (s.qp q).st = .disabled) (hv : bit v 0 = true)
    (hok : (s.updQp q (qpControlled v)).setupOk q = true) : (s.writeQpCtl q v).qp q = qpEnabled (qpControlled v (s.qp q)) := by
  rw [writeQpCtl_disabled hd hv, qp_checkSilence, qp_enableQp hok, qp_updQp_same]

/-! ### A failed entry read (R396) -/

/-- A queue pair in ERROR with its cause, left at an instant. -/
def qpFailed (cause now : Nat) (x : Qp) : Qp :=
  { x with st := .error, cause := BitVec.ofNat 3 cause, errEvt := true, leftAt := some now }

/-- A queue pair whose EN is set stays in ERROR whatever OUT is. -/
theorem drained_qpFailed {x : Qp} (cause now : Nat) (he : x.en = true) : (qpFailed cause now x).drained = qpFailed cause now x :=
  if_neg (by simp [qpFailed, he])

theorem qp_qpError {s : State} {q : Nat} (cause : Nat) (he : (s.qp q).en = true) :
    (s.qpError q cause).qp q = qpFailed cause s.now (s.qp q) := by
  rw [State.qpError, qp_hifEvt, qp_mark, qp_updQp_same]
  exact drained_qpFailed cause s.now he

/-- A queue pair whose outstanding read of n entries is given up. -/
def qpReadDropped (n : Nat) (x : Qp) : Qp := { x with reading := none, out := x.out - n }

theorem entryReadFailed_active {s : State} {q n : Nat} {f : Half} (hr : (s.qp q).reading = some (f, n))
    (ha : (s.qp q).st = .active) :
    s.entryReadFailed q = (((s.updQp q (qpReadDropped n)).qpError q 2).updQp q Qp.drained).checkSilence := by
  have active : (((s.updQp q (qpReadDropped n)).qp q).st == .active) = true := by simp [qpReadDropped, ha]
  have fails : (s.updQp q (qpReadDropped n)).when (((s.updQp q (qpReadDropped n)).qp q).st == .active) (fun t => t.qpError q 2) =
      (s.updQp q (qpReadDropped n)).qpError q 2 := if_pos active
  rw [← fails]
  simp only [State.entryReadFailed, hr]
  rfl

/-- A failed entry read leaves an enabled queue pair in ERROR with cause 2, and its entries never arrive. -/
theorem qp_entryReadFailed {s : State} {q n : Nat} {f : Half} (hr : (s.qp q).reading = some (f, n))
    (ha : (s.qp q).st = .active) (he : (s.qp q).en = true) :
    (s.entryReadFailed q).qp q = qpFailed 2 s.now (qpReadDropped n (s.qp q)) := by
  have dropped : (s.updQp q (qpReadDropped n)).qp q = qpReadDropped n (s.qp q) := qp_updQp_same s q _
  have en : (qpReadDropped n (s.qp q)).en = true := he
  rw [entryReadFailed_active hr ha, qp_checkSilence, qp_updQp_same, qp_qpError 2 (by rw [dropped, en]), dropped]
  exact drained_qpFailed 2 s.now en

/-- Settles O49: each clause from the rule of its operation above; what arrives by DMA is what its command's definition says. -/
theorem queuePairsRun : Obligations.QueuePairsRun := by
  unfold Obligations.QueuePairsRun
  refine ⟨?doorbells, ?late, ?ring, ?reads, ?fetch, ?bounds, ?enable, ?disable, ?arrivals, ?readFailed, ?interrupt⟩
  case doorbells =>
    rintro q v s u rfl
    refine ⟨doorbells_refused, fun hv ha => ?_⟩
    rw [sqDoorbell_active hv ha, cqDoorbell_active hv ha]
    exact ⟨fun h => if_pos h, fun h => if_neg h.not_ge, fun h => if_pos h, fun h => if_neg h.not_ge⟩
  case late =>
    intro q c s ha
    rw [lateDoorbell_active c ha]
    exact ⟨fun h => if_pos h, fun h => if_neg h.not_ge⟩
  case ring => exact fun x now p => ⟨rfl, sqpSeen_ring_now p, fun _ h => sqpSeen_ring_later x p h⟩
  case reads =>
    intro q s
    rw [exec_read_doorbells s (by omega) (by omega), exec_read_doorbells s (by omega) (by omega), bar2Read_sqDoorbell,
      bar2Read_cqDoorbell]
    exact ⟨rfl, rfl⟩
  case fetch =>
    rintro q n s u hbus hpath hreads rfl rfl
    exact ⟨fun turn => if_pos ⟨hbus, hpath, hreads, turn⟩, fun other => if_neg fun ⟨_, _, _, turn⟩ => other turn⟩
  case bounds => exact fun x now => ⟨fetchable_le_four x now, fetchable_le_posted x now, fetchable_le_credit x now⟩
  case enable =>
    intro q v s hd hv hok
    refine ⟨_, rfl, ?_⟩
    beta_reduce
    rw [qp_settle, qp_writeQpCtl hd hv hok]
    exact ⟨rfl, rfl, rfl, rfl, rfl, rfl, rfl⟩
  case disable => exact fun q v s => rfl
  case arrivals => exact fun q l b s => ⟨rfl, rfl, rfl, rfl, rfl, rfl, rfl⟩
  case readFailed =>
    intro q n f s hr ha he
    rw [qp_entryReadFailed hr ha he]
    exact ⟨rfl, rfl, rfl⟩
  case interrupt =>
    intro q s hon hirq hdue
    exact if_pos (by simp [hon, hirq, us, hdue])

end Sys2Proof.Laws
end

section
/-! The invariant of the module (R27, R72, R149, R195, R196, R202): what each pass of the fabric after a command keeps and makes
of it, and from these that every command, and every tick of the clock, leaves a state in which it holds. -/

namespace Sys2Proof.Laws

open Sys2Proof Sys2Proof.Machine Sys2Proof.Safety

/-! ### The pins -/

/-- What the pins' pass can change: the pins, their events and the W1C bits set. -/
theorem pins_frame (s : State) : s.pins =
    { s with sys := { s.sys with safeOk := s.pins.sys.safeOk, faultn := s.pins.sys.faultn, evt := s.pins.sys.evt }
             setNow := s.pins.setNow } := by
  unfold State.pins State.when
  extract_lets ok f src t u
  have hu : u = { s with sys := { s.sys with safeOk := u.sys.safeOk, faultn := u.sys.faultn, evt := u.sys.evt }, setNow := u.setNow } := by
    simp only [u]
    split <;> rfl
  clear_value u
  split
  · rw [hu]
    rfl
  · exact hu

theorem pins_safeOk (s : State) : s.pins.sys.safeOk = s.safeOkNow := by
  unfold State.pins State.when
  extract_lets ok f src t u
  have hu : u.sys.safeOk = s.safeOkNow := by
    simp only [u]
    split <;> rfl
  split
  · exact hu
  · exact hu

theorem pins_faultn (s : State) : s.pins.sys.faultn = s.faultnNow := by
  unfold State.pins State.when
  extract_lets ok f src t u
  have hu : u.sys.faultn = s.faultnNow := by
    simp only [u]
    split <;> rfl
  split
  · exact hu
  · exact hu

@[simp] theorem pins_safeOkNow (s : State) : s.pins.safeOkNow = s.safeOkNow := by rw [pins_frame s]; rfl
@[simp] theorem pins_faultnNow (s : State) : s.pins.faultnNow = s.faultnNow := by rw [pins_frame s]; rfl
@[simp] theorem pins_coreUp (s : State) : s.pins.coreUp = s.coreUp := by rw [pins_frame s]; rfl
@[simp] theorem pins_outs (s : State) : s.pins.outs = s.outs := by rw [pins_frame s]
@[simp] theorem pins_pwr (s : State) : s.pins.pwr = s.pwr := by rw [pins_frame s]
@[simp] theorem pins_lid (s : State) : s.pins.lid = s.lid := by rw [pins_frame s]
@[simp] theorem pins_lowestHit (s : State) (m : BitVec 512) : s.pins.lowestHit m = s.lowestHit m := by rw [pins_frame s]; rfl
@[simp] theorem pins_mayConduct (s : State) (o : Nat) (x : AB) : mayConduct s.pins o x = mayConduct s o x := by
  rw [pins_frame s]; rfl

/-- After their pass the pins show their conditions. -/
theorem pinsFollow_pins (s : State) : PinsFollow s.pins :=
  ⟨by rw [pins_safeOk, pins_safeOkNow], by rw [pins_faultn, pins_faultnNow]⟩

/-- Every settled state ends in the pass of the pins. -/
theorem settle_eq_pins (s : State) : ∃ u : State, s.settle = u.pins := by
  unfold State.settle
  split
  · exact ⟨_, rfl⟩
  · exact ⟨_, rfl⟩

theorem pinsFollow_settle (s : State) : PinsFollow s.settle := by
  obtain ⟨u, h⟩ := settle_eq_pins s
  rw [h]
  exact pinsFollow_pins u

/-- Settles O58: a command ends with the state it found or with a settled one, and a settled state's pins show their conditions. -/
theorem everyCommandRuns : Obligations.EveryCommandRuns := by
  intro c s
  rcases exec_ends c s with h | ⟨u, h⟩
  · exact ⟨s, h, .inl rfl⟩
  · exact ⟨u.settle, h, .inr (pinsFollow_settle u)⟩

/-! ### The elements -/

theorem when_frame_outs_ladle {s t : State} {c : Bool} {f : State → State} (h : ∀ u : State, ∃ l, f u = { u with ladle := l })
    (ht : ∃ l, t = { s with ladle := l }) : ∃ l, t.when c f = { s with ladle := l } := by
  obtain ⟨l, rfl⟩ := ht
  cases c with
  | false => exact ⟨l, rfl⟩
  | true => exact h { s with ladle := l }

theorem setBucket_ladle (s : State) (d : Nat) (b : Bucket) : ∃ l, s.setBucket d b = { s with ladle := l } := by
  unfold State.setBucket
  split
  · exact ⟨_, rfl⟩
  · exact ⟨_, rfl⟩

/-- What gives an element's tokens back changes the Ladle alone. -/
theorem ladleOff_ladle (s : State) (o : Nat) (x : AB) (w : Element) : ∃ l, s.ladleOff o x w = { s with ladle := l } := by
  unfold State.ladleOff
  extract_lets site d t
  refine when_frame_outs_ladle (fun u => setBucket_ladle u _ _) ?_
  exact when_frame_outs_ladle (fun u => setBucket_ladle u _ _) ⟨s.ladle, rfl⟩

theorem foldl_ladle {β : Type} (f : State → β → State) (h : ∀ s b, ∃ l, f s b = { s with ladle := l }) (bs : List β) :
    ∀ s : State, ∃ l, bs.foldl f s = { s with ladle := l } := by
  induction bs with
  | nil => exact fun s => ⟨s.ladle, rfl⟩
  | cons b bs ih =>
    intro s
    obtain ⟨l, hl⟩ := h s b
    rw [List.foldl_cons, hl]
    exact ih { s with ladle := l }

/-- What the pass of the elements changes: the outputs, each by its own commands, and the Ladle. -/
theorem obeyAll_frame (s : State) :
    ∃ l, s.obeyAll = { s with outs := Tab.mapKV {} (fun o r => s.obeyOut o r) s.outs, ladle := l } := by
  unfold State.obeyAll
  extract_lets t
  refine foldl_ladle _ (fun u e => ?_) s.outs t
  extract_lets v
  refine when_frame_outs_ladle (fun u => ladleOff_ladle u _ _ _) ?_
  exact when_frame_outs_ladle (fun u => ladleOff_ladle u _ _ _) ⟨u.ladle, rfl⟩

theorem obeyAll_outs (s : State) : s.obeyAll.outs = Tab.mapKV {} (fun o r => s.obeyOut o r) s.outs := by
  obtain ⟨l, h⟩ := obeyAll_frame s
  rw [h]

@[simp] theorem obeyAll_coreUp (s : State) : s.obeyAll.coreUp = s.coreUp := by
  obtain ⟨l, h⟩ := obeyAll_frame s
  rw [h]; rfl
@[simp] theorem obeyAll_pwr (s : State) : s.obeyAll.pwr = s.pwr := by
  obtain ⟨l, h⟩ := obeyAll_frame s
  rw [h]
@[simp] theorem obeyAll_lid (s : State) : s.obeyAll.lid = s.lid := by
  obtain ⟨l, h⟩ := obeyAll_frame s
  rw [h]
@[simp] theorem obeyAll_lowestHit (s : State) (m : BitVec 512) : s.obeyAll.lowestHit m = s.lowestHit m := by
  obtain ⟨l, h⟩ := obeyAll_frame s
  rw [h]; rfl
@[simp] theorem obeyAll_mayConduct (s : State) (o : Nat) (x : AB) : mayConduct s.obeyAll o x = mayConduct s o x := by
  obtain ⟨l, h⟩ := obeyAll_frame s
  rw [h]; rfl

theorem obey_on {e : Element} {cmd : Bool} {now : Nat} (h : (e.obey cmd now).on = true) : cmd = true := by
  cases cmd with
  | true => rfl
  | false => simp [Element.obey] at h

/-- An element of an output that follows its commands conducts only where they let it stay on. -/
theorem obeyOut_on {s : State} {o : Nat} {r : Output} {x : AB} (h : ((s.obeyOut o r).el x).on = true) : s.stays o x = true := by
  cases x with
  | a => exact obey_on h
  | b => exact obey_on h

/-- With the core side up, what lets an element conduct is everything that `mayConduct` asks of it. -/
theorem mayConduct_of_stays {s : State} {o : Nat} {x : AB} (hc : s.coreUp = true) (h : s.stays o x = true) :
    mayConduct s o x = true := by
  have ⟨lost, halt⟩ : s.sys.coreLost = false ∧ s.pwr.phase ≠ .debugHalt := by simpa [State.coreUp] using hc
  have cmd : s.elCmd o x = true := by simpa [State.stays, hc] using h
  simp only [State.elCmd, State.drives, lost, halt, Bool.and_eq_true, Bool.or_eq_true, decide_false, Bool.false_eq_true,
    or_false] at cmd
  obtain ⟨⟨phase, drives⟩, mode⟩ := cmd
  simp only [mayConduct, phase, drives, Bool.and_self, Bool.true_and]
  split at mode
  next _ safety =>
    simp only [State.safetyCmd, Bool.and_eq_true] at mode
    simp only [safety, mode, Bool.and_self]
  next _ standard => simp only [standard]
  next => cases mode

/-- After the pass of the elements none conducts that may not. -/
theorem elementsObey_obeyAll (s : State) : ElementsObey s.obeyAll := by
  intro hc e he x hx
  rw [obeyAll_coreUp] at hc
  rw [obeyAll_outs, Tab.mapKV, List.mem_filter, List.mem_map] at he
  obtain ⟨⟨r, _, rfl⟩, _⟩ := he
  rw [obeyAll_mayConduct]
  exact mayConduct_of_stays hc (obeyOut_on hx)

theorem elementsObey_pins {s : State} (h : ElementsObey s) : ElementsObey s.pins := by
  intro hc e he x hx
  rw [pins_coreUp] at hc
  rw [pins_outs] at he
  rw [pins_mayConduct]
  exact h hc e he x hx

/-! ### The latches -/

/-- The latches of a state with the core side up and in service, as `LatchesHold` asks of them. -/
def LatchesSound (s : State) : Prop :=
  (∀ e ∈ s.lid.maskA, bit s.lid.armA e.1 = true → s.lowestHit e.2 = none) ∧
  (∀ e ∈ s.lid.maskB, bit s.lid.armB e.1 = true → s.lowestHit e.2 = none) ∧
  s.lid.armA &&& s.lid.relA = 0 ∧ s.lid.armB &&& s.lid.relB = 0 ∧
  (s.lid.faultA = true → s.lid.armA = 0 ∧ s.lid.relA = 0) ∧ (s.lid.faultB = true → s.lid.armB = 0 ∧ s.lid.relB = 0)

/-- The service state of every unit but the two Lids is as before. -/
def OnlyLidsGo (s t : State) : Prop := ∀ site, site ≠ siteSpine 0 3 0 → site ≠ siteSpine 0 3 1 → t.isOut site = s.isOut site

theorem onlyLidsGo_of_units {s t : State} (h : t.units = s.units) : OnlyLidsGo s t := fun site _ _ => by
  rw [State.isOut, State.unit, h]; rfl

/-- A mask's hits go by the inputs, the cell trip terms and the imported terms, none of which the fabric changes. -/
theorem lowestHit_fabric {s t : State} (h : Fabric s t) (hu : OnlyLidsGo s t) (m : BitVec 512) : t.lowestHit m = s.lowestHit m := by
  have inputOut : ∀ n, t.inputOut n = s.inputOut n := by
    intro n
    have away : ∀ site, 640 ≤ site → t.isOut site = s.isOut site := fun site hs =>
      hu site (by simp only [siteSpine]; omega) (by simp only [siteSpine]; omega)
    simp only [State.inputOut, State.halfOut]
    rw [away _ (by simp only [siteInput, siteBank]; omega), away _ (by simp only [siteBank]; omega),
      away _ (by simp only [siteSpine]; omega), away _ (by simp only [siteSpine]; omega)]
  have term : t.term = s.term := by
    funext i
    have qual : t.qual = s.qual := by
      funext n
      simp only [State.qual, inputOut]
      rw [h]
      rfl
    simp only [State.term, State.active, qual]
    rw [h]
    rfl
  simp only [State.lowestHit, term]

/-- What the Lids' pass does once the latches have moved: it only takes latches down, and a Lid that becomes faulty has none up. -/
structure LatchesFall (s t : State) : Prop where
  fabric : Fabric s t
  units : OnlyLidsGo s t
  armA : ∀ i, bit t.lid.armA i = true → bit s.lid.armA i = true
  relA : ∀ i, bit t.lid.relA i = true → bit s.lid.relA i = true
  armB : ∀ i, bit t.lid.armB i = true → bit s.lid.armB i = true
  relB : ∀ i, bit t.lid.relB i = true → bit s.lid.relB i = true
  faultA : t.lid.faultA = true → s.lid.faultA = true ∨ (t.lid.armA = 0 ∧ t.lid.relA = 0)
  faultB : t.lid.faultB = true → s.lid.faultB = true ∨ (t.lid.armB = 0 ∧ t.lid.relB = 0)

theorem eq_zero_of_bits {w : Nat} {a b : BitVec w} (h : ∀ i, bit b i = true → bit a i = true) (ha : a = 0) : b = 0 := by
  refine BitVec.eq_of_getLsbD_eq fun i _ => ?_
  have := h i
  subst ha
  simp only [bit] at this
  cases hb : b.getLsbD i with
  | false => simp
  | true => simpa using this hb

theorem LatchesFall.trans {s t u : State} (h : LatchesFall s t) (k : LatchesFall t u) : LatchesFall s u where
  fabric := h.fabric.trans k.fabric
  units := fun site ha hb => (k.units site ha hb).trans (h.units site ha hb)
  armA := fun i hi => h.armA i (k.armA i hi)
  relA := fun i hi => h.relA i (k.relA i hi)
  armB := fun i hi => h.armB i (k.armB i hi)
  relB := fun i hi => h.relB i (k.relB i hi)
  faultA := fun hu => (k.faultA hu).elim
    (fun ht => (h.faultA ht).imp_right fun ⟨a, r⟩ => ⟨eq_zero_of_bits k.armA a, eq_zero_of_bits k.relA r⟩) .inr
  faultB := fun hu => (k.faultB hu).elim
    (fun ht => (h.faultB ht).imp_right fun ⟨a, r⟩ => ⟨eq_zero_of_bits k.armB a, eq_zero_of_bits k.relB r⟩) .inr

/-- What leaves the latches, the faults of the Lids and the units as they are. -/
theorem LatchesFall.same {s t : State} (hf : Fabric s t) (hu : t.units = s.units) (haA : t.lid.armA = s.lid.armA)
    (hrA : t.lid.relA = s.lid.relA) (haB : t.lid.armB = s.lid.armB) (hrB : t.lid.relB = s.lid.relB)
    (hfA : t.lid.faultA = s.lid.faultA) (hfB : t.lid.faultB = s.lid.faultB) : LatchesFall s t where
  fabric := hf
  units := onlyLidsGo_of_units hu
  armA := fun _ hi => haA ▸ hi
  relA := fun _ hi => hrA ▸ hi
  armB := fun _ hi => haB ▸ hi
  relB := fun _ hi => hrB ▸ hi
  faultA := fun h => .inl (hfA ▸ h)
  faultB := fun h => .inl (hfB ▸ h)

theorem LatchesFall.refl (s : State) : LatchesFall s s := .same (Fabric.refl s) rfl rfl rfl rfl rfl rfl rfl

theorem LatchesFall.when {s t : State} {c : Bool} {f : State → State} (h : LatchesFall s t) (hf : LatchesFall t (f t)) :
    LatchesFall s (t.when c f) := by
  cases c with
  | false => exact h
  | true => exact h.trans hf

theorem latchesFall_foldl {β : Type} (f : State → β → State) (h : ∀ s b, LatchesFall s (f s b)) (bs : List β) :
    ∀ s, LatchesFall s (bs.foldl f s) := by
  induction bs with
  | nil => exact LatchesFall.refl
  | cons b bs ih => exact fun s => (h s b).trans (ih (f s b))

theorem latchesFall_noteTrip (s : State) (o : Nat) (a d : Bool) : LatchesFall s (s.noteTrip o a d) :=
  .same (fabric_noteTrip s o a d) rfl rfl rfl rfl rfl rfl rfl

theorem latchesFall_record (s : State) (a : RecArg) : LatchesFall s (s.record a) := by
  have frame := record_frame s a
  refine .same (fabric_record s a) ?_ ?_ ?_ ?_ ?_ ?_ ?_ <;> rw [frame]

/-- The trips noted of the outputs in a vector take no latch up. -/
theorem latchesFall_noteTrips (s : State) (v : BitVec 64) (a : Nat → Bool) :
    LatchesFall s (if v = 0 then s else s.each 64 (fun s o => s.when (bit v o) (fun s => s.noteTrip o (a o) false))) := by
  split
  · exact .refl s
  · exact latchesFall_foldl _ (fun t o => (LatchesFall.refl t).when (latchesFall_noteTrip t o (a o) false)) _ s

/-- A unit of the Lids that goes out of service is no other unit. -/
theorem onlyLidsGo_takeOut (s : State) (x : AB) (code : Nat) : OnlyLidsGo s (s.takeOut (siteSpine 0 3 x.n) code) := by
  intro site ha hb
  have away : site ≠ siteSpine 0 3 x.n := by
    cases x with
    | a => exact ha
    | b => exact hb
  simp only [State.isOut, State.unit, State.takeOut, State.updUnit, get_upd, if_neg away]

theorem not_bit_zero {w i : Nat} (h : bit (0 : BitVec w) i = true) : False := by simp [bit] at h

/-- The latches of a Lid that becomes faulty are down (R202). -/
theorem latchesFall_lidFaulty (s : State) (x : AB) : LatchesFall s (s.lidFaulty x) := by
  unfold State.lidFaulty
  extract_lets left noted lid src gone
  have h1 : LatchesFall s noted := latchesFall_noteTrips s left _
  have h2 : LatchesFall noted gone := by
    have units : OnlyLidsGo noted gone := onlyLidsGo_takeOut _ x 3
    cases x with
    | a => exact ⟨rfl, units, fun _ h => (not_bit_zero h).elim, fun _ h => (not_bit_zero h).elim, fun _ h => h, fun _ h => h,
        fun _ => .inr ⟨rfl, rfl⟩, .inl⟩
    | b => exact ⟨rfl, units, fun _ h => h, fun _ h => h, fun _ h => (not_bit_zero h).elim, fun _ h => (not_bit_zero h).elim,
        .inl, fun _ => .inr ⟨rfl, rfl⟩⟩
  exact (h1.trans h2).trans (latchesFall_record gone _)

theorem bit_setBit_false {w : Nat} {v : BitVec w} {o i : Nat} (h : bit (setBit v o false) i = true) : bit v i = true := by
  simp only [bit, setBit, Bool.false_eq_true, if_false, BitVec.getLsbD_and, Bool.and_eq_true] at h
  exact h.1

/-- Both latches of an output on which the Lids disagree go down (R201). -/
theorem latchesFall_disagree (s : State) (o : Nat) : LatchesFall s (s.disagree o) := by
  unfold State.disagree
  extract_lets was count recent lid src down noted recorded
  have h1 : LatchesFall s down := ⟨rfl, onlyLidsGo_of_units rfl, fun _ => bit_setBit_false, fun _ => bit_setBit_false,
    fun _ => bit_setBit_false, fun _ => bit_setBit_false, .inl, .inl⟩
  have h2 : LatchesFall s noted := h1.when (latchesFall_noteTrip down o true true)
  have h3 : LatchesFall s recorded := h2.trans (latchesFall_record noted _)
  exact h3.when ((latchesFall_lidFaulty recorded .a).trans (latchesFall_lidFaulty _ .b))

/-- Latches that only fall stay sound. -/
theorem LatchesSound.fall {s t : State} (h : LatchesSound s) (k : LatchesFall s t) : LatchesSound t := by
  obtain ⟨hitA, hitB, onceA, onceB, lidA, lidB⟩ := h
  have maskA : t.lid.maskA = s.lid.maskA := congrArg (·.lid.maskA) k.fabric
  have maskB : t.lid.maskB = s.lid.maskB := congrArg (·.lid.maskB) k.fabric
  have disjoint : ∀ {a b a' b' : BitVec 64}, a &&& b = 0 → (∀ i, bit a' i = true → bit a i = true) →
      (∀ i, bit b' i = true → bit b i = true) → a' &&& b' = 0 := fun once ha hb =>
    eq_zero_of_bits (fun i h => by
      simp only [bit, BitVec.getLsbD_and, Bool.and_eq_true] at h ⊢
      exact ⟨ha i h.1, hb i h.2⟩) once
  refine ⟨fun e he hb => ?_, fun e he hb => ?_, disjoint onceA k.armA k.relA, disjoint onceB k.armB k.relB, fun hf => ?_,
    fun hf => ?_⟩
  · rw [lowestHit_fabric k.fabric k.units]
    exact hitA e (maskA ▸ he) (k.armA e.1 hb)
  · rw [lowestHit_fabric k.fabric k.units]
    exact hitB e (maskB ▸ he) (k.armB e.1 hb)
  · rcases k.faultA hf with hs | down
    · exact ⟨eq_zero_of_bits k.armA (lidA hs).1, eq_zero_of_bits k.relA (lidA hs).2⟩
    · exact down
  · rcases k.faultB hf with hs | down
    · exact ⟨eq_zero_of_bits k.armB (lidB hs).1, eq_zero_of_bits k.relB (lidB hs).2⟩
    · exact down

theorem bit_setBit_true {w : Nat} (v : BitVec w) (o i : Nat) : bit (setBit v o true) i = (bit v i || (decide (i = o) && decide (i < w))) := by
  simp only [bit, setBit, if_true, BitVec.getLsbD_or, BitVec.getLsbD_ofNat, Nat.testBit_two_pow]
  rcases Decidable.em (i = o) with rfl | h
  · simp
  · simp [h, Ne.symm h]

/-- A masked output with an active term is among the hits. -/
theorem bit_hits {s : State} {masks : Tab (BitVec 512)} {e : Nat × BitVec 512} (he : e ∈ masks)
    (hit : (s.lowestHit e.2).isSome = true) (h64 : e.1 < 64) : bit (s.hits masks) e.1 = true := by
  unfold State.hits
  generalize (0 : BitVec 64) = acc
  induction masks generalizing acc with
  | nil => cases he
  | cons m masks ih =>
    have keeps : ∀ (l : Tab (BitVec 512)) (v : BitVec 64), bit v e.1 = true →
        bit (l.foldl (fun acc e => if (s.lowestHit e.2).isSome then setBit acc e.1 true else acc) v) e.1 = true := by
      intro l
      induction l with
      | nil => exact fun v h => h
      | cons k l ihl =>
        intro v h
        refine ihl _ ?_
        beta_reduce
        split
        · rw [bit_setBit_true, h, Bool.true_or]
        · exact h
    rcases List.mem_cons.mp he with rfl | he
    · refine keeps masks _ ?_
      beta_reduce
      rw [if_pos hit, bit_setBit_true]
      simp [h64]
    · exact ih he _

/-- No ARMED latch of the next tick has an active masked term (R195). -/
theorem nextArmed_no_hit {s : State} {masks : Tab (BitVec 512)} {arm rel permit : BitVec 64} {e : Nat × BitVec 512} (he : e ∈ masks)
    (h : bit (nextArmed arm rel permit (s.hits masks)) e.1 = true) : s.lowestHit e.2 = none := by
  by_contra some
  have hit : (s.lowestHit e.2).isSome = true := Option.isSome_iff_ne_none.mpr some
  simp only [bit, nextArmed, BitVec.getLsbD_and, BitVec.getLsbD_not, Bool.and_eq_true, Bool.not_eq_true', decide_eq_true_eq] at h
  obtain ⟨_, h64, off⟩ := h
  have on := bit_hits he hit h64
  simp only [bit] at on
  rw [on] at off
  cases off

/-- A latch of the next tick that is ARMED is not RELEASABLE (R195). -/
theorem nextArmed_disjoint (arm rel permit hit : BitVec 64) : nextArmed arm rel permit hit &&& nextReleasable arm permit hit = 0 := by
  refine BitVec.eq_of_getLsbD_eq fun i _ => ?_
  simp only [nextArmed, nextReleasable, BitVec.getLsbD_and, BitVec.getLsbD_or, BitVec.getLsbD_not]
  cases arm.getLsbD i <;> cases permit.getLsbD i <;> simp

/-- The state of the Lids' pass once the latches have moved, before trips are noted and the Lids compared. -/
def lidMoved (s : State) : State :=
  let l := s.lid
  let one := l.faultA || l.faultB
  let armA := if l.faultA then 0 else nextArmed l.armA (l.relA &&& ~~~l.relNowA) (s.permitVec .a) (s.hits l.maskA)
  let relA := if one then 0 else nextReleasable l.armA (s.permitVec .a) (s.hits l.maskA)
  let armB := if l.faultB then 0 else nextArmed l.armB (l.relB &&& ~~~l.relNowB) (s.permitVec .b) (s.hits l.maskB)
  let relB := if one then 0 else nextReleasable l.armB (s.permitVec .b) (s.hits l.maskB)
  { s with lid := { l with
    armA := armA, relA := relA, armB := armB, relB := relB, relNowA := (l.relNowA ||| (relA &&& ~~~l.relA)) &&& relA,
    relNowB := (l.relNowB ||| (relB &&& ~~~l.relB)) &&& relB } }

theorem latchesFall_lidTick (s : State) : LatchesFall (lidMoved s) s.lidTick := by
  unfold State.lidTick
  extract_lets permA permB hitA hitB l one armA relA armB relB leftA leftB moved noted dis
  have h : LatchesFall (lidMoved s) noted := latchesFall_noteTrips (lidMoved s) (leftA ||| leftB) (fun o => bit leftA o)
  split
  · exact h
  · exact h.trans (latchesFall_foldl _ (fun t o => (LatchesFall.refl t).when (latchesFall_disagree t o)) _ noted)

/-- The latches as they have moved are sound (R195, R196, R202). -/
theorem latchesSound_lidMoved (s : State) : LatchesSound (lidMoved s) := by
  have hits : ∀ m, (lidMoved s).lowestHit m = s.lowestHit m := fun m => rfl
  refine ⟨fun e he hb => ?_, fun e he hb => ?_, ?_, ?_, fun hf => ?_, fun hf => ?_⟩
  · rw [hits]
    simp only [lidMoved] at he hb
    split at hb
    · simp [bit] at hb
    · exact nextArmed_no_hit he hb
  · rw [hits]
    simp only [lidMoved] at he hb
    split at hb
    · simp [bit] at hb
    · exact nextArmed_no_hit he hb
  · simp only [lidMoved]
    cases s.lid.faultA <;> cases s.lid.faultB <;> simp [nextArmed_disjoint]
  · simp only [lidMoved]
    cases s.lid.faultA <;> cases s.lid.faultB <;> simp [nextArmed_disjoint]
  · replace hf : s.lid.faultA = true := hf
    simp [lidMoved, hf]
  · replace hf : s.lid.faultB = true := hf
    simp [lidMoved, hf]

theorem latchesSound_lidTick (s : State) : LatchesSound s.lidTick := (latchesSound_lidMoved s).fall (latchesFall_lidTick s)

theorem latchesSound_obeyAll {s : State} (h : LatchesSound s) : LatchesSound s.obeyAll := by
  unfold LatchesSound
  simp only [obeyAll_lid, obeyAll_lowestHit]
  exact h

theorem latchesSound_pins {s : State} (h : LatchesSound s) : LatchesSound s.pins := by
  unfold LatchesSound
  simp only [pins_lid, pins_lowestHit]
  exact h

/-! ### Commands and ticks -/

/-- The invariant holds of every settled state: the Lids, the elements and the pins have each passed, in this order. -/
theorem inv_settle (s : State) : Inv s.settle := by
  refine ⟨pinsFollow_settle s, ?_⟩
  unfold State.settle
  split
  · exact ⟨elementsObey_pins (elementsObey_obeyAll _), fun _ _ => latchesSound_pins (latchesSound_obeyAll (latchesSound_lidTick s))⟩
  · next down =>
    refine ⟨elementsObey_pins (elementsObey_obeyAll _), fun hc hp => absurd ?_ down⟩
    rw [pins_coreUp, obeyAll_coreUp] at hc
    rw [pins_pwr, obeyAll_pwr] at hp
    simp [hc, hp]

/-- The invariant does not see the queue of commands. -/
theorem inv_pending {s : State} (h : Inv s) (p : List Instr) : Inv { s with pending := p } := h

/-- A command takes the invariant to the state it leaves. -/
theorem inv_exec {s t : State} {c : Instr} (h : Inv s) (ht : exec c s = .next t) : Inv t := by
  rcases exec_ends c s with same | ⟨u, settled⟩
  · obtain rfl := Host.Outcome.next.inj (same.symm.trans ht)
    exact h
  · obtain rfl := Host.Outcome.next.inj (settled.symm.trans ht)
    exact inv_settle u

/-- What a tick of either clock changes of a state: times, counters and what holds within one tick only. -/
def Ticked (s t : State) : Prop :=
  ∃ tb engs setNow ladle store,
    t = { s with tb := tb, engs := engs, setNow := setNow, ladle := ladle, store := store, lid := s.lid.nextTick } ∧
      engs.any (fun e => e.2.dbg) = s.engs.any (fun e => e.2.dbg)

theorem tick_dbg (x : Engine) : x.tick.dbg = x.dbg := by
  unfold Engine.tick
  split <;> rfl

/-- The engines that debug holds are the same after a tick. -/
theorem any_dbg_mapVal_tick (t : Tab Engine) : (Tab.mapVal {} Engine.tick t).any (fun e => e.2.dbg) = t.any (fun e => e.2.dbg) := by
  have listed : ∀ x : Engine, (decide (x ≠ {}) && x.dbg) = x.dbg := by
    intro x
    cases hx : x.dbg with
    | false => exact Bool.and_false _
    | true => exact (Bool.and_true _).trans (decide_eq_true fun h => by rw [h] at hx; cases hx)
  rw [Tab.mapVal, List.any_filter, List.any_map]
  simp only [Function.comp_def, listed, tick_dbg]

theorem ticked_fabricTick (s : State) : Ticked s s.fabricTick :=
  ⟨_, _, _, _, _, by unfold State.fabricTick; rfl, any_dbg_mapVal_tick s.engs⟩

theorem ticked_lfTick (s : State) : Ticked s s.lfTick := ⟨_, _, _, _, _, by unfold State.lfTick; rfl, rfl⟩

/-- A tick leaves all that the invariant speaks of. -/
theorem inv_ticked {s t : State} (k : Ticked s t) (h : Inv s) : Inv t := by
  obtain ⟨tb, engs, setNow, ladle, store, rfl, dbg⟩ := k
  obtain ⟨⟨safeOk, faultn⟩, elements, latches⟩ := h
  refine ⟨⟨safeOk, faultn.trans ?_⟩, fun hc e he x hx => ?_, latches⟩
  · simp only [State.faultnNow, State.reduced, dbg]
    rfl
  · refine Eq.trans ?_ (elements hc e he x hx)
    cases x <;> rfl

theorem inv_land {s : State} (h : Inv s) : Inv s.land := by
  unfold State.land
  split
  · exact h
  · exact inv_settle _

theorem inv_hostTick {s : State} (h : Inv s) : Inv s.hostTick := by
  unfold State.hostTick
  split
  · exact h
  · exact inv_settle _

theorem inv_reportRun {s : State} (h : Inv s) : Inv s.reportRun := by
  unfold State.reportRun
  split
  · exact h
  · exact inv_settle _

theorem inv_lockedLoad {s : State} (h : Inv s) : Inv s.lockedLoad := by
  unfold State.lockedLoad
  split
  · exact inv_settle _
  · exact h

theorem inv_seeCleared {s : State} (h : Inv s) : Inv s.seeCleared := by
  unfold State.seeCleared
  split
  · exact h
  · exact inv_settle _

/-- What the end of a tick judges leaves the state as it was or settled. -/
theorem inv_tickEnd {s : State} (h : Inv s) : Inv s.tickEnd := inv_lockedLoad (inv_reportRun (inv_hostTick (inv_land h)))

theorem inv_tick {s : State} (h : Inv s) : Inv s.tick := by
  unfold State.tick
  split
  · exact inv_seeCleared (inv_ticked (ticked_lfTick s) h)
  · split
    · exact inv_seeCleared (inv_ticked (ticked_fabricTick _) (inv_tickEnd h))
    · exact h

/-- Settles O60: a step is a tick, which keeps the invariant pass by pass, or the front command, which leaves the state as it was or a
settled one. -/
theorem everyStepKeepsTheInvariant : Obligations.EveryStepKeepsTheInvariant := by
  intro s t h ht
  unfold step at ht
  split at ht
  · obtain rfl := Host.Outcome.next.inj ht
    exact inv_tick h
  · next c rest _ => exact inv_exec (inv_pending h rest) ht

end Sys2Proof.Laws
end

section
/-! Damuno's register instructions (R250 to R253): what a command that issues an instruction comes to on a single engine, and the
value that each one writes. -/

namespace Sys2Proof.Laws

open Sys2Proof Sys2Proof.Machine Sys2Proof.Safety

@[simp] theorem settle_eng (s : State) (e : Nat) : s.settle.eng e = s.eng e := by simp only [State.eng, settle_engs]

@[simp] theorem setG_role (x : Engine) (n : Nat) (v : Word) : (x.setG n v).role = x.role := by unfold Engine.setG; split <;> rfl
@[simp] theorem setG_nreq (x : Engine) (n : Nat) (v : Word) : (x.setG n v).nreq = x.nreq := by unfold Engine.setG; split <;> rfl
@[simp] theorem setG_qbad (x : Engine) (n : Nat) (v : Word) : (x.setG n v).qbad = x.qbad := by unfold Engine.setG; split <;> rfl
@[simp] theorem setK_role (x : Engine) (n : Nat) (v : Bool) : (x.setK n v).role = x.role := by unfold Engine.setK; split <;> rfl
@[simp] theorem setK_nreq (x : Engine) (n : Nat) (v : Bool) : (x.setK n v).nreq = x.nreq := by unfold Engine.setK; split <;> rfl
@[simp] theorem setHandler_role (x : Engine) (n : Nat) (v : Word) : (x.setHandler n v).role = x.role := by
  unfold Engine.setHandler; split <;> rfl
@[simp] theorem setHandler_nreq (x : Engine) (n : Nat) (v : Word) : (x.setHandler n v).nreq = x.nreq := by
  unfold Engine.setHandler; split <;> rfl

@[simp] theorem fetchedEng_role (s : State) (e : Nat) : (fetchedEng s e).role = (s.eng e).role := rfl
@[simp] theorem fetchedEng_nreq (s : State) (e : Nat) : (fetchedEng s e).nreq = (s.eng e).nreq := rfl
@[simp] theorem fetchedEng_cellM (s : State) (e : Nat) : (fetchedEng s e).cellM = (s.eng e).cellM := rfl
@[simp] theorem fetchedEng_pc (s : State) (e : Nat) : (fetchedEng s e).pc = (s.eng e).pc := rfl
@[simp] theorem fetchedEng_ds (s : State) (e : Nat) : (fetchedEng s e).ds = (s.eng e).ds := rfl
@[simp] theorem fetchedEng_mp (s : State) (e : Nat) : (fetchedEng s e).mp = (s.eng e).mp := rfl
@[simp] theorem fetchedEng_gr (s : State) (e r : Nat) : (fetchedEng s e).gr r = (s.eng e).gr r := rfl
@[simp] theorem fetchedEng_kr (s : State) (e r : Nat) : (fetchedEng s e).kr r = (s.eng e).kr r := rfl
@[simp] theorem fetchedEng_dze (s : State) (e : Nat) : (fetchedEng s e).dze = (s.eng e).dze := rfl

theorem singleReady_role {s : State} {e : Nat} (h : SingleReady s e) : (s.eng e).role = .single := by
  obtain ⟨_, role, _⟩ := h
  exact role

theorem singleReady_nreq {s : State} {e : Nat} (h : SingleReady s e) : (s.eng e).nreq ≤ 256 := by
  obtain ⟨_, _, _, _, _, _, nreq, _⟩ := h
  exact nreq

section Issued
variable {s : State} {e : Nat} {i : Ins} {o : Host.Outcome State Fault Refusal}

/-- A command whose instruction changes the engine's registers alone writes them and retires. -/
theorem issue_step_issued {y : Engine → Engine} (ho : o = doneSettled (s.issue e i)) (h : SingleReady s e)
    (hi : (s.eng e).illegal i = false) (ha : i.act (fetchedEng s e) = .step (y (fetchedEng s e)))
    (hr : (y (fetchedEng s e)).role = .single) (hn : (y (fetchedEng s e)).nreq ≤ 256) :
    o = .next (issued s e (fun x => (y x).retire x)).settle := by
  rw [ho, issue_single_step s e i h hi _ ha hr hn, doneSettled, issued]
  exact congrArg (fun t => Host.Outcome.next (State.settle t)) (updEng_congr s e _ _ rfl)

/-- A command whose instruction raises a fault of its own takes it. -/
theorem issue_trap_faulted {cause : Nat} {eva : Word} {k : State → State} {half : State → Bool → State}
    (ho : o = doneSettled (s.issue e i k half)) (h : SingleReady s e) (hi : (s.eng e).illegal i = false)
    (ha : i.act (fetchedEng s e) = .trap cause eva) : o = .next (faulted s e cause eva).settle := by
  rw [ho, issue_single s e i k half h hi, ha, doneSettled]
  simp only [State.runAct, State.ranFault, faulted, eng_updEng_same, updEng_updEng, fetchedEng]

end Issued

/-- An instruction with no bar, no branch and no refusal of its own is legal everywhere. -/
theorem legal_act (x : Engine) (f : Engine → Act) : x.illegal { act := f } = false := by simp [Engine.illegal]

theorem ofBool_decide (p : Prop) [Decidable p] : ofBool (decide p) = if p then 1 else 0 := by simp [ofBool]

/-- An immediate keeps its sign in 32 bits. -/
theorem toInt_sextI (imm : Half) : (sextI imm).toInt = imm.toInt := BitVec.toInt_signExtend_of_le (by decide)

theorem ite_slt {α : Type} (a b : Word) (x y : α) : (if a.slt b then x else y) = if a.toInt < b.toInt then x else y := by
  simp only [BitVec.slt, decide_eq_true_eq]

/-- Each instruction that writes a general register issues as one that writes the value of the rule's table (R250, R251). -/
theorem exec_gResult {c : Instr} {e : Fin 64} {rd : Fin 32} {f : Engine → Word} (s : State) (hc : gResult c = some (e, rd, f)) :
    exec c s = doneSettled (s.issue e (insG rd f)) := by
  unfold gResult at hc
  split at hc
  case h_31 => cases hc
  case h_10 | h_11 | h_26 =>
    obtain ⟨rfl, rfl, rfl⟩ : _ ∧ _ ∧ _ := by simpa only [Option.some.injEq, Prod.mk.injEq] using hc
    exact congrArg (fun f => doneSettled (s.issue _ (insG _ f))) (funext fun x => ofBool_decide _)
  case h_15 | h_16 =>
    obtain ⟨rfl, rfl, rfl⟩ : _ ∧ _ ∧ _ := by simpa only [Option.some.injEq, Prod.mk.injEq] using hc
    exact congrArg (fun f => doneSettled (s.issue _ (insG _ f))) (funext fun x => ite_slt _ _ _ _)
  case h_25 rd rs imm =>
    obtain ⟨rfl, rfl, rfl⟩ : _ ∧ _ ∧ _ := by simpa only [Option.some.injEq, Prod.mk.injEq] using hc
    simp only [← toInt_sextI]
    exact congrArg (fun f => doneSettled (s.issue _ (insG _ f))) (funext fun x => ofBool_decide _)
  all_goals
    obtain ⟨rfl, rfl, rfl⟩ : _ ∧ _ ∧ _ := by simpa only [Option.some.injEq, Prod.mk.injEq] using hc
    rfl

theorem legal_insG (x : Engine) (rd : Nat) (f : Engine → Word) : x.illegal (insG rd f) = false := legal_act x _
theorem legal_insK (x : Engine) (rd : Nat) (f : Engine → Bool) : x.illegal (insK rd f) = false := legal_act x _

theorem not_slt (a b : Word) : (!a.slt b) = decide (b.toInt ≤ a.toInt) := by simp [BitVec.slt, ← decide_not]
theorem not_ult (a b : Word) : (!a.ult b) = decide (b.toNat ≤ a.toNat) := by simp [BitVec.ult, ← decide_not]
theorem bne_decide (a b : Word) : (a != b) = decide (a ≠ b) := by rw [decide_not]; rfl

/-- Each instruction that writes a boolean register issues as one that writes the value of the rule's table (R252). -/
theorem exec_kResult {c : Instr} {e : Fin 64} {rd : Fin 32} {f : Engine → Bool} (s : State) (hc : kResult c = some (e, rd, f)) :
    exec c s = doneSettled (s.issue e (insK rd f)) := by
  unfold kResult at hc
  split at hc
  case h_16 => cases hc
  all_goals obtain ⟨rfl, rfl, rfl⟩ : _ ∧ _ ∧ _ := by simpa only [Option.some.injEq, Prod.mk.injEq] using hc
  case h_3 => exact congrArg (fun f => doneSettled (s.issue _ (insK _ f))) (funext fun x => rfl)
  case h_9 | h_15 => exact congrArg (fun f => doneSettled (s.issue _ (insK _ f))) (funext fun x => bne_decide _ _)
  case h_12 => exact congrArg (fun f => doneSettled (s.issue _ (insK _ f))) (funext fun x => not_slt _ _)
  case h_13 => exact congrArg (fun f => doneSettled (s.issue _ (insK _ f))) (funext fun x => not_ult _ _)
  all_goals rfl

/-- What a division computes: the rule's quotient or remainder, and by 0 the rule's value (R253). -/
def dividing (f : Word → Word → Word) (z : Word → Word) (a b : Word) : Word := if b = 0 then z a else f a b

/-- Each division issues as one of the rule's table (R251, R253). -/
theorem exec_quotient {c : Instr} {e : Fin 64} {rd rs rt : Fin 32} {f : Word → Word → Word} {z : Word → Word} (s : State)
    (hc : quotient c = some (e, rd, rs, rt, f, z)) : exec c s = doneSettled (s.issue e (divide rd rs rt (dividing f z))) := by
  unfold quotient at hc
  split at hc
  case h_5 => cases hc
  all_goals
    obtain ⟨rfl, rfl, rfl, rfl, rfl, rfl⟩ : _ ∧ _ ∧ _ ∧ _ ∧ _ ∧ _ := by simpa only [Option.some.injEq, Prod.mk.injEq] using hc
    rfl

/-- Settles O1: each row of the three tables issues alike, and writes its value and retires, or takes the fault of a division. -/
theorem registerResults : Obligations.RegisterResults := by
  refine ⟨fun c e rd f s hc h => ?general, fun c e rd f s hc h => ?boolean, fun c e rd rs rt f z s hc h => ?division⟩
  case general =>
    exact issue_step_issued (y := fun x => x.setG rd (f x)) (exec_gResult s hc) h (legal_insG _ rd f) rfl
      (by simp [singleReady_role h]) (by simp [singleReady_nreq h])
  case boolean =>
    exact issue_step_issued (y := fun x => x.setK rd (f x)) (exec_kResult s hc) h (legal_insK _ rd f) rfl
      (by simp [singleReady_role h]) (by simp [singleReady_nreq h])
  case division =>
    have writes : (¬((s.eng e).gr rt = 0 ∧ (s.eng e).dze = true)) →
        exec c s = .next (issued s e (fun x => (x.setG rd (dividing f z (x.gr rs) (x.gr rt))).retire x)).settle := fun other =>
      issue_step_issued (y := fun x => x.setG rd (dividing f z (x.gr rs) (x.gr rt))) (exec_quotient s hc) h (legal_act _ _)
        (if_neg fun both => other (((Bool.and_eq_true _ _).mp both).imp_left of_decide_eq_true)) (by simp [singleReady_role h]) (by simp [singleReady_nreq h])
    refine ⟨fun hb => ?_, fun hb hz => ?_, fun hb hz => ?_⟩
    · rw [writes fun both => hb both.1]
      refine congrArg (fun t => Host.Outcome.next (State.settle t)) (updEng_congr s e _ _ ?_)
      show ((fetchedEng s e).setG rd (dividing f z _ ((s.eng e).gr rt))).retire _ = _
      rw [dividing, if_neg hb]
      rfl
    · rw [writes (by simp [hz])]
      refine congrArg (fun t => Host.Outcome.next (State.settle t)) (updEng_congr s e _ _ ?_)
      show ((fetchedEng s e).setG rd (dividing f z _ ((s.eng e).gr rt))).retire _ = _
      rw [dividing, if_pos hb]
      rfl
    · exact issue_trap_faulted (exec_quotient s hc) h (legal_act _ _) (if_pos (by simp [hb, hz]))

end Sys2Proof.Laws
end

section
/-! Where an engine goes on: retirement (R254, R257, R265), branches and jumps with their delay slot (R254 to R256, R261), the
hardware loop (R258), and the handler registers and the mode (R243, R265). -/

namespace Sys2Proof.Laws

open Sys2Proof Sys2Proof.Machine Sys2Proof.Safety

/-! ### Retirement -/

/-- In sequence, with no loop whose end is here, the PC advances by 4. -/
theorem sequence_plain {x : Engine} {pc : Word} (h0 : x.la0 = false) (h1 : x.la1 = false) :
    x.sequence pc = { x with pc := pc + 4 } := by
  simp [Engine.sequence, h0, h1]

/-- At the end of the body of level 0 with passes left, the loop goes back (R257). -/
theorem sequence_back0 {x : Engine} (h1 : x.la1 = false) (h0 : x.la0 = true) (hc : x.lp0.lc.toNat > 1) :
    x.sequence x.lp0.le = { x with lp0 := { x.lp0 with lc := x.lp0.lc - 1 }, pc := x.lp0.ls } := by
  simp [Engine.sequence, h0, h1, hc]

/-- At the end of the last pass of level 0 the loop ends (R257). -/
theorem sequence_end0 {x : Engine} (h1 : x.la1 = false) (h0 : x.la0 = true) (hc : x.lp0.lc.toNat ≤ 1) :
    x.sequence x.lp0.le = { x with lp0 := { x.lp0 with lc := 0 }, la0 := false, pc := x.lp0.le + 4 } := by
  simp [Engine.sequence, h0, h1, Nat.not_lt.mpr hc]

/-- At the end of the body of level 1 with passes left, that loop goes back (R257). -/
theorem sequence_back1 {x : Engine} (h1 : x.la1 = true) (hc : x.lp1.lc.toNat > 1) :
    x.sequence x.lp1.le = { x with lp1 := { x.lp1 with lc := x.lp1.lc - 1 }, pc := x.lp1.ls } := by
  simp [Engine.sequence, h1, hc]

@[simp] theorem sequence_mp (x : Engine) (p : Word) : (x.sequence p).mp = x.mp := by
  unfold Engine.sequence; repeat' split
  all_goals rfl
@[simp] theorem sequence_cellM (x : Engine) (p : Word) : (x.sequence p).cellM = x.cellM := by
  unfold Engine.sequence; repeat' split
  all_goals rfl

/-- Outside a delay slot an instruction retires in sequence. -/
theorem retire_noSlot {x o : Engine} (h : o.ds = none) : x.retire o = (x.shadow o.mp).sequence o.pc := by
  simp only [Engine.retire, h]

/-- Retiring leaves the mode and its shadow as the shadow's count leaves them (R265). -/
theorem retire_shadow (x o : Engine) :
    (x.retire o).mp = (x.shadow o.mp).mp ∧ (x.retire o).cellM = (x.shadow o.mp).cellM := by
  unfold Engine.retire
  cases o.ds with
  | none => simp
  | some d =>
    rcases d with ⟨branch, target, ends, mp, cellM⟩
    cases target with
    | none => simp
    | some t => cases ends <;> simp [Engine.endLoops]

@[simp] theorem shadow_pc (x : Engine) (m : BitVec 2) : (x.shadow m).pc = x.pc := by unfold Engine.shadow; split <;> rfl
@[simp] theorem shadow_la0 (x : Engine) (m : BitVec 2) : (x.shadow m).la0 = x.la0 := by unfold Engine.shadow; split <;> rfl
@[simp] theorem shadow_la1 (x : Engine) (m : BitVec 2) : (x.shadow m).la1 = x.la1 := by unfold Engine.shadow; split <;> rfl
@[simp] theorem shadow_lp0 (x : Engine) (m : BitVec 2) : (x.shadow m).lp0 = x.lp0 := by unfold Engine.shadow; split <;> rfl
@[simp] theorem shadow_lp1 (x : Engine) (m : BitVec 2) : (x.shadow m).lp1 = x.lp1 := by unfold Engine.shadow; split <;> rfl
@[simp] theorem shadow_g (x : Engine) (m : BitVec 2) : (x.shadow m).g = x.g := by unfold Engine.shadow; split <;> rfl
@[simp] theorem shadow_k (x : Engine) (m : BitVec 2) : (x.shadow m).k = x.k := by unfold Engine.shadow; split <;> rfl
@[simp] theorem fold_g (x : Engine) (n : Nat) (v : Word) : (x.fold n v).g = x.g := by unfold Engine.fold; split <;> rfl
@[simp] theorem fold_k (x : Engine) (n : Nat) (v : Word) : (x.fold n v).k = x.k := by unfold Engine.fold; split <;> rfl
@[simp] theorem setG_k (x : Engine) (n : Nat) (v : Word) : (x.setG n v).k = x.k := by unfold Engine.setG; split <;> rfl

/-- Settles O4: each place of the stream is one equation of `sequence`, and the shadow's count is its own. -/
theorem retirementMovesThePc : Obligations.RetirementMovesThePc := by
  refine fun x => ⟨fun d t hd ht => ?slot, fun hd h0 h1 => ?plain, fun hd h0 h1 he hc => ?back0, fun hd h0 h1 he hc => ?end0,
    fun hd h1 he hc => ?back1, fun hm => ?two, fun hm => ?one, fun hm => ?zero⟩
  case slot =>
    simp only [Engine.retire, hd, ht]
    cases d.ends <;> simp [Engine.endLoops]
  case plain =>
    rw [retire_noSlot hd, sequence_plain (by simp [h0]) (by simp [h1])]
  case back0 =>
    rw [retire_noSlot hd, he, ← shadow_lp0 x x.mp, sequence_back0 (by simp [h1]) (by simp [h0]) (by simpa using hc)]
    simp [h0]
  case end0 =>
    rw [retire_noSlot hd, he, ← shadow_lp0 x x.mp, sequence_end0 (by simp [h1]) (by simp [h0]) (by simpa using hc)]
    simp
  case back1 =>
    rw [retire_noSlot hd, he, ← shadow_lp1 x x.mp, sequence_back1 (by simp [h1]) (by simpa using hc)]
    simp [h1]
  case two | one | zero =>
    obtain ⟨mp, cellM⟩ := retire_shadow x x
    rw [mp, cellM, hm]
    simp [Engine.shadow, hm]

/-! ### Branches -/

/-- A branch with its link register written, at its delay slot (R254). -/
def branched (x : Engine) (link : Nat) (target : Option Word) (ends : Bool) : Engine :=
  let y := x.setG link (x.pc + 8)
  { (match target with | some v => y.fold 1 v | none => y).shadow x.mp with
    ds := some { branch := x.pc, target := target, ends := ends, mp := x.mp, cellM := x.cellM }, pc := x.pc + 4 }

@[simp] theorem branched_g (x : Engine) (link : Nat) (target : Option Word) (ends : Bool) :
    (branched x link target ends).g = (x.setG link (x.pc + 8)).g := by
  cases target <;> simp [branched]
@[simp] theorem branched_k (x : Engine) (link : Nat) (target : Option Word) (ends : Bool) :
    (branched x link target ends).k = x.k := by
  cases target <;> simp [branched]
@[simp] theorem branched_role (x : Engine) (link : Nat) (target : Option Word) (ends : Bool) :
    (branched x link target ends).role = x.role := by
  cases target <;> simp [branched]
@[simp] theorem branched_nreq (x : Engine) (link : Nat) (target : Option Word) (ends : Bool) :
    (branched x link target ends).nreq = x.nreq := by
  cases target <;> simp [branched]

/-- A command whose instruction branches leaves the engine at the delay slot. -/
theorem issue_branch_issued {s : State} {e : Nat} {i : Ins} {o : Host.Outcome State Fault Refusal} {link : Nat}
    {target : Option Word} {ends : Bool} (ho : o = doneSettled (s.issue e i)) (h : SingleReady s e)
    (hi : (s.eng e).illegal i = false)
    (ha : i.act (fetchedEng s e) = .branch ((fetchedEng s e).setG link ((s.eng e).pc + 8)) target ends) :
    o = .next (issued s e (fun x => branched x link target ends)).settle := by
  rw [ho, issue_single s e i id _ h hi, ha]
  have result : ((s.updEng e (fun x => x.fetched (fetchWord s e))).runAct e none { word := fetchWord s e }
      (.branch ((fetchedEng s e).setG link ((s.eng e).pc + 8)) target ends)).s =
        issued s e (fun x => branched x link target ends) := by
    simp only [State.runAct, eng_updEng_same, updEng_updEng]
    exact updEng_congr s e _ _ rfl
  show doneSettled (State.overflow (State.runAct _ e none _ _).s e) = _
  rw [result, overflow_single _ e (by simp [singleReady_role h]) (by simp [singleReady_nreq h]), doneSettled]

/-- An instruction that branches: barred from slots and loop ends, with its target where it is taken. -/
def insBranch (link : Nat) (taken : Engine → Bool) (tgt : Word → Word) (ends : Bool) : Ins :=
  { barred := true, branch := true,
    act := fun x => .branch (x.setG link (x.pc + 8)) (if taken x then some (tgt x.pc) else none) ends }

/-- Each branch to an immediate target issues as one of the rule's table (R250, R254, R261). -/
theorem exec_branchOf {c : Instr} {e : Fin 64} {taken : Engine → Bool} {tgt : Word → Word} {link : Nat} {ends : Bool} (s : State)
    (hc : branchOf c = some (e, taken, tgt, link, ends)) : exec c s = doneSettled (s.issue e (insBranch link taken tgt ends)) := by
  unfold branchOf at hc
  split at hc
  case h_11 => cases hc
  all_goals obtain ⟨rfl, rfl, rfl, rfl, rfl⟩ : _ ∧ _ ∧ _ ∧ _ ∧ _ := by simpa only [Option.some.injEq, Prod.mk.injEq] using hc
  case h_2 =>
    simp only [← bne_decide]
    rfl
  case h_4 =>
    simp only [← not_slt]
    rfl
  case h_6 =>
    simp only [← not_ult]
    rfl
  all_goals rfl

/-- Whether a branch of the table is taken goes by the registers, which a fetch leaves. -/
theorem branchOf_taken_fetched {c : Instr} {e : Fin 64} {taken : Engine → Bool} {tgt : Word → Word} {link : Nat} {ends : Bool}
    (hc : branchOf c = some (e, taken, tgt, link, ends)) (x : Engine) (w : Word) : taken (x.fetched w) = taken x := by
  unfold branchOf at hc
  split at hc
  case h_11 => cases hc
  all_goals
    obtain ⟨_, rfl, _⟩ : _ ∧ _ ∧ _ := by simpa only [Option.some.injEq, Prod.mk.injEq] using hc
    rfl

/-- What a branch at a plain place leaves, of the engine and of the rest. -/
theorem branched_gives {s : State} {e : Fin 64} {link : Nat} {target : Option Word} {ends : Bool}
    {o : Host.Outcome State Fault Refusal} (ho : o = .next (issued s e (fun x => branched x link target ends)).settle) :
    Gives o (fun t =>
      (t.eng e).pc = (s.eng e).pc + 4 ∧
      (t.eng e).ds = some { branch := (s.eng e).pc, target := target, ends := ends, mp := (s.eng e).mp, cellM := (s.eng e).cellM } ∧
      (t.eng e).g = ((s.eng e).setG link ((s.eng e).pc + 8)).g ∧ (t.eng e).k = (s.eng e).k ∧ t.mems = s.mems ∧
      ∀ n : Nat, n ≠ e → t.eng n = s.eng n) := by
  refine ⟨_, ho, ?_⟩
  have after : (issued s e (fun x => branched x link target ends)).settle.eng e = branched (fetchedEng s e) link target ends := by
    rw [settle_eng, eng_issued]
    rfl
  have linked : ((fetchedEng s e).setG link ((fetchedEng s e).pc + 8)).g = ((s.eng e).setG link ((s.eng e).pc + 8)).g := by
    unfold Engine.setG
    split <;> rfl
  beta_reduce
  rw [after, branched_g, branched_k, linked]
  refine ⟨rfl, rfl, rfl, rfl, by simp [issued], fun n hn => ?_⟩
  rw [settle_eng, issued, eng_updEng, if_neg hn]

/-- JMPR links another register than the one that it jumps to, or none (R250). -/
theorem jmpr_form {rd rs : Fin 32} (h : rd ≠ rs ∨ rd = 0) : (rd.val == rs.val && rd.val != 0) = false := by
  rcases h with ne | zero
  · simp [Fin.val_ne_of_ne ne]
  · simp [zero]

/-- Settles O3: each form of the table branches alike, and JMPR takes its register or the fault of its target. -/
theorem branchesEnterTheirSlot : Obligations.BranchesEnterTheirSlot := by
  refine ⟨fun c e taken tgt link ends s hc h hp => ?immediate, fun e rd rs s h hp hd => ⟨fun ha => ?aligned, fun ha => ?misaligned⟩⟩
  case immediate =>
    refine branched_gives (issue_branch_issued (exec_branchOf s hc) h (legal_plain hp rfl) ?_)
    rw [← branchOf_taken_fetched hc (s.eng e) (fetchWord s e)]
    rfl
  case aligned =>
    obtain ⟨t, ht, pc, ds, g, _, mems, _⟩ := branched_gives
      (issue_branch_issued (o := exec (.jmpr e rd rs) s) (link := rd) (target := some ((s.eng e).gr rs)) (ends := rd.val == 0) rfl h
        (legal_plain hp (jmpr_form hd)) (if_neg (not_not.mpr ha)))
    have linkless : (rd.val == 0) = decide (rd = 0) := Bool.eq_iff_iff.mpr (by simp)
    exact ⟨t, ht, pc, linkless ▸ ds, g, mems⟩
  case misaligned => exact issue_trap_faulted rfl h (legal_plain hp (jmpr_form hd)) (if_pos ha)

/-! ### The hardware loop -/

/-- LOOP at a place outside loops, in the form that it has, is legal (R249, R258, R259). -/
theorem legal_loop {x : Engine} {imm : Bool} {rs : Fin 32} {cnt last : BitVec 10} (hp : PlainPlace x)
    (hf : loopForm imm rs cnt last = true) (h0 : x.la0 = false) {act : Engine → Act} :
    x.illegal { barred := true, bad := loopBad imm rs.val cnt.toNat last.toNat, act := act } = false := by
  refine legal_plain hp ?_
  simp only [loopForm, Bool.and_eq_true, decide_eq_true_eq] at hf
  obtain ⟨form, far⟩ := hf
  have near : decide (last.toNat ≤ 1) = false := decide_eq_false (by omega)
  cases imm with
  | true =>
    have : rs = 0 := by simpa using form
    simp [loopBad, this, near, h0]
  | false =>
    have : cnt = 0 := by simpa using form
    simp [loopBad, this, near, h0]

/-- Level 0 as LOOP activates it (R258). -/
def loopStarted (imm : Bool) (rs : Nat) (cnt last : BitVec 10) (x : Engine) : Engine :=
  { x with lp0 := { lc := if imm then BitVec.ofNat 32 cnt.toNat else x.gr rs, ls := x.pc + 4,
                    le := x.pc + BitVec.ofNat 32 (4 * last.toNat) }, la0 := true }

/-- Settles O5: outside loops LOOP is a jump, to its body with level 0 or past it. -/
theorem loopActivatesALevel : Obligations.LoopActivatesALevel := by
  refine fun e imm rs cnt last s h hp hf h0 h1 hm => ⟨fun hc => ?enters, fun hc => ?skips⟩
  case enters =>
    refine issue_jump_issued (y := loopStarted imm rs cnt last) (pc := fun x => x.pc + 4) rfl h (legal_loop hp hf h0) ?_ hm
      (singleReady_role h) (singleReady_nreq h)
    exact (if_neg hc).trans (if_neg (by simp [fetchedEng, Engine.fetched, h0]))
  case skips =>
    exact issue_jump_issued (y := id) (pc := fun x => x.pc + BitVec.ofNat 32 (4 * last.toNat) + 4) rfl h (legal_loop hp hf h0)
      (if_pos hc) hm (singleReady_role h) (singleReady_nreq h)

/-! ### Handler registers and the mode -/

/-- Settles O10: each instruction issues as one that changes the engine's registers alone. -/
theorem handlerRegistersAndMode : Obligations.HandlerRegistersAndMode := by
  refine ⟨fun e r c s h ha => ?rdh, fun e r c s h hm ha => ?wrh, fun e s h hp hrun => ⟨?cellMode, ?runtimeMode⟩, fun e r s h => ?sadj⟩
  case rdh =>
    exact issue_step_issued (y := fun x => x.setG r (x.handler (s.eid e) c)) rfl h (by simp [Engine.illegal, ha]) rfl
      (by simp [singleReady_role h]) (by simp [singleReady_nreq h])
  case wrh =>
    exact issue_step_issued (y := fun x => x.setHandler c (x.gr r)) rfl h (by simp [Engine.illegal, hm, ha]) rfl
      (by simp [singleReady_role h]) (by simp [singleReady_nreq h])
  case cellMode =>
    obtain ⟨hm, hmp⟩ := hrun
    exact issue_step_issued (y := fun x => { x with mp := 2, pm := true }) rfl h (legal_plain hp (by simp [hm, hmp])) rfl
      (singleReady_role h) (singleReady_nreq h)
  case runtimeMode =>
    obtain ⟨hm, hmp⟩ := hrun
    exact issue_step_issued (y := id) rfl h (legal_plain hp (by simp [hm, hmp])) rfl (singleReady_role h) (singleReady_nreq h)
  case sadj =>
    have folds : ∀ x : Engine, x.fold 9 (x.gr r) = { x with whisk := whiskFold x.whisk 9 (x.gr r) } := fun x =>
      if_pos (by simp [singleKind])
    have issues := issue_step_issued (o := exec (.sadj e r) s) (y := fun x => x.fold 9 (x.gr r)) rfl h (legal_act _ _) rfl
      (by simp [singleReady_role h]) (by simp [singleReady_nreq h])
    simpa only [folds] using issues

end Sys2Proof.Laws
end

section
/-! Loads, stores and output requests of a single engine (R210, R213, R246, R247, R250, R277): the bytes of a word, the parts of a
word that an access reads or writes, and what the access makes of the engine and its memory. -/

namespace Sys2Proof.Laws

open Sys2Proof Sys2Proof.Machine Sys2Proof.Safety

/-! ### Bytes and parts of a word -/

/-- Two words with the same bytes are one. -/
theorem word_ext {x y : Word} (h : ∀ j < 4, ∀ i < 8, x.getLsbD (8 * j + i) = y.getLsbD (8 * j + i)) : x = y := by
  refine BitVec.eq_of_getLsbD_eq fun i hi => ?_
  have := h (i / 8) (by omega) (i % 8) (by omega)
  rwa [show 8 * (i / 8) + i % 8 = i by omega] at this

/-- Bit 8j + i of a memory word is bit i of its byte j (R7). -/
theorem getLsbD_word (m : Cluster) (a : Nat) {j i : Nat} (hj : j < 4) (hi : i < 8) :
    (m.word a).getLsbD (8 * j + i) = (m.byte (a + j)).getLsbD i := by
  have above : ∀ (b : Byte) (k : Nat), 8 ≤ k → b.getLsbD k = false := fun b k hk => BitVec.getLsbD_of_ge b k hk
  simp only [Cluster.word, word4, List.getD_cons_zero, List.getD_cons_succ, BitVec.getLsbD_or, BitVec.getLsbD_shiftLeft,
    BitVec.truncate_eq_setWidth, BitVec.getLsbD_setWidth]
  obtain rfl | rfl | rfl | rfl : j = 0 ∨ j = 1 ∨ j = 2 ∨ j = 3 := by omega
  · simp [show i < 32 by omega, hi, show i < 16 by omega, show i < 24 by omega]
  · simp [show 8 + i < 32 by omega, show 8 + i < 16 by omega, show 8 + i < 24 by omega]
    omega
  · simp [show 16 + i < 32 by omega, above _ (16 + i) (by omega), above _ (16 + i - 8) (by omega), show 16 + i < 24 by omega]
    omega
  · simp [show 24 + i < 32 by omega, above _ (24 + i) (by omega), above _ (24 + i - 8) (by omega), above _ (24 + i - 16) (by omega)]
    omega

/-- Bit i of byte j of a word is bit 8j + i of the word (R7). -/
theorem getLsbD_bytes4 (w : Word) {j i : Nat} (hj : j < 4) (hi : i < 8) :
    ((bytes4 w).getD j 0).getLsbD i = w.getLsbD (8 * j + i) := by
  obtain rfl | rfl | rfl | rfl : j = 0 ∨ j = 1 ∨ j = 2 ∨ j = 3 := by omega
  all_goals simp [bytes4, hi]

theorem getLsbD_mask8 (i : Nat) : (0xFF#32).getLsbD i = decide (i < 8) := by
  rw [show (0xFF#32) = BitVec.ofNat 32 (2 ^ 8 - 1) from rfl, BitVec.getLsbD_ofNat, Nat.testBit_two_pow_sub_one]
  by_cases h : i < 8
  · simp [h]; omega
  · simp [h]

theorem getLsbD_mask16 (i : Nat) : (0xFFFF#32).getLsbD i = decide (i < 16) := by
  rw [show (0xFFFF#32) = BitVec.ofNat 32 (2 ^ 16 - 1) from rfl, BitVec.getLsbD_ofNat, Nat.testBit_two_pow_sub_one]
  by_cases h : i < 16
  · simp [h]; omega
  · simp [h]

/-- Byte j of a word in which a byte or half word has been replaced: its own where it lies there, the word's elsewhere. -/
theorem getLsbD_mergePart {w d : Word} {n width j i : Nat} (hw : width = 1 ∨ width = 2) (hj : j < 4) (hi : i < 8) :
    (mergePart w n width d).getLsbD (8 * j + i) =
      if n % 4 ≤ j ∧ j < n % 4 + width then d.getLsbD (8 * (j - n % 4) + i) else w.getLsbD (8 * j + i) := by
  have low : 8 * j + i < 32 := by omega
  by_cases here : n % 4 ≤ j
  · have at_ : 8 * j + i - 8 * (n % 4) = 8 * (j - n % 4) + i := by omega
    have notBefore : ¬8 * j + i < 8 * (n % 4) := by omega
    rcases hw with rfl | rfl
    · have inside : decide (8 * (j - n % 4) + i < 8) = decide (j < n % 4 + 1) := decide_eq_decide.mpr (by omega)
      have parts : mergePart w n 1 d =
          (w &&& ~~~(0xFF#32 <<< (8 * (n % 4)))) ||| ((d <<< (8 * (n % 4))) &&& (0xFF#32 <<< (8 * (n % 4)))) := rfl
      simp only [parts, getLsbD_mask8, low, at_, notBefore, here, inside, BitVec.getLsbD_or, BitVec.getLsbD_and,
        BitVec.getLsbD_not, BitVec.getLsbD_shiftLeft, decide_true, decide_false, Bool.not_false, Bool.true_and, true_and]
      by_cases h : j < n % 4 + 1 <;> simp [h]
    · have inside : decide (8 * (j - n % 4) + i < 16) = decide (j < n % 4 + 2) := decide_eq_decide.mpr (by omega)
      have parts : mergePart w n 2 d =
          (w &&& ~~~(0xFFFF#32 <<< (8 * (n % 4)))) ||| ((d <<< (8 * (n % 4))) &&& (0xFFFF#32 <<< (8 * (n % 4)))) := rfl
      simp only [parts, getLsbD_mask16, low, at_, notBefore, here, inside, BitVec.getLsbD_or, BitVec.getLsbD_and,
        BitVec.getLsbD_not, BitVec.getLsbD_shiftLeft, decide_true, decide_false, Bool.not_false, Bool.true_and, true_and]
      by_cases h : j < n % 4 + 2 <;> simp [h]
  · have before : 8 * j + i < 8 * (n % 4) := by omega
    rcases hw with rfl | rfl <;> simp [mergePart, low, before, here]

/-- The part of a memory word that a load of two bytes takes is those bytes, the least significant first. -/
theorem partOf_half (m : Cluster) {n : Nat} (hn : n % 2 = 0) :
    partOf (m.word (4 * (n / 4))) n 2 = (m.byte n).zeroExtend 32 ||| (m.byte (n + 1)).zeroExtend 32 <<< 8 := by
  refine word_ext fun j hj i hi => ?_
  have above : ∀ (b : Byte) (k : Nat), 8 ≤ k → b.getLsbD k = false := fun b k hk => BitVec.getLsbD_of_ge b k hk
  have shifted : (m.word (4 * (n / 4)) >>> (8 * (n % 4))).getLsbD (8 * j + i) =
      (m.word (4 * (n / 4))).getLsbD (8 * (n % 4 + j) + i) := by
    rw [BitVec.getLsbD_ushiftRight]
    exact congrArg _ (by omega)
  rw [partOf, if_neg (by decide), if_pos rfl, BitVec.getLsbD_and, shifted, getLsbD_mask16]
  by_cases h : j < 2
  · rw [getLsbD_word m _ (by omega) hi, show 4 * (n / 4) + (n % 4 + j) = n + j by omega]
    obtain rfl | rfl : j = 0 ∨ j = 1 := by omega
    · simp [show i < 32 by omega, hi]
      omega
    · simp [show 8 + i < 32 by omega]
      omega
  · simp [show ¬8 * j + i < 16 by omega, above _ (8 * j + i) (by omega), above _ (8 * j + i - 8) (by omega)]

/-- The part of a memory word that a load of one byte takes is that byte. -/
theorem partOf_byte (m : Cluster) (n : Nat) : partOf (m.word (4 * (n / 4))) n 1 = (m.byte n).zeroExtend 32 := by
  refine word_ext fun j hj i hi => ?_
  have above : ∀ (b : Byte) (k : Nat), 8 ≤ k → b.getLsbD k = false := fun b k hk => BitVec.getLsbD_of_ge b k hk
  have shifted : (m.word (4 * (n / 4)) >>> (8 * (n % 4))).getLsbD (8 * j + i) =
      (m.word (4 * (n / 4))).getLsbD (8 * (n % 4 + j) + i) := by
    rw [BitVec.getLsbD_ushiftRight]
    exact congrArg _ (by omega)
  rw [partOf, if_neg (by decide), if_neg (by decide), BitVec.getLsbD_and, shifted, getLsbD_mask8]
  by_cases h : j = 0
  · subst h
    rw [getLsbD_word m _ (by omega) hi, show 4 * (n / 4) + (n % 4 + 0) = n by omega]
    simp [show i < 32 by omega, hi]
  · simp [show ¬8 * j + i < 8 by omega, above _ (8 * j + i) (by omega)]

/-- The value that a load writes: the part of the word that it takes, extended (R250). -/
def extended (v : Word) (width : Nat) (signed : Bool) : Word :=
  if signed then (if width = 2 then (v.extractLsb' 0 16).signExtend 32
                  else if width = 1 then (v.extractLsb' 0 8).signExtend 32 else v) else v

/-- What an aligned load of the rule's table takes of its word is the bytes at its address (R213, R250). -/
theorem extended_partOf (m : Cluster) {n width : Nat} (signed : Bool) (hw : width = 1 ∨ width = 2 ∨ width = 4 ∧ signed = false)
    (hn : n % width = 0) : extended (partOf (m.word (4 * (n / 4))) n width) width signed = loadValue m n width signed := by
  rcases hw with rfl | rfl | ⟨rfl, rfl⟩
  · rw [partOf_byte]
    have low : BitVec.extractLsb' 0 8 ((m.byte n).zeroExtend 32) = m.byte n := by
      refine BitVec.eq_of_getLsbD_eq fun i hi => ?_
      simp [hi, show i < 32 by omega]
    cases signed with
    | false => simp [extended, loadValue]
    | true => simp only [extended, loadValue, low]; simp
  · rw [partOf_half m hn]
    cases signed <;> simp [extended, loadValue]
  · simp [extended, loadValue, partOf, Cluster.word, word4, show 4 * (n / 4) = n by omega]

@[simp] theorem fetchedEng_ctag (s : State) (e : Nat) : (fetchedEng s e).ctag = (s.eng e).ctag := rfl

/-! ### What an access is admitted by -/

/-- The roles of the engines, the cells and the memories are the same: what the address map and the owner table go by. -/
def SameOwners (s t : State) : Prop := t.mems = s.mems ∧ t.cells = s.cells ∧ ∀ k, (t.eng k).role = (s.eng k).role

theorem sameOwners_updEng (s : State) (e : Nat) (f : Engine → Engine) (hf : (f (s.eng e)).role = (s.eng e).role) :
    SameOwners s (s.updEng e f) := by
  refine ⟨rfl, rfl, fun k => ?_⟩
  rw [eng_updEng]
  split
  · next h => rw [hf, h]
  · rfl

theorem SameOwners.head {s t : State} (h : SameOwners s t) (e : Nat) : t.head e = s.head e := by
  obtain ⟨_, _, roles⟩ := h
  simp only [State.head, roles]

theorem SameOwners.cellTags {s t : State} (h : SameOwners s t) (e : Nat) : t.cellTags e = s.cellTags e := by
  have head := h.head e
  obtain ⟨_, cells, roles⟩ := h
  simp only [State.cellTags, State.cellsOfEngine, State.cellsAt, State.cell, head, cells, roles]
  rfl

/-- The owner table answers by the tags and the mode that the engine presents (R212). -/
theorem SameOwners.admitMem {s t : State} (h : SameOwners s t) {x y : Engine} (hm : y.cellM = x.cellM) (hc : y.ctag = x.ctag)
    (e : Nat) (u : Use) (a : Nat) : t.admitMem e y u a = s.admitMem e x u a := by
  have head := h.head e
  have tags := h.cellTags e
  obtain ⟨mems, _, _⟩ := h
  simp only [State.admitMem, State.tagFits, State.runTag, State.clu, head, tags, mems, hm, hc]
  rfl

theorem SameOwners.admitFetch {s t : State} (h : SameOwners s t) {x y : Engine} (hm : y.cellM = x.cellM) (hc : y.ctag = x.ctag)
    (e a : Nat) : t.admitFetch e y a = s.admitFetch e x a := by
  simp only [State.admitFetch, h.admitMem hm hc, hm]

theorem cleanWord_mems {s t : State} (h : t.mems = s.mems) (cl w : Nat) (tag : Byte) : cleanWord t cl w tag = cleanWord s cl w tag := by
  simp only [cleanWord, State.clu, h]
  rfl

@[simp] theorem clu_updEng (s : State) (e cl : Nat) (f : Engine → Engine) : (s.updEng e f).clu cl = s.clu cl := rfl

/-- Engine e has fetched its instruction. -/
def fetchedState (s : State) (e : Nat) : State := s.updEng e (fun x => x.fetched (fetchWord s e))

@[simp] theorem eng_fetchedState (s : State) (e : Nat) : (fetchedState s e).eng e = fetchedEng s e := eng_updEng_same _ _ _

theorem sameOwners_fetchedState (s : State) (e : Nat) : SameOwners s (fetchedState s e) := sameOwners_updEng s e _ rfl

/-- A command whose instruction runs without a fault to an engine that keeps its role and its requests leaves what it ran to. -/
theorem issue_ran {s : State} {e : Nat} {i : Ins} {o : Host.Outcome State Fault Refusal} {fd : Feed} {u : State} {y old : Engine}
    (ho : o = doneSettled (s.issue e i)) (h : SingleReady s e) (hi : (s.eng e).illegal i = false)
    (hr : (fetchedState s e).runAct e none { word := fetchWord s e } (i.act (fetchedEng s e)) = u.ranOk e y old fd)
    (hrole : y.role = .single) (hn : y.nreq ≤ 256) : o = .next (u.updEng e (fun _ => y.retire old)).settle := by
  rw [ho, issue_single s e i id _ h hi]
  rw [fetchedState] at hr
  simp only [hr]
  show doneSettled (State.overflow (u.updEng e fun _ => y.retire old) e) = _
  rw [overflow_single _ e (by simp [hrole]) (by simp [hn]), doneSettled]

/-- A command whose instruction is refused its access takes the fault of the refusal. -/
theorem issue_ranFault {s : State} {e : Nat} {i : Ins} {o : Host.Outcome State Fault Refusal} {fd : Option Feed} {cause : Nat}
    {eva : Word} (ho : o = doneSettled (s.issue e i)) (h : SingleReady s e) (hi : (s.eng e).illegal i = false)
    (hr : (fetchedState s e).runAct e none { word := fetchWord s e } (i.act (fetchedEng s e)) =
      (fetchedState s e).ranFault e cause eva false fd) : o = .next (faulted s e cause eva).settle := by
  rw [ho, issue_single s e i id _ h hi]
  rw [fetchedState] at hr
  simp only [hr]
  simp only [doneSettled, State.ranFault, faulted, eng_updEng_same, updEng_updEng, fetchedEng]

/-! ### Misaligned accesses -/

theorem admitData_misaligned {s : State} {e : Nat} {x : Engine} {write : Bool} {a width : Nat} (h : a % width ≠ 0) :
    s.admitData e x write a width = .error 5 := if_pos h

/-- An access that is refused for its alignment leaves nothing but the fault (R247). -/
theorem refused_alignment (s : State) (e a : Nat) (counts : Bool) : s.refused e 5 a counts = s := by
  simp [State.refused, State.when]

/-- A load of the rule's table, of a width of its own (R250). -/
theorem exec_loadOf {c : Instr} {e : Fin 64} {rd rs : Fin 32} {imm : Half} {width : Nat} {signed : Bool} (s : State)
    (hc : loadOf c = some (e, rd, rs, imm, width, signed)) :
    exec c s = doneSettled (s.issue e (insLoad rd rs imm width signed)) ∧ (width = 1 ∨ width = 2 ∨ width = 4 ∧ signed = false) := by
  unfold loadOf at hc
  split at hc
  case h_6 => cases hc
  all_goals
    obtain ⟨rfl, rfl, rfl, rfl, rfl, rfl⟩ : _ ∧ _ ∧ _ ∧ _ ∧ _ ∧ _ := by simpa only [Option.some.injEq, Prod.mk.injEq] using hc
    exact ⟨rfl, by simp⟩

/-- A store of the rule's table, of a width of its own (R250). -/
theorem exec_storeOf {c : Instr} {e : Fin 64} {rd rs : Fin 32} {imm : Half} {width : Nat} (s : State)
    (hc : storeOf c = some (e, rd, rs, imm, width)) :
    exec c s = doneSettled (s.issue e (insStore rs imm width (fun x => x.gr rd))) ∧ (width = 1 ∨ width = 2 ∨ width = 4) := by
  unfold storeOf at hc
  split at hc
  case h_4 => cases hc
  all_goals
    obtain ⟨rfl, rfl, rfl, rfl, rfl⟩ : _ ∧ _ ∧ _ ∧ _ ∧ _ := by simpa only [Option.some.injEq, Prod.mk.injEq] using hc
    exact ⟨rfl, by simp⟩

theorem runLoad_misaligned {s : State} {e rd : Nat} {fd : Feed} {signed : Bool} {a : Word} {width : Nat} (h : a.toNat % width ≠ 0) :
    s.runLoad e none fd rd signed a width = s.ranFault e 5 a false (some fd) := by
  simp only [State.runLoad, admitData_misaligned h, refused_alignment]

theorem runStore_misaligned {s : State} {e : Nat} {fd : Feed} {a d : Word} {width : Nat} (h : a.toNat % width ≠ 0) :
    s.runStore e none fd false a width d = s.ranFault e 5 a false (some fd) := by
  simp only [State.runStore, admitData_misaligned h, refused_alignment, Bool.false_and, Bool.false_eq_true, if_false]

/-- Settles O8: the address map refuses the access before it reaches a place. -/
theorem misalignedAccessFaults : Obligations.MisalignedAccessFaults := by
  refine ⟨fun c e rd rs imm width signed s hc h ha => ?_, fun c e rd rs imm width s hc h ha => ?_⟩
  · obtain ⟨issues, _⟩ := exec_loadOf s hc
    exact issue_ranFault issues h (legal_act _ _) (runLoad_misaligned ha)
  · obtain ⟨issues, _⟩ := exec_storeOf s hc
    exact issue_ranFault issues h (legal_act _ _) (runStore_misaligned ha)

/-! ### Loads -/

/-- Kinds of access do not fold on a single engine (R216). -/
theorem fold_single {x : Engine} {kind : Nat} (v : Word) (hr : x.role = .single) (hk : singleKind kind = false) :
    x.fold kind v = x := if_neg (by simp [Engine.onPair, hr, hk])

theorem admitData_memory {s : State} {e : Nat} {x : Engine} {write : Bool} {a width : Nat} (ha : a % width = 0) (hn : a < 0x40000) :
    s.admitData e x write a width = s.admitMem e x (if !write then .load else if width = 4 then .store else .part) a := by
  rw [State.admitData, if_neg (not_not.mpr ha), if_pos hn]

/-- A load of an admitted, clean word writes the part that it takes. -/
theorem runLoad_memory {s : State} {e rd : Nat} {fd : Feed} {signed : Bool} {a : Word} {width : Nat} {tag : Byte}
    (hr : (s.eng e).role = .single) (ha : a.toNat % width = 0) (hn : a.toNat < 0x40000)
    (hm : s.admitMem e (s.eng e) .load a.toNat = .ok (.mem tag)) (hc : cleanWord s (e / 4) (a.toNat / 4) tag = true) :
    s.runLoad e none fd rd signed a width =
      s.ranOk e ((s.eng e).setG rd (extended (partOf ((s.clu (e / 4)).word (4 * (a.toNat / 4))) a.toNat width) width signed)) (s.eng e)
        { fd with data := some (.load, partOf ((s.clu (e / 4)).word (4 * (a.toNat / 4))) a.toNat width, false) } := by
  simp only [State.runLoad, admitData_memory ha hn, Bool.not_false, if_true, hm, readWord_clean s _ _ tag hc]
  simp only [reduceCtorEq, false_and, if_false]
  rw [fold_single _ (by simp [hr]) rfl]
  rfl

/-- Settles O6: the load is admitted, reads its word clean and writes the bytes there. -/
theorem loadsReadClusterMemory : Obligations.LoadsReadClusterMemory := by
  intro c e rd rs imm width signed tag s hc h ha hn hm hw
  obtain ⟨issues, widths⟩ := exec_loadOf s hc
  have owners := sameOwners_fetchedState s e
  have runs := runLoad_memory (fd := { word := fetchWord s e }) (rd := rd) (signed := signed) (s := fetchedState s e)
    (by simp [singleReady_role h]) ha hn ((owners.admitMem (by simp) (by simp) e _ _).trans hm) ((cleanWord_mems rfl _ _ _).trans hw)
  rw [issue_ran issues h (legal_act _ _) runs (by simp [singleReady_role h]) (by simp [singleReady_nreq h])]
  have value := extended_partOf ((fetchedState s e).clu (e / 4)) signed widths ha
  rw [value, eng_fetchedState]
  simp only [fetchedState, updEng_updEng, issued]
  exact congrArg (fun t => Host.Outcome.next (State.settle t)) (updEng_congr s e _ _ rfl)

/-! ### Stores -/

/-- The word that a store leaves at its place: the operand, or a part of it in the word that was there (R250). -/
def storedWord (m : Cluster) (n width : Nat) (d : Word) : Word := mergePart (m.word (4 * (n / 4))) n width d

/-- The memory after a store holds the operand's bytes at its address, and every other byte as before (R210, R213). -/
theorem byte_stored (m : Cluster) {n width : Nat} (d : Word) (tag : Option Byte) (hw : width = 1 ∨ width = 2 ∨ width = 4)
    (hn : n % width = 0) (b : Nat) :
    (m.putWord (n / 4 * 4) (storedWord m n width d) tag).byte b =
      if n ≤ b ∧ b < n + width then (bytes4 d).getD (b - n) 0 else m.byte b := by
  have range : n / 4 * 4 ≤ n ∧ n + width ≤ n / 4 * 4 + 4 := by rcases hw with rfl | rfl | rfl <;> omega
  rw [byte_putWord]
  by_cases word : n / 4 * 4 ≤ b ∧ b < n / 4 * 4 + 4
  · rw [if_pos word]
    refine BitVec.eq_of_getLsbD_eq fun i hi => ?_
    have stored : (storedWord m n width d).getLsbD (8 * (b - n / 4 * 4) + i) =
        if n % 4 ≤ b - n / 4 * 4 ∧ b - n / 4 * 4 < n % 4 + width then d.getLsbD (8 * (b - n / 4 * 4 - n % 4) + i)
        else (m.word (4 * (n / 4))).getLsbD (8 * (b - n / 4 * 4) + i) := by
      rcases or_assoc.mpr hw with part | rfl
      · exact getLsbD_mergePart part (by omega) hi
      · rw [if_pos (by omega), show b - n / 4 * 4 - n % 4 = b - n / 4 * 4 by omega]
        rfl
    rw [getLsbD_bytes4 _ (by omega) hi, stored]
    by_cases inside : n ≤ b ∧ b < n + width
    · rw [if_pos (by omega), if_pos inside, getLsbD_bytes4 _ (by omega) hi, show b - n / 4 * 4 - n % 4 = b - n by omega]
    · rw [if_neg (by omega), if_neg inside, getLsbD_word m _ (by omega) hi, show 4 * (n / 4) + (b - n / 4 * 4) = b by omega]
  · rw [if_neg word, if_neg (by omega)]

/-- A store to an admitted word, which for a part of one reads clean, writes it and retires. -/
theorem runStore_memory {s : State} {e : Nat} {fd : Feed} {a d : Word} {width : Nat} {tag : Byte}
    (hr : (s.eng e).role = .single) (ha : a.toNat % width = 0) (hn : a.toNat < 0x40000)
    (hm : s.admitMem e (s.eng e) (if width = 4 then .store else .part) a.toNat = .ok (.mem tag))
    (hc : width ≠ 4 → cleanWord s (e / 4) (a.toNat / 4) tag = true) :
    ∃ fd', s.runStore e none fd false a width d =
      (s.updClu (e / 4) (fun m => m.putWord (a.toNat / 4 * 4) (storedWord (s.clu (e / 4)) a.toNat width d) (some tag))).ranOk e
        (s.eng e) (s.eng e) fd' := by
  have folds : ∀ u v : Word, ((s.eng e).fold 2 u).fold 3 v = s.eng e := fun u v => by
    rw [fold_single u hr rfl, fold_single v hr rfl]
  by_cases w4 : width = 4
  · subst w4
    refine ⟨fd, ?_⟩
    rw [if_pos rfl] at hm
    simp only [State.runStore, admitData_memory ha hn, Bool.false_and, Bool.false_eq_true, if_false, if_true,
      Bool.not_true, hm, reduceCtorEq]
    exact congrArg (fun y => State.ranOk _ e y (s.eng e) fd) (folds _ _)
  · refine ⟨fd, ?_⟩
    rw [if_neg w4] at hm
    simp only [State.runStore, admitData_memory ha hn, Bool.false_and, Bool.false_eq_true, if_false,
      Bool.not_true, if_neg w4, hm, readWord_clean s _ _ tag (hc w4), reduceCtorEq]
    exact congrArg (fun y => State.ranOk _ e y (s.eng e) fd) (folds _ _)

/-- Settles O7: the store is admitted, and leaves its word with the operand's bytes in it. -/
theorem storesWriteClusterMemory : Obligations.StoresWriteClusterMemory := by
  intro c e rd rs imm width tag s hc h ha hn hm hw
  obtain ⟨issues, widths⟩ := exec_storeOf s hc
  have owners := sameOwners_fetchedState s e
  obtain ⟨fd, runs⟩ := runStore_memory (fd := { word := fetchWord s e }) (d := (s.eng e).gr rd) (s := fetchedState s e)
    (by simp [singleReady_role h]) ha hn ((owners.admitMem (by simp) (by simp) e _ _).trans hm)
    (fun part => (cleanWord_mems rfl _ _ _).trans (hw part))
  refine ⟨_, issue_ran issues h (legal_act _ _) runs (by simp [singleReady_role h]) (by simp [singleReady_nreq h]), ?_, ?_, ?_⟩
  · rw [settle_eng, eng_updEng_same, eng_fetchedState]
  · intro n ne
    rw [settle_eng, eng_updEng, if_neg ne]
    exact (eng_updEng s e n (fun x => x.fetched (fetchWord s e))).trans (if_neg ne)
  · intro cl b
    have after : ∀ u : State, (State.settle u).clu cl = u.clu cl := fun u => by simp only [State.clu, settle_mems]
    rw [after, clu_updEng, clu_updClu]
    by_cases own : cl = e / 4
    · rw [if_pos own, byte_stored _ _ _ widths ha]
      simp only [own, true_and]
      rfl
    · rw [if_neg own, if_neg (by simp [own])]
      rfl

/-! ### Output requests -/

theorem admitData_window {s : State} {e : Nat} {x : Engine} {a : Nat} (hm : x.cellM = false) (ha : a % 4 = 0)
    (h1 : 0x30000000 ≤ a) (h2 : a < 0x30001000) : s.admitData e x true a 4 = .ok .window := by
  rw [State.admitData, if_neg (not_not.mpr ha), if_neg (by omega), if_neg (by omega), if_neg (by omega), if_pos ⟨h1, h2⟩,
    if_neg (by decide), if_neg (by decide), if_pos (by simp [hm])]

/-- An engine with one request more in its buffer (R277). -/
theorem request_room {x : Engine} (off : Nat) (d : Word) (h : x.nreq < 256) :
    x.request off d = { x with reqs := x.reqs ++ [{ slot := false, off := off, data := d }], nreq := x.nreq + 1 } := if_pos h

/-- An output request of a single engine in runtime mode goes into its buffer. -/
theorem runStore_window {s : State} {e : Nat} {fd : Feed} {a d : Word} (hr : (s.eng e).role = .single)
    (hm : (s.eng e).cellM = false) (hn : (s.eng e).nreq < 256) (ha : a.toNat % 4 = 0) (h1 : 0x30000000 ≤ a.toNat)
    (h2 : a.toNat < 0x30001000) :
    s.runStore e none fd true a 4 d =
      (s.updEng e (fun x => x.request (a.toNat - 0x30000000) d)).ranOk e ((s.eng e).request (a.toNat - 0x30000000) d)
        ((s.eng e).request (a.toNat - 0x30000000) d) fd := by
  have inside : (decide (0x30000000 ≤ a.toNat) && decide (a.toNat < 0x30001000)) = true := by simp [h1, h2]
  have single : ((s.eng e).request (a.toNat - 0x30000000) d).role = .single := by rw [request_room _ _ hn]; exact hr
  have folds : ∀ u v : Word, (((s.eng e).request (a.toNat - 0x30000000) d).fold 4 u).fold 5 v =
      (s.eng e).request (a.toNat - 0x30000000) d := fun u v => by
    rw [fold_single u single rfl, fold_single v single rfl]
  simp only [State.runStore, inside, admitData_window hm ha h1 h2, Bool.not_true, Bool.and_false, Bool.false_and, Bool.false_eq_true,
    if_false, if_true, eng_updEng_same, folds]

/-- Each request of the rule's table issues as a store to the request window (R277). -/
theorem exec_requestOf {c : Instr} {e : Fin 64} {rs : Fin 32} {imm : Half} {f : Engine → Word} (s : State)
    (hc : requestOf c = some (e, rs, imm, f)) : exec c s = doneSettled (s.issue e (insStore rs imm 4 f true)) := by
  unfold requestOf at hc
  split at hc
  case h_3 => cases hc
  all_goals
    obtain ⟨rfl, rfl, rfl, rfl⟩ : _ ∧ _ ∧ _ ∧ _ := by simpa only [Option.some.injEq, Prod.mk.injEq] using hc
    rfl

/-- Settles O9: the request is admitted to the window and goes into the buffer, which has room. -/
theorem requestsAreSetAside : Obligations.RequestsAreSetAside := by
  intro c e rs imm f s hc h hm hn ha h1 h2
  have runs := runStore_window (fd := { word := fetchWord s e }) (d := f (fetchedEng s e)) (s := fetchedState s e) (e := e)
    (by simp [singleReady_role h]) (by simp [hm]) (by simp [hn]) ha h1 h2
  have room : ∀ off d, (fetchedEng s e).request off d = _ := fun off d => request_room off d (by simp [hn])
  rw [eng_fetchedState, room] at runs
  rw [issue_ran (exec_requestOf s hc) h (legal_act _ _) runs (by simp [singleReady_role h]) (by simp; omega)]
  simp only [fetchedState, updEng_updEng, issued]
  exact congrArg (fun t => Host.Outcome.next (State.settle t)) (updEng_congr s e _ _ rfl)

end Sys2Proof.Laws
end

section
/-! A pair executing one stream (R206, R214, R215): the entry that the leader passes to its follower's queue, the follower's issue of
the word it takes from there, and the register instructions on both. -/

namespace Sys2Proof.Laws

open Sys2Proof Sys2Proof.Machine Sys2Proof.Safety

@[simp] theorem shadow_idx (x : Engine) (m : BitVec 2) : (x.shadow m).idx = x.idx := by unfold Engine.shadow; split <;> rfl
@[simp] theorem sequence_idx (x : Engine) (p : Word) : (x.sequence p).idx = x.idx := by
  unfold Engine.sequence; repeat' split
  all_goals rfl
@[simp] theorem setG_idx (x : Engine) (n : Nat) (v : Word) : (x.setG n v).idx = x.idx := by unfold Engine.setG; split <;> rfl
@[simp] theorem retire_idx (x o : Engine) : (x.retire o).idx = x.idx := by
  unfold Engine.retire
  cases o.ds with
  | none => simp
  | some d =>
    rcases d with ⟨branch, target, ends, mp, cellM⟩
    cases target with
    | none => simp
    | some t => cases ends <;> simp [Engine.endLoops]

/-- A leader that is ready, with its follower, can issue, and nothing comes first (R206, R215, R263). -/
theorem issue_pairReady {s : State} {e : Nat} {i : Ins} {k : State → State} {half : State → Bool → State} (h : PairReady s e) :
    s.issue e i k half =
      (let a := s.runOne e none i
       let t := a.s.pass e a.feed
       if (s.eng (e + 1)).stall || (s.eng (e + 1)).sealed then
         match a.trap with
         | none => (k t).overflow e
         | some r => t.consequence e r (s.running e)
       else
         let q := t.takeFeed (e + 1)
         let b := q.2.runOne (e + 1) (some q.1) i
         match a.trap, b.trap with
         | none, none => (k b.s).overflow e
         | some r, none => (half b.s false).consequence e r (s.running e)
         | none, some r => (half b.s true).consequence (e + 1) r (s.running e)
         | some r, some _ => b.s.consequence e r (s.running e)) := by
  obtain ⟨core, _, role, stall, sealed, dead, ⟨overrun, event, breakpoint⟩, _, _, _, _, _, _, _, queue, _, _⟩ := h
  have can : s.canIssue e = true := by simp [State.canIssue, core, role, stall, sealed, dead, queue]
  unfold State.issue
  rw [if_neg (by simp [can]), if_neg (by simp [role]), if_neg (by simp [overrun]), if_neg (by simp [event]),
    if_neg (by simp [breakpoint])]
  simp only [if_pos role] <;> rfl

/-- A follower issues the word that its leader has passed, where its own place can be fetched (R215). -/
theorem runOne_fed {s : State} {e : Nat} {i : Ins} {l : Feed} {place : Place}
    (hf : s.admitFetch e (s.eng e) (s.eng e).pc.toNat = .ok place) (h4 : (s.eng e).pc.toNat % 4 = 0) (hl : l.fetchBad = false)
    (hi : (s.eng e).illegal i = false) :
    s.runOne e (some l) i = (s.updEng e (fun x => x.fetched l.word)).runAct e (some l) { word := l.word }
      (i.act ((s.eng e).fetched l.word)) := by
  simp only [State.runOne, hf, hl, h4, hi, Bool.false_eq_true, if_false, ne_eq, not_true_eq_false, eng_updEng_same]

/-- A clean fetch is admitted, at an aligned address. -/
theorem cleanFetch_admitted {s : State} {e : Nat} (h : cleanFetch s e = true) :
    (s.eng e).pc.toNat % 4 = 0 ∧ ∃ place, s.admitFetch e (s.eng e) (s.eng e).pc.toNat = .ok place := by
  unfold cleanFetch at h
  rw [Bool.and_eq_true, decide_eq_true_eq] at h
  obtain ⟨aligned, admitted⟩ := h
  refine ⟨aligned, ?_⟩
  split at admitted
  · cases admitted
  · exact ⟨_, by assumption⟩
  · exact ⟨_, by assumption⟩

/-- A word that the leader passes to an empty queue is what its follower takes there, and the queue is empty again (R215). -/
theorem takeFeed_pass {s : State} {e : Nat} {w : Word} (hq : (s.eng (e + 1)).queue = [])
    (hi : (s.eng e).idx = (s.eng (e + 1)).idx + 1) :
    (s.pass e (some { word := w })).takeFeed (e + 1) = ({ word := w }, s.updEng (e + 1) id) := by
  have same : (s.updEng (e + 1) fun y => { y with queue := [] }) = s.updEng (e + 1) id := by
    refine updEng_congr s (e + 1) _ _ ?_
    generalize s.eng (e + 1) = y at hq
    cases y
    cases hq
    rfl
  rw [← same]
  simp only [State.pass, State.takeFeed, eng_updEng_same, updEng_updEng, Feed.entries, hq, hi, List.nil_append,
    List.takeWhile_cons, beq_self_eq_true, if_true, List.takeWhile_nil, Feed.of]
  exact congrArg _ (updEng_congr s (e + 1) _ _ (by simp [hq]))

theorem SameOwners.trans {s t u : State} (h : SameOwners s t) (k : SameOwners t u) : SameOwners s u := by
  obtain ⟨mems, cells, roles⟩ := h
  obtain ⟨mems', cells', roles'⟩ := k
  exact ⟨mems'.trans mems, cells'.trans cells, fun n => (roles' n).trans (roles n)⟩

/-- A leader whose follower has no more than 256 requests either, and no queue entry of failed parity, keeps its interval. -/
theorem overflow_pair {s : State} {e : Nat} (hr : (s.eng e).role = .leader) (hn : (s.eng e).nreq ≤ 256)
    (hf : (s.eng (e + 1)).nreq ≤ 256) (hq : (s.eng (e + 1)).qbad = false) : s.overflow e = s := by
  simp [State.overflow, hr, hq, hn, hf]

/-- A register instruction of a pair: the leader writes and retires, and so does its follower with the word passed to it. -/
theorem issue_pair_step {s : State} {e : Nat} {i : Ins} {y : Engine → Engine} (h : PairReady s e)
    (hi : ∀ x : Engine, x.illegal i = false) (ha : ∀ x, i.act x = .step (y x)) (hr : ∀ x, (y x).role = x.role)
    (hn : ∀ x, (y x).nreq = x.nreq) (hq : ∀ x, (y x).qbad = x.qbad) (hx : ∀ x, (y x).idx = x.idx) :
    s.issue e i = (issued s e (fun x => (y x).retire x)).updEng (e + 1) (fun x =>
      (y (x.fetched (fetchWord s e))).retire (x.fetched (fetchWord s e))) := by
  rw [issue_pairReady h]
  obtain ⟨_, _, role, _, _, _, _, nreq, fetch, frole, fstall, fsealed, fnreq, fqbad, queue, idx, ffetch⟩ := h
  have other : e + 1 ≠ e := by omega
  have lead : s.runOne e none i =
      { s := issued s e (fun x => (y x).retire x), trap := none, feed := some { word := fetchWord s e } } := by
    rw [runOne_clean s e i fetch (hi _), ha]
    simp only [State.runAct, State.ranOk, eng_updEng_same, updEng_updEng, issued]
    exact congrArg (fun t => Ran.mk t _ _) (updEng_congr s e _ _ rfl)
  have follower : (issued s e (fun x => (y x).retire x)).eng (e + 1) = s.eng (e + 1) := by
    rw [issued, eng_updEng, if_neg other]
  have taken : ((issued s e (fun x => (y x).retire x)).pass e (some { word := fetchWord s e })).takeFeed (e + 1) =
      ({ word := fetchWord s e }, (issued s e (fun x => (y x).retire x)).updEng (e + 1) id) :=
    takeFeed_pass (by rw [follower, queue]) (by rw [follower, eng_issued, retire_idx, hx, idx]; rfl)
  simp only [lead, fstall, fsealed, Bool.or_self, Bool.false_eq_true, if_false, taken]
  obtain ⟨aligned, place, admitted⟩ := cleanFetch_admitted ffetch
  have owners : SameOwners s ((issued s e (fun x => (y x).retire x)).updEng (e + 1) id) :=
    (sameOwners_updEng s e _ (by rw [retire_role, hr]; rfl)).trans (sameOwners_updEng _ (e + 1) id rfl)
  have fed : ((issued s e (fun x => (y x).retire x)).updEng (e + 1) id).runOne (e + 1) (some { word := fetchWord s e }) i =
      { s := (issued s e (fun x => (y x).retire x)).updEng (e + 1) (fun x =>
          (y (x.fetched (fetchWord s e))).retire (x.fetched (fetchWord s e))),
        trap := none, feed := some { word := fetchWord s e } } := by
    have at_ : ((issued s e (fun x => (y x).retire x)).updEng (e + 1) id).eng (e + 1) = s.eng (e + 1) := by
      rw [eng_updEng_same, follower, id]
    rw [runOne_fed (l := { word := fetchWord s e }) (place := place) (by rw [at_, owners.admitFetch rfl rfl, admitted])
      (by rw [at_, aligned]) rfl (hi _), ha]
    simp only [State.runAct, State.ranOk, eng_updEng_same, updEng_updEng]
    exact congrArg (fun t => Ran.mk t _ _) (updEng_congr _ _ _ _ rfl)
  simp only [fed, id]
  refine overflow_pair ?_ ?_ ?_ ?_
  · rw [eng_updEng, if_neg (Ne.symm other), eng_issued, retire_role, hr]
    exact role
  · rw [eng_updEng, if_neg (Ne.symm other), eng_issued, retire_nreq, hn]
    exact nreq
  · rw [eng_updEng_same, follower, retire_nreq, hn]
    exact fnreq
  · rw [eng_updEng_same, follower, retire_qbad, hq]
    exact fqbad

/-- Settles O2: each row of the table writes registers alone, so that leader and follower each retire it. -/
theorem pairRunsOneStream : Obligations.PairRunsOneStream := by
  intro c e rd f s hc h
  rw [exec_gResult s hc, issue_pair_step (y := fun x => x.setG rd (f x)) h (fun x => legal_insG x rd f) (fun x => rfl)
    (by simp) (by simp) (by simp) (by simp), doneSettled]

end Sys2Proof.Laws
end

section
/-! Faults, waits and events of an engine, and its short timers (R101, R102, R220, R221, R263, R267 to R272). -/

namespace Sys2Proof.Laws

open Sys2Proof Sys2Proof.Machine Sys2Proof.Safety

/-! ### Faults -/

@[simp] theorem fold_cellM (x : Engine) (n : Nat) (v : Word) : (x.fold n v).cellM = x.cellM := by unfold Engine.fold; split <;> rfl
@[simp] theorem fold_hnd (x : Engine) (n : Nat) (v : Word) : (x.fold n v).hnd = x.hnd := by unfold Engine.fold; split <;> rfl
@[simp] theorem fold_eve (x : Engine) (n : Nat) (v : Word) : (x.fold n v).eve = x.eve := by unfold Engine.fold; split <;> rfl
@[simp] theorem fold_la0 (x : Engine) (n : Nat) (v : Word) : (x.fold n v).la0 = x.la0 := by unfold Engine.fold; split <;> rfl
@[simp] theorem fold_la1 (x : Engine) (n : Nat) (v : Word) : (x.fold n v).la1 = x.la1 := by unfold Engine.fold; split <;> rfl
@[simp] theorem fold_mp (x : Engine) (n : Nat) (v : Word) : (x.fold n v).mp = x.mp := by unfold Engine.fold; split <;> rfl
@[simp] theorem fold_ds (x : Engine) (n : Nat) (v : Word) : (x.fold n v).ds = x.ds := by unfold Engine.fold; split <;> rfl
@[simp] theorem fold_eva (x : Engine) (n : Nat) (v : Word) : (x.fold n v).eva = x.eva := by unfold Engine.fold; split <;> rfl
@[simp] theorem fold_dead (x : Engine) (n : Nat) (v : Word) : (x.fold n v).dead = x.dead := by unfold Engine.fold; split <;> rfl

/-- Settles O12: outside a handler a fault is an entry, whose folds touch Whisk alone; in one it only stops the engine. -/
theorem faultsEnterTheVector : Obligations.FaultsEnterTheVector := by
  refine fun x cause eva fetch => ⟨fun hh => ?enters, fun hh => ?stops⟩
  case enters =>
    cases hd : x.ds with
    | none => simp [Engine.fault, hd, hh, Engine.enter, vector]
    | some d => simp [Engine.fault, hd, hh, Engine.enter, vector]
  case stops => cases hd : x.ds <;> simp [Engine.fault, hd, hh]

/-! ### Waits and events -/

@[simp] theorem shadow_events (x : Engine) (m : BitVec 2) : (x.shadow m).events = x.events := by
  unfold Engine.shadow; split <;> rfl
@[simp] theorem sequence_events (x : Engine) (p : Word) : (x.sequence p).events = x.events := by
  unfold Engine.sequence; repeat' split
  all_goals rfl
@[simp] theorem retire_events (x o : Engine) : (x.retire o).events = x.events := by
  unfold Engine.retire
  cases o.ds with
  | none => simp
  | some d =>
    rcases d with ⟨branch, target, ends, mp, cellM⟩
    cases target with
    | none => simp
    | some t => cases ends <;> simp [Engine.endLoops]
@[simp] theorem shadow_stall (x : Engine) (m : BitVec 2) : (x.shadow m).stall = x.stall := by
  unfold Engine.shadow; split <;> rfl
@[simp] theorem sequence_stall (x : Engine) (p : Word) : (x.sequence p).stall = x.stall := by
  unfold Engine.sequence; repeat' split
  all_goals rfl
@[simp] theorem retire_stall (x o : Engine) : (x.retire o).stall = x.stall := by
  unfold Engine.retire
  cases o.ds with
  | none => simp
  | some d =>
    rcases d with ⟨branch, target, ends, mp, cellM⟩
    cases target with
    | none => simp
    | some t => cases ends <;> simp [Engine.endLoops]

@[simp] theorem fold_events (x : Engine) (n : Nat) (v : Word) : (x.fold n v).events = x.events := by
  unfold Engine.fold; split <;> rfl
@[simp] theorem enter_events (x : Engine) (cause : Nat) (epc : Word) (bd fetch : Bool) (smp : BitVec 2) (eva : Word) (evn : Nat) :
    (x.enter cause epc bd fetch smp eva evn).events = x.events := by simp [Engine.enter]

/-- A command whose instruction changes the engine's registers alone, and what follows it. -/
theorem issue_step_then {s : State} {e : Nat} {i : Ins} {k : State → State} {half : State → Bool → State}
    {o : Host.Outcome State Fault Refusal} {y : Engine → Engine} (ho : o = doneSettled (s.issue e i k half)) (h : SingleReady s e)
    (hi : (s.eng e).illegal i = false) (ha : i.act (fetchedEng s e) = .step (y (fetchedEng s e))) :
    o = doneSettled ((k (issued s e (fun x => (y x).retire x))).overflow e) := by
  rw [ho, issue_single s e i k half h hi, ha]
  have result : ((s.updEng e (fun x => x.fetched (fetchWord s e))).runAct e none { word := fetchWord s e }
      (.step (y (fetchedEng s e)))).s = issued s e (fun x => (y x).retire x) := by
    simp only [State.runAct, State.ranOk, eng_updEng_same, updEng_updEng]
    exact updEng_congr s e _ _ rfl
  show doneSettled ((k (State.runAct _ e none _ _).s).overflow e) = _
  rw [result]

/-- A waiting engine, retired, stalls while no event is pending (R250). -/
def waiting (x : Engine) : Engine := { x.retire x with stall := decide (x.events = 0) }

@[simp] theorem waiting_role (x : Engine) : (waiting x).role = x.role := retire_role x x
@[simp] theorem waiting_nreq (x : Engine) : (waiting x).nreq = x.nreq := retire_nreq x x

/-- An engine that does not stall, retired, waits with an event pending as it is, and stalls with none. -/
theorem waiting_eq {x : Engine} (hs : x.stall = false) :
    waiting x = if x.events = 0 then { x.retire x with stall := true } else x.retire x := by
  unfold waiting
  by_cases none : x.events = 0
  · simp [none]
  · rw [if_neg none, decide_eq_false none, ← hs, ← retire_stall x x]

/-- What WAIT does after it has retired: it stalls a single engine with no event pending. -/
theorem wait_stalls {s : State} {e : Nat} (h : SingleReady s e) :
    (issued s e (fun x => x.retire x)).when (((issued s e (fun x => x.retire x)).eng e).events == 0)
      (fun t => t.updBoth e (fun x => { x with stall := true })) = issued s e waiting := by
  have stall : (fetchedEng s e).stall = false := by
    obtain ⟨_, _, stall, _⟩ := h
    exact stall
  have waits : (s.updEng e fun x => waiting (x.fetched (fetchWord s e))) = issued s e waiting := rfl
  rw [eng_issued, retire_events]
  by_cases none : (s.eng e).events = 0
  · rw [show (((s.eng e).fetched (fetchWord s e)).events == 0) = true from beq_iff_eq.mpr none, when_true,
      updBoth_single (by simp [singleReady_role h]), ← waits, issued, updEng_updEng]
    refine updEng_congr s e _ _ ?_
    exact ((waiting_eq stall).trans (if_pos none)).symm
  · rw [show (((s.eng e).fetched (fetchWord s e)).events == 0) = false from beq_eq_false_iff_ne.mpr none, ← waits]
    refine updEng_congr s e _ _ ?_
    exact ((waiting_eq stall).trans (if_neg none)).symm

/-- Settles O14: WAIT retires and stalls by the events pending; the lowest event of the boundary is entered. -/
theorem waitAndEvents : Obligations.WaitAndEvents := by
  refine ⟨fun e s h hp hm hv => ?wait, fun e n s hc hr hs hd hw ht hl => ?event⟩
  case wait =>
    have issues := issue_step_then (o := exec (.wait e) s) (y := id) rfl h (legal_plain hp (by simp [hm, hv])) rfl
    rw [issues]
    simp only [id]
    rw [wait_stalls h, overflow_single _ _ (by simp [singleReady_role h]) (by simp [singleReady_nreq h]), doneSettled]
    rfl
  case event =>
    have open_ : (s.eng e).sealed = false := by
      have := ht
      simp only [Engine.takesEvents, Bool.and_eq_true, Bool.not_eq_true'] at this
      exact this.2
    have boundary : (s.canIssue e && (s.eng e).role != .halted) = true := by simp [State.canIssue, hr, hs, hd, hc, open_]
    have pending : s.interrupted e = true := by simp [State.interrupted, ht, hl, hr]
    have takes : exec (.eventEntry e) s = doneSettled (s.takeEvent e) :=
      (if_pos boundary).trans ((if_neg (by simp [hw])).trans (if_pos pending))
    rw [takes, State.takeEvent, hl, doneSettled]
    simp only [updBoth_single (s := s) (e := e) (f := fun y => y.enter 7 y.pc false false y.mp 0 n) (by simp [Engine.enter, hr]),
      updEng_updEng, enter_events]

/-! ### Timers -/

/-- A timer that fires on a single engine sets its bit and its event there (R101, R102, R272). -/
theorem etSet_single {s : State} {e : Nat} (i : Nat) (hr : (s.eng e).role = .single) :
    s.etSet e i = s.updEng e (fun x => { x with
      etStat := setBit x.etStat i true
      et := Tab.upd {} x.et i (fun t => if bit x.etMode i then { t with count := t.value } else { t with armed := false })
      events := setBit x.events i true, stall := false }) := by
  unfold State.etSet
  generalize hf : (fun x : Engine => { x with
    etStat := setBit x.etStat i true
    et := Tab.upd {} x.et i (fun t => if bit x.etMode i then { t with count := t.value } else { t with armed := false }) }) = f
  have single : ((s.updEng e f).eng e).role = .single := by rw [eng_updEng_same, ← hf]; exact hr
  simp only [State.event, head_single single, updEng_updEng, eng_updEng_same]
  subst hf
  exact if_neg (by simp [hr])

theorem when_prop {P : State → Prop} {s : State} {c : Bool} {f : State → State} (h : P s) (hf : P (f s)) : P (s.when c f) := by
  cases c
  · exact h
  · exact hf

/-- A write to a timer leaves the role and the requests of a single engine. -/
theorem etValue_role_nreq {s : State} {e : Nat} (i : Nat) (v : Word) (hr : (s.eng e).role = .single) :
    ((s.etValue e i v).eng e).role = .single ∧ ((s.etValue e i v).eng e).nreq = (s.eng e).nreq := by
  unfold State.etValue
  split
  · simp [hr]
  · extract_lets t
    have single : (t.eng e).role = .single ∧ (t.eng e).nreq = (s.eng e).nreq := by simp [t, hr]
    refine when_prop (P := fun u => (u.eng e).role = .single ∧ (u.eng e).nreq = (s.eng e).nreq) single ?_
    rw [etSet_single i single.1, eng_updEng_same]
    exact single

@[simp] theorem setEtMode_role (x : Engine) (v : Word) : (x.setEtMode v).role = x.role := rfl
@[simp] theorem setEtMode_nreq (x : Engine) (v : Word) : (x.setEtMode v).nreq = x.nreq := rfl
@[simp] theorem setWd_role (x : Engine) (v : Word) : (x.setWd v).role = x.role := rfl
@[simp] theorem setWd_nreq (x : Engine) (v : Word) : (x.setWd v).nreq = x.nreq := rfl

/-- A store of a single engine to its timers, admitted there, writes them and retires. -/
theorem runStore_clock {s : State} {e : Nat} {fd : Feed} {a d : Word} (ha : a.toNat % 4 = 0) (h1 : 0x20000000 ≤ a.toNat)
    (h2 : a.toNat < 0x20000200) (hm : s.admitClock e (s.eng e) true (a.toNat - 0x20000000) = true)
    (hr : ((s.clockWrite e (a.toNat - 0x20000000) d).eng e).role = .single) :
    s.runStore e none fd false a 4 d =
      (s.clockWrite e (a.toNat - 0x20000000) d).ranOk e ((s.clockWrite e (a.toNat - 0x20000000) d).eng e)
        ((s.clockWrite e (a.toNat - 0x20000000) d).eng e) fd := by
  have admitted : s.admitData e (s.eng e) true a.toNat 4 = .ok .clock := by
    rw [State.admitData, if_neg (not_not.mpr ha), if_neg (by omega), if_neg (by omega), if_pos ⟨h1, h2⟩, if_neg (by decide),
      if_pos hm]
  simp only [State.runStore, admitted, Bool.false_and, Bool.false_eq_true, if_false, reduceCtorEq,
    fold_single _ hr (show singleKind 2 = false from rfl), fold_single _ hr (show singleKind 3 = false from rfl)]

/-- A command that stores to a timer register of its own engine writes it and retires. -/
theorem issue_clock {s t : State} {e off : Nat} {a v : Word} {o : Host.Outcome State Fault Refusal}
    (ho : o = doneSettled (s.issue e { act := fun _ => .store false a 4 v })) (h : SingleReady s e)
    (ha : a.toNat = 0x20000000 + off) (h4 : off % 4 = 0) (h2 : off < 0x200)
    (hm : (fetchedState s e).admitClock e (fetchedEng s e) true off = true)
    (ht : (fetchedState s e).clockWrite e off v = t) (hr : (t.eng e).role = .single) (hn : (t.eng e).nreq ≤ 256) :
    o = .next (t.updEng e (fun x => x.retire x)).settle := by
  have place : a.toNat - 0x20000000 = off := by omega
  have runs := runStore_clock (s := fetchedState s e) (e := e) (fd := { word := fetchWord s e }) (a := a) (d := v) (by omega)
    (by omega) (by omega) (by rw [eng_fetchedState, place]; exact hm) (by rw [place, ht]; exact hr)
  rw [place, ht] at runs
  rw [issue_ran ho h (legal_act _ _) runs hr hn]
  exact congrArg (fun t => Host.Outcome.next (State.settle t)) (updEng_congr _ e _ _ rfl)

/-- Settles O17: on a single engine a timer fires into its own events, a timer register is a store of the clock's place, and the
overrun is the engine's own or a mismatch of its pair. -/
theorem engineTimers : Obligations.EngineTimers := by
  refine ⟨fun e n s ha hm hv hr hl => ?fire, fun e n s ha hm hc hr => ?reload, fun e n v s h => ?value, fun e v s h => ?mode,
    fun e v s h hm => ?watchdog, fun e s hc hr hd hw => ?overrun, fun k e s he hc hr hd hw => ?alone⟩
  case fire =>
    have due : etDue (s.tb.tb.extractLsb' 0 32) (Tab.get {} (s.eng e).et n).value = true := decide_eq_true hv
    have fires : exec (.etFire e n) s = doneSettled (s.etSet e n) := if_pos (by rw [ha, hm, due, hl]; rfl)
    rw [fires, doneSettled, etSet_single n hr]
    refine congrArg (fun t => Host.Outcome.next (State.settle t)) (updEng_congr s e _ _ ?_)
    simp only [hm, Bool.false_eq_true, if_false]
  case reload =>
    have fires : exec (.etReload e n) s = doneSettled (s.etSet e n) := if_pos (by rw [ha, hm, hc]; rfl)
    rw [fires, doneSettled, etSet_single n hr]
    refine congrArg (fun t => Host.Outcome.next (State.settle t)) (updEng_congr s e _ _ ?_)
    simp only [hm, if_true]
  case value =>
    have writes : (fetchedState s e).clockWrite e (0x10 + 4 * n.val) v = (issued s e id).etValue e n v := by
      rw [State.clockWrite, if_pos (by omega), show (0x10 + 4 * n.val - 0x10) / 4 = n.val by omega]
      rfl
    have kept := etValue_role_nreq (s := issued s e id) (e := e) n v (by simpa using singleReady_role h)
    refine issue_clock rfl h (by rw [BitVec.toNat_ofNat]; omega) (by omega) (by omega) ?_ writes kept.1 ?_
    · rw [State.admitClock, if_neg (by omega), if_neg (by omega), if_pos (by omega)]
    · simpa [kept.2] using singleReady_nreq h
  case mode =>
    have writes : (fetchedState s e).clockWrite e 0x20 v = issued s e (fun x => x.setEtMode v) := updEng_updEng _ _ _ _
    rw [issue_clock (o := exec (.etModeWrite e v) s) (a := 0x20000020#32) (off := 0x20) rfl h rfl (by decide) (by decide) rfl writes (by simpa using singleReady_role h)
      (by simpa using singleReady_nreq h), issued, updEng_updEng]
    rfl
  case watchdog =>
    have writes : (fetchedState s e).clockWrite e 0x30 v = issued s e (fun x => x.setWd v) := updEng_updEng _ _ _ _
    rw [issue_clock (o := exec (.etWdWrite e v) s) (a := 0x20000030#32) (off := 0x30) rfl h rfl (by decide) (by decide) (by simp [State.admitClock, hm]) writes
      (by simpa using singleReady_role h) (by simpa using singleReady_nreq h), issued, updEng_updEng]
    rfl
  case overrun =>
    have single : (s.eng e).onPair = false := by simp [Engine.onPair, hr]
    exact (if_pos (by simp [hw, hd, hc])).trans ((if_neg (by simp [single])).trans (if_pos hr))
  case alone =>
    have paired : (s.eng e).onPair = true := by simp [Engine.onPair, hr]
    have head : s.head e / 2 = k := by rw [State.head, if_neg (by simp [hr])]; omega
    rw [← head]
    exact (if_pos (by simp [hw, hd, hc])).trans ((if_pos paired).trans (if_neg (by decide)))

end Sys2Proof.Laws
end

section
/-! Checkpoints (R217 to R220, R229, R276) and what a commit that takes effect writes (R290 to R292). -/

namespace Sys2Proof.Laws

open Sys2Proof Sys2Proof.Machine Sys2Proof.Safety

@[simp] theorem when_false (s : State) (f : State → State) : s.when false f = s := rfl

/-! ### What a retired instruction leaves of the interval -/

@[simp] theorem shadow_whisk (x : Engine) (m : BitVec 2) : (x.shadow m).whisk = x.whisk := by unfold Engine.shadow; split <;> rfl
@[simp] theorem shadow_newV (x : Engine) (m : BitVec 2) : (x.shadow m).newV = x.newV := by unfold Engine.shadow; split <;> rfl
@[simp] theorem sequence_whisk (x : Engine) (p : Word) : (x.sequence p).whisk = x.whisk := by
  unfold Engine.sequence; repeat' split
  all_goals rfl
@[simp] theorem sequence_cell (x : Engine) (p : Word) : (x.sequence p).cell = x.cell := by
  unfold Engine.sequence; repeat' split
  all_goals rfl
@[simp] theorem sequence_newV (x : Engine) (p : Word) : (x.sequence p).newV = x.newV := by
  unfold Engine.sequence; repeat' split
  all_goals rfl

/-- Retiring leaves Whisk, the cell dispatched and its run. -/
theorem retire_interval (x o : Engine) :
    (x.retire o).whisk = x.whisk ∧ (x.retire o).cell = x.cell ∧ (x.retire o).newV = x.newV := by
  unfold Engine.retire
  cases o.ds with
  | none => simp
  | some d =>
    rcases d with ⟨branch, target, ends, mp, cellM⟩
    cases target with
    | none => simp
    | some t => cases ends <;> simp [Engine.endLoops]

/-- The version of the cell dispatched on a single engine goes by the engine and its cell. -/
theorem runVer_dispatched {s : State} {e c : Nat} (hr : (s.eng e).role = .single) (hc : (s.eng e).cell = some c) :
    s.runVer e = if (s.eng e).newV && (s.cell c).nver.isSome then (s.cell c).nver else (s.cell c).ver := by
  simp [State.runVer, running_dispatched hr hc, head_single hr]

/-- The reference that a single engine's checkpoint is held to, where a cell is dispatched (R219). -/
theorem checkpoint_single {s : State} {e c : Nat} {v : CellImg} (ident : Half) (x y : Bool) (hr : (s.eng e).role = .single)
    (hc : (s.eng e).cell = some c) (hv : s.runVer e = some v) :
    s.checkpoint e ident x y =
      if (v.refs.find? (fun r => r.1 == ident.toNat)).map (·.2) = some (whiskSeal (s.eng e).whisk ident) then
        ((s.commit e).noteCheck e).updEng e (fun x => x.reseed)
      else s.singleFail e := by
  simp only [State.checkpoint, hr, reduceCtorEq, if_false]
  rw [hc, hv]
  rfl

/-- A commit and its note leave the engines. -/
@[simp] theorem commit_eng (s : State) (e k : Nat) : (s.commit e).eng k = s.eng k := rfl
@[simp] theorem noteCheck_eng (s : State) (e k : Nat) : (s.noteCheck e).eng k = s.eng k := by
  unfold State.noteCheck
  split
  · rfl
  · unfold State.when
    split <;> rfl

/-- The checkpoint that a CHKP makes on a single engine, once it has retired. -/
theorem exec_chkp_single {s : State} {e : Fin 64} {ident : Half} {x y par : Bool} {c : Nat} {v : CellImg} (h : SingleReady s e)
    (hp : PlainPlace (s.eng e)) (hc : (s.eng e).cell = some c) (hv : s.runVer e = some v) :
    exec (.chkp e ⟨ident, x, y, par⟩) s =
      doneSettled ((if (v.refs.find? (fun r => r.1 == ident.toNat)).map (·.2) = some (whiskSeal (s.eng e).whisk ident) then
          (((issued s e (fun x => x.retire x)).commit e).noteCheck e).updEng e (fun x => x.reseed)
        else (issued s e (fun x => x.retire x)).singleFail e).overflow e) := by
  have issues := issue_step_then (o := exec (.chkp e ⟨ident, x, y, par⟩) s) (y := id) rfl h (legal_plain hp rfl) rfl
  have ⟨whisk, cell, newV⟩ := retire_interval (fetchedEng s e) (fetchedEng s e)
  have retired : (issued s e (fun x => x.retire x)).eng e = (fetchedEng s e).retire (fetchedEng s e) := eng_issued _ _ _
  have role : ((issued s e (fun x => x.retire x)).eng e).role = .single := by simp [singleReady_role h]
  have dispatched : ((issued s e (fun x => x.retire x)).eng e).cell = some c := by rw [retired, cell]; exact hc
  have ver : (issued s e (fun x => x.retire x)).runVer e = some v := by
    rw [runVer_dispatched role dispatched, retired, newV, ← hv, runVer_dispatched (singleReady_role h) hc]
    rfl
  rw [issues]
  simp only [id]
  rw [if_neg (by rw [role]; simp), checkpoint_single ident x y role dispatched ver, retired, whisk]
  rfl

/-! ### Commits -/

theorem slot_updSlot (s : State) (o i p j : Nat) (f : Slot → Slot) :
    (s.updSlot o i f).slot p j = if 4 * p + j = 4 * o + i then f (s.slot o i) else s.slot p j := by
  simp only [State.updSlot, State.mapSlots, Permits.updSlots, State.slot, get_upd]

/-- A permit request of a cell that owns a slot of the output, with no change held and no group in STO, writes its bit (R290, R291). -/
theorem commitPermit_writes {s : State} {c o i : Nat} {d : Word} (hs : s.slotOf c o = some i) (hh : s.heldArmed c = false)
    (hg : s.stoHolds c o = false) :
    s.commitPermit c o false d = (s.unhold (4 * o + i) false).updSlot o i (fun x => x.commit false (decide (d = 1)) s.now) := by
  have on : (d == 1) = decide (d = 1) := rfl
  simp only [State.commitPermit, hs, hh, hg, on, Bool.and_false, Bool.not_false, Bool.and_true, Bool.false_eq_true, if_false]

/-! ### What reporting a pair's state leaves -/

@[simp] theorem hifEvt_engs (s : State) (i : Nat) : (s.hifEvt i).engs = s.engs := by rw [hifEvt_frame]
@[simp] theorem hifEvt_perm (s : State) (i : Nat) : (s.hifEvt i).perm = s.perm := by rw [hifEvt_frame]
@[simp] theorem record_engs (s : State) (a : RecArg) : (s.record a).engs = s.engs := by rw [record_frame]
@[simp] theorem record_perm (s : State) (a : RecArg) : (s.record a).perm = s.perm := by rw [record_frame]
@[simp] theorem cellEvt_engs (s : State) (i : Nat) : (s.cellEvt i).engs = s.engs := by simp [State.cellEvt, State.mark]
@[simp] theorem cellEvt_perm (s : State) (i : Nat) : (s.cellEvt i).perm = s.perm := by simp [State.cellEvt, State.mark]
@[simp] theorem refreshPair_engs (s : State) (k : Nat) : (s.refreshPair k).engs = s.engs := by
  unfold State.refreshPair State.setPair
  repeat' split
  all_goals rfl
@[simp] theorem refreshPair_perm (s : State) (k : Nat) : (s.refreshPair k).perm = s.perm := by
  unfold State.refreshPair State.setPair
  repeat' split
  all_goals rfl
@[simp] theorem regain_engs (s : State) (c kind : Nat) : (s.regain c kind).engs = s.engs := by
  unfold State.regain State.cellRec
  extract_lets x y u v
  repeat' split
  all_goals simp [v, u]
@[simp] theorem regain_perm (s : State) (c kind : Nat) : (s.regain c kind).perm = s.perm := by
  unfold State.regain State.cellRec
  extract_lets x y u v
  repeat' split
  all_goals simp [v, u]
@[simp] theorem noteCheck_engs (s : State) (e : Nat) : (s.noteCheck e).engs = s.engs := by
  unfold State.noteCheck State.when
  repeat' split
  all_goals rfl
@[simp] theorem noteCheck_perm (s : State) (e : Nat) : (s.noteCheck e).perm = s.perm := by
  unfold State.noteCheck State.when
  repeat' split
  all_goals rfl
@[simp] theorem soundPair_engs (s : State) (k : Nat) : (s.soundPair k).engs = s.engs := by
  unfold State.soundPair State.when
  repeat' split
  all_goals simp
@[simp] theorem soundPair_perm (s : State) (k : Nat) : (s.soundPair k).perm = s.perm := by
  unfold State.soundPair State.when
  repeat' split
  all_goals simp

/-- A pair that has formed stays so under a matching checkpoint. -/
theorem formPair_formed {s : State} {k : Nat} (h : (s.epair k).formed = true) : s.formPair k = s := if_pos h

@[simp] theorem newSkew_eng (s : State) (k e : Nat) : (s.newSkew k).eng e = s.eng e := rfl
@[simp] theorem updEPair_eng (s : State) (k e : Nat) (f : EPair → EPair) : (s.updEPair k f).eng e = s.eng e := rfl
theorem newSkew_formed (s : State) (k : Nat) : ((s.newSkew k).epair k).formed = (s.epair k).formed := by
  have h := epair_updEPair_same s k (fun p => p.setSkew (BitVec.ofNat 4 (2 + Config.freeNat s.fresh % 14)))
  exact (congrArg EPair.formed h).trans rfl

/-- A pair whose comparators both report a match, before the frames of the report: its leader's requests wait, both engines begin a
new interval. -/
def compared (s : State) (k : Nat) : State :=
  ((((s.commit (2 * k)).updEng (2 * k) (fun x => { x.reseed with sealed := false })).updEng (2 * k + 1)
    (fun x => { x.reseed with sealed := false })).updEPair k (fun p => { p with l := none, f := none })).newSkew k

theorem comparePair_equal {s : State} {k : Nat} {l : Word} (h : (s.epair k).formed = true) :
    s.comparePair k l l false false = ((compared s k).noteCheck (2 * k)).soundPair k := by
  have formed : ((compared s k).epair k).formed = true := by
    unfold compared
    rw [newSkew_formed, epair_updEPair_same]
    exact h
  unfold State.comparePair
  simp only [ne_eq, not_true_eq_false, if_false, beq_self_eq_true, Bool.true_eq_false]
  show (((compared s k).formPair k).noteCheck (2 * k)).soundPair k = _
  rw [formPair_formed formed]

theorem compared_eng (s : State) (k e : Nat) (he : e = 2 * k ∨ e = 2 * k + 1) :
    (compared s k).eng e = { (s.eng e).reseed with sealed := false } := by
  unfold compared
  rcases he with rfl | rfl <;> simp [eng_updEng]

/-- Settles O16: by the two verdicts, each of which leaves one branch of the compare. -/
theorem pairCheckpointCompares : Obligations.PairCheckpointCompares := by
  intro k l f s
  refine ⟨fun h => ?_, fun x => ?_, fun h formed => ?_⟩
  · simp [State.comparePair, h]
  · simp [State.comparePair]
  · subst h
    rw [comparePair_equal formed]
    have engs : ∀ e, ((((compared s k).noteCheck (2 * k)).soundPair k).eng e) = (compared s k).eng e := fun e => by
      unfold State.eng
      simp
    refine ⟨?_, ?_, ?_, ?_, ?_⟩
    · rw [engs, compared_eng s k _ (.inl rfl)]; rfl
    · rw [engs, compared_eng s k _ (.inl rfl)]; rfl
    · rw [engs, compared_eng s k _ (.inr rfl)]; rfl
    · rw [engs, compared_eng s k _ (.inr rfl)]; rfl
    · simp only [soundPair_perm, noteCheck_perm]
      rfl

/-- A test checkpoint of a single engine that has issued it begins a new interval. -/
theorem exec_chkpTest_single {s : State} {e : Fin 64} {ident : Half} {x y : Bool} (h : SingleReady s e) (hp : PlainPlace (s.eng e))
    (hc : (s.eng e).cellM = false) :
    exec (.chkpTest e ident x y) s = .next (issued s e (fun x => (x.retire x).reseed)).settle := by
  have issues := issue_step_then (o := exec (.chkpTest e ident x y) s) (y := id) rfl h (legal_plain hp hc) rfl
  have role : ((issued s e (fun x => x.retire x)).eng e).role = .single := by simp [eng_issued, singleReady_role h]
  have test : (issued s e (fun x => x.retire x)).testCheckpoint e ident x y = issued s e (fun x => (x.retire x).reseed) := by
    unfold State.testCheckpoint
    rw [if_neg (by rw [role]; simp)]
    exact updEng_updEng _ _ _ _
  rw [issues]
  show doneSettled (((issued s e (fun x => x.retire x)).testCheckpoint e ident x y).overflow e) = _
  rw [test, overflow_single _ _ (by rw [eng_issued]; simp [Engine.reseed, singleReady_role h]) (by rw [eng_issued]; exact Nat.zero_le _)]
  rfl

/-- A test checkpoint of a pair with equal seals begins an interval in both engines; a comparator that misses is a fault. -/
theorem testCheckpoint_leader {s : State} {e : Nat} {ident : Half} (x y : Bool) (hr : (s.eng e).role = .leader)
    (hs : whiskSeal (s.eng e).whisk ident = whiskSeal (s.eng (e + 1)).whisk ident) :
    s.testCheckpoint e ident x y =
      ((s.updEng e Engine.reseed).updEng (e + 1) Engine.reseed).when (x || y) (fun s => s.comparatorFault (e / 2)) := by
  unfold State.testCheckpoint
  rw [if_pos hr, if_neg (not_not.mpr hs)]
  have role : ((s.updEng e Engine.reseed).eng e).role = .leader := by rw [eng_updEng_same]; exact hr
  have both : s.updBoth e (fun x => x.reseed) = (s.updEng e Engine.reseed).updEng (e + 1) Engine.reseed := by
    unfold State.updBoth
    change (s.updEng e Engine.reseed).when (((s.updEng e Engine.reseed).eng e).role == .leader) (fun s => s.updEng (e + 1) Engine.reseed) = _
    rw [role]
    rfl
  rw [both]

/-- The one permit request of a cell, for output o, as a commit takes it. -/
def permitJob (c o : Nat) (v : CellImg) (d : Word) : Taking :=
  { cell := c, ver := v, newV := false, reqs := [{ slot := false, off := 4 * o, data := d }] }

theorem jobGroups_permitJob (s : State) (c : Nat) {o : Nat} (v : CellImg) (d : Word) (ho : o < 64) :
    s.jobGroups (permitJob c o v d) = s := by
  have group : ¬ 0x400 ≤ 4 * o := by omega
  have speed : ¬ 0x600 ≤ 4 * o := by omega
  simp only [State.jobGroups, Taking.win, permitJob, List.filter_cons, List.filter_nil, Bool.not_false, if_true, group, speed,
    decide_false, Bool.false_and, Bool.false_eq_true, if_false, List.foldl_nil]

theorem slots_permitJob (c o : Nat) (v : CellImg) (d : Word) : (permitJob c o v d).slots = [] := by
  simp [Taking.slots, permitJob]

theorem jobWords_permitJob (s : State) (c : Nat) {o : Nat} (v : CellImg) (d : Word) (ho : o < 64) :
    s.jobWords (permitJob c o v d) = s.commitPermit c o false d := by
  have place : 4 * o / 4 = o := by omega
  have low : 4 * o < 0x100 := by omega
  have word : ∀ t : State, t.commitWord v false (4 * o) d = t := fun t => by
    unfold State.commitWord
    rw [if_neg (by omega), if_neg (by omega), if_neg (by omega)]
  simp only [State.jobWords, Taking.win, permitJob, List.filter_cons, List.filter_nil, Bool.not_false, if_true, low, decide_true,
    List.foldl_cons, List.foldl_nil, place, word]

/-- A waiting commit with the one permit request of a running cell writes its bit, and nothing else (R290, R291). -/
theorem takeEffect_permit {s : State} {c o i : Nat} {d : Word} {v : CellImg} (hv : (s.cell c).ver = some v) (ho : o < 64)
    (hd : s.perm.due = [{ eng := (s.cell c).eng, cell := some c, newV := false, reqs := [{ slot := false, off := 4 * o, data := d }] }])
    (hs : s.slotOf c o = some i) (hh : s.heldArmed c = false) (hg : s.stoHolds c o = false) :
    s.takeEffect = ({ s with perm := { s.perm with due := [] } }.unhold (4 * o + i) false).updSlot o i
      (fun x => x.commit false (decide (d = 1)) s.now) := by
  have jobs : s.perm.due.flatMap s.jobs = [permitJob c o v d] := by
    simp [hd, State.jobs, hv, lastReqs, permitJob]
  unfold State.takeEffect State.takeJobs
  rw [jobs]
  simp only [List.foldl_cons, List.foldl_nil, List.flatMap_cons, List.flatMap_nil, List.append_nil, jobGroups_permitJob _ c v d ho,
    slots_permitJob, jobWords_permitJob _ c v d ho]
  exact commitPermit_writes hs hh hg

/-- Settles O15: a checkpoint by its reference, a commit by its one request, and the test form by the role of its engine. -/
theorem checkpointsCommitAndTest : Obligations.CheckpointsCommitAndTest := by
  refine ⟨fun e ident x y par c v s h hp hc hv => ⟨fun he => ?_, fun he => ?_⟩, fun c o i d v s hv ho hi hd hs hh hg => ?_,
    fun e ident x y s h hp hc => exec_chkpTest_single h hp hc, fun e ident s hr hs => ⟨?_, ?_⟩⟩
  · rw [exec_chkp_single h hp hc hv, if_pos he, overflow_single]
    · rfl
    · simp [eng_issued, Engine.reseed, singleReady_role h]
    · simp [Engine.reseed]
  · rw [exec_chkp_single h hp hc hv, if_neg he]
    rfl
  · rw [takeEffect_permit hv ho hd hs hh hg]
    refine ⟨?_, ?_, rfl, fun p j hj hp => ?_⟩
    · rw [slot_updSlot, if_pos rfl]; rfl
    · rw [slot_updSlot, if_pos rfl]; rfl
    · rw [slot_updSlot, if_neg (by omega)]
      rfl
  · rw [testCheckpoint_leader false false hr hs, Bool.or_false, when_false]
  · rw [testCheckpoint_leader true false hr hs, Bool.or_false, when_true]

end Sys2Proof.Laws
end

section
/-! What the store's work can do: it changes the store, the queue pairs that its completions go to, events, records and check-value
units, and the availability counts, and nothing else of the module. -/

namespace Sys2Proof.Laws

open Sys2Proof Sys2Proof.Machine Sys2Proof.Safety

/-- `t` is `s` but for what the store's work and its reports change. -/
def Books (s t : State) : Prop :=
  t = { s with
    hif := { s.hif with qps := t.hif.qps, evt := t.hif.evt, pend := t.hif.pend }
    store := t.store
    recs := t.recs
    recSeq := t.recSeq
    port := t.port
    setNow := t.setNow
    cells := t.cells
    avail := t.avail
    cvus := t.cvus
    fresh := t.fresh }

theorem Books.refl (s : State) : Books s s := rfl

theorem books_store (s : State) (x : Store) : Books s { s with store := x } := rfl

theorem Books.trans {s t u : State} (h : Books s t) (k : Books t u) : Books s u := by
  unfold Books at *
  rw [k, h]

theorem books_when {s : State} {c : Bool} {f : State → State} (h : Books s (f s)) : Books s (s.when c f) := by
  unfold State.when
  split
  · exact h
  · exact Books.refl s

theorem books_foldl {β : Type} (f : State → β → State) (h : ∀ s b, Books s (f s b)) (l : List β) : ∀ s, Books s (l.foldl f s) := by
  induction l with
  | nil => exact Books.refl
  | cons b l ih => intro s; exact (h s b).trans (ih (f s b))

theorem books_each (n : Nat) (f : State → Nat → State) (h : ∀ s b, Books s (f s b)) (s : State) : Books s (s.each n f) :=
  books_foldl f h _ s

theorem books_raise (s : State) (v : Nat) : Books s (s.raise v) := by
  unfold State.raise
  split <;> rfl

theorem books_hifEvt (s : State) (i : Nat) : Books s (s.hifEvt i) := by
  unfold State.hifEvt
  extract_lets was src t
  exact Books.trans (t := t) rfl (books_when (books_raise _ 0))

theorem books_record (s : State) (a : RecArg) : Books s (s.record a) := by
  unfold State.record
  extract_lets site r
  exact Books.trans (t := { s with recs := (r :: s.recs).take 4096, recSeq := s.recSeq + 1 }) rfl (books_hifEvt _ 0)

theorem books_storeEvt (s : State) (i : Nat) : Books s (s.storeEvt i) := rfl

theorem books_log (s : State) (a : LogArg) : Books s (s.log a) := by
  unfold State.log
  repeat' split
  all_goals rfl

/-- `t` is `s` but for the queue pairs, the pending vectors and what the port sends: what a completion can change. -/
def Answered (s t : State) : Prop :=
  t = { s with hif := { s.hif with qps := t.hif.qps, pend := t.hif.pend }, port := t.port }

theorem Answered.trans {s t u : State} (h : Answered s t) (k : Answered t u) : Answered s u := by
  unfold Answered at *
  rw [k, h]

theorem Answered.books {s t : State} (h : Answered s t) : Books s t := by
  rw [h]
  rfl

theorem answered_when {s : State} {c : Bool} {f : State → State} (h : Answered s (f s)) : Answered s (s.when c f) := by
  unfold State.when
  split
  · exact h
  · exact rfl

theorem answered_raise (s : State) (v : Nat) : Answered s (s.raise v) := by
  unfold State.raise
  split <;> rfl

theorem answered_emit (s : State) (e : Emit) : Answered s (s.emit e) := rfl
theorem answered_updQp (s : State) (q : Nat) (f : Qp → Qp) : Answered s (s.updQp q f) := rfl

theorem answered_countIrq (s : State) (q : Nat) (b : Bool) : Answered s (s.countIrq q b) := by
  unfold State.countIrq
  extract_lets n fire t
  split
  · exact rfl
  · exact (answered_updQp s q _).trans (answered_when (answered_raise t _))

theorem answered_writeCqe (s : State) (q : Nat) (h : HeldC) (b : Bool) : Answered s (s.writeCqe q h b) := by
  unfold State.writeCqe
  extract_lets x t u v
  have h1 : Answered s t := answered_when (answered_emit _ _)
  have h2 : Answered t u := answered_emit _ _
  have h3 : Answered u v := answered_updQp _ _ _
  exact (((h1.trans h2).trans h3).trans (answered_countIrq _ _ _)).trans (answered_updQp _ _ _)

theorem answered_complete (s : State) (q : Nat) (d : Desc) (r : Result) : Answered s (s.complete q d r) := by
  unfold State.complete
  extract_lets t h
  have h1 : Answered s t := answered_updQp _ _ _
  repeat' split
  · exact h1
  · exact h1.trans (answered_updQp _ _ _)
  · exact h1
  · exact h1.trans (answered_updQp _ _ _)
  · exact h1.trans (answered_updQp _ _ _)
  · exact h1.trans (answered_writeCqe _ _ _ _)

theorem books_writeCqe (s : State) (q : Nat) (h : HeldC) (b : Bool) : Books s (s.writeCqe q h b) := (answered_writeCqe s q h b).books

theorem books_complete (s : State) (q : Nat) (d : Desc) (r : Result) : Books s (s.complete q d r) := (answered_complete s q d r).books

theorem books_cvuDo (s : State) (n : Nat) (f : Cvu → Cvu) : Books s (s.cvuDo n f) := by
  unfold State.cvuDo
  extract_lets was t now
  exact Books.trans (t := t) rfl (books_each _ _ (fun s i => by apply books_when; rfl) _)

theorem books_cvuItem (s : State) (src bank lane area : Nat) (key : Word) (bytes : List Byte) :
    Books s (s.cvuItem src bank lane area key bytes) := by
  unfold State.cvuItem
  split
  · exact Books.refl s
  · exact books_each _ _ (fun s n => books_when (books_cvuDo _ _ _)) _

theorem books_availFlush (s : State) (c : Nat) : Books s (s.availFlush c) := by
  unfold State.availFlush
  split <;> rfl

theorem books_availSweep (s : State) : Books s s.availSweep := by
  unfold State.availSweep
  extract_lets t
  have h1 : Books s t := books_foldl _ (fun s c => books_when (books_availFlush _ _)) _ s
  exact h1.trans (books_foldl _ (fun s c => by apply books_when; rfl) _ t)

theorem books_availStop (s : State) : Books s s.availStop := books_foldl _ books_availFlush _ s

theorem books_updBankS (s : State) (b : Bool) (f : BankS → BankS) : Books s (s.updBankS b f) := by
  unfold State.updBankS
  split <;> rfl

theorem books_updRole (s : State) (r : Role) (f : RoleS → RoleS) : Books s (s.updRole r f) := by
  cases r <;> rfl

/-! ### The log's pages -/

theorem books_checkLog90 (s : State) (n : Nat) : Books s (s.checkLog90 n) :=
  books_when ((books_storeEvt s 0).trans (books_raise _ 0))

theorem books_holdLog (s : State) : Books s s.holdLog := by
  unfold State.holdLog
  extract_lets held gone n src t
  exact Books.trans (t := t) rfl (books_when (books_storeEvt t 1))

theorem books_programEntry (s : State) (e : LogE) : Books s (s.programEntry e) := rfl

theorem books_logPage (s : State) (x : OpEnd) : Books s (s.logPage x) := by
  unfold State.logPage
  extract_lets n now before addr src t src' first u bytes page page'
  have h1 : Books s t := rfl
  cases x with
  | cut => exact h1.trans rfl
  | done =>
    have h2 : Books t u := books_foldl _ books_programEntry _ t
    exact (((h1.trans h2).trans (books_cvuItem _ _ _ _ _ _ _)).trans (books_holdLog _)).trans (books_checkLog90 _ _)

theorem books_programMarks (s : State) (x : OpEnd) : Books s (s.programMarks x) := by
  unfold State.programMarks
  split <;> rfl

/-! ### Jobs and work -/

theorem books_jobDone (s : State) (j : Job) : Books s (s.jobDone j) := by
  cases j <;> unfold State.jobDone <;> dsimp only
  case eraseHdr | eraseBlk => exact books_updBankS _ _ _
  case page | header | commit | revoke => exact (books_updBankS _ _ _).trans (books_cvuItem _ _ _ _ _ _ _)
  all_goals rfl

theorem books_jobCut (s : State) (j : Job) : Books s (s.jobCut j) := by
  cases j <;> unfold State.jobCut <;> dsimp only
  case eraseHdr | header | commit | eraseBlk | page => exact books_updBankS _ _ _
  all_goals rfl

theorem books_setJobs (s : State) (l : List Job) : Books s (s.setJobs l) := rfl
theorem books_popWork (s : State) : Books s s.popWork := rfl

theorem books_checkCommit (s : State) (w : Work) : Books s (s.checkCommit w) := by
  unfold State.checkCommit
  extract_lets b k i c blocks t src u
  split
  · split
    · exact (books_popWork s).trans (books_complete _ _ _ _)
    · exact books_popWork s
  · have h1 : Books s t := books_updBankS _ _ _
    have h2 : Books t u := rfl
    exact (h1.trans h2).trans (books_setJobs _ _)

theorem books_commitDone (s : State) (w : Work) : Books s (s.commitDone w) := by
  unfold State.commitDone
  extract_lets b creds t u v works
  have h1 : Books s t := books_popWork s
  have h2 : Books t u := by
    show Books t (match w.d with | some d => _ | none => _)
    split
    · exact books_complete _ _ _ _
    · exact Books.refl t
  have h3 : Books u v := books_updBankS _ _ _
  exact (((h1.trans h2).trans h3).trans ((books_store v _).trans (books_availSweep _))).trans (books_storeEvt _ _)

theorem books_useCreds (s : State) : Books s s.useCreds := by
  unfold State.useCreds
  split
  · exact Books.refl s
  · exact ((books_updRole s _ _).trans (books_updRole _ _ _)).trans (books_log _ _)

theorem books_logReadDone (s : State) (w : Work) (d : Desc) : Books s (s.logReadDone w d) := by
  unfold State.logReadDone
  extract_lets l next t src u
  have h1 : Books s t := books_popWork s
  have h2 : Books t u := rfl
  exact (h1.trans h2).trans (books_complete _ _ _ _)

theorem books_workDone (s : State) (w : Work) : Books s (s.workDone w) := by
  unfold State.workDone
  split
  · split
    · exact books_popWork s
    · exact (books_popWork s).trans (books_useCreds _)
  · split
    · exact books_commitDone s w
    · exact books_logReadDone s w _
    · exact (books_popWork s).trans (books_complete _ _ _ _)

theorem books_advance1 (s : State) : Books s s.advance1 := by
  unfold State.advance1
  repeat' split
  · exact Books.refl s
  · exact Books.refl s
  · exact books_workDone _ _
  · exact books_checkCommit _ _
  all_goals rfl

theorem books_advance (s : State) : Books s s.advance :=
  (((books_advance1 s).trans (books_advance1 _)).trans (books_advance1 _)).trans (books_advance1 _)

theorem books_abortWork (s : State) (w : Work) : Books s (s.abortWork w) := by
  unfold State.abortWork
  split
  · exact Books.refl s
  · exact books_complete _ _ _ _

theorem books_rollback (s : State) : Books s s.rollback := (books_log s _).trans (books_storeEvt _ _)

theorem books_hookAct (s : State) (w : Work) : Books s (s.hookAct w) := by
  unfold State.hookAct
  extract_lets src t u v
  have h1 : Books s t := rfl
  have h2 : Books t u := (books_popWork t).trans (books_abortWork _ _)
  have h3 : Books u v := books_when ((books_rollback u).trans (books_updBankS _ _ _))
  have h := (h1.trans h2).trans h3
  split
  · exact h.trans (books_store v _)
  · exact h

theorem books_storeDone (s : State) (x : OpEnd) : Books s (s.storeDone x) := by
  unfold State.storeDone
  split
  · exact Books.refl s
  next n hn =>
  extract_lets op src t
  have h1 : Books s t := books_store s _
  refine h1.trans ?_
  clear_value t
  split
  · exact books_store t _
  · split
    · exact books_store t _
    · split
      · exact books_programMarks _ _
      · exact (books_logPage _ _).trans (books_advance _)
  · split
    · exact Books.refl t
    · split
      · exact Books.refl t
      · split
        · exact (books_jobCut _ _).trans rfl
        · extract_lets u
          have h2 : Books t u := (books_jobDone t _).trans (books_setJobs _ _)
          refine h2.trans ?_
          split
          · exact (books_hookAct _ _).trans (books_advance _)
          · exact (books_store _ _).trans (books_advance _)
  · exact Books.refl t

theorem books_cutStore (s : State) : Books s s.cutStore :=
  (books_when (f := fun s => s.storeDone .cut) (books_storeDone _ _)).trans (books_store _ _)

/-! ### What the host interface tells -/

/-- `t` is `s` but for the host interface and what it reports. -/
def Told (s t : State) : Prop :=
  t = { s with hif := t.hif, recs := t.recs, recSeq := t.recSeq, port := t.port, setNow := t.setNow }

theorem Told.refl (s : State) : Told s s := rfl

theorem Told.trans {s t u : State} (h : Told s t) (k : Told t u) : Told s u := by
  unfold Told at *
  rw [k, h]

theorem told_when {s : State} {c : Bool} {f : State → State} (h : Told s (f s)) : Told s (s.when c f) := by
  unfold State.when
  split
  · exact h
  · exact Told.refl s

theorem told_hif (s : State) (x : Hif) : Told s { s with hif := x } := rfl
theorem told_raise (s : State) (v : Nat) : Told s (s.raise v) := by rw [raise_frame]; rfl
theorem told_hifEvt (s : State) (i : Nat) : Told s (s.hifEvt i) := by rw [hifEvt_frame]; rfl
theorem told_record (s : State) (a : RecArg) : Told s (s.record a) := by rw [record_frame]; rfl

/-- The begin and the end of silence change the host interface and its reports alone (R408). -/
theorem told_checkSilence (s : State) : Told s s.checkSilence := by
  unfold State.checkSilence
  split
  · exact Told.refl s
  · extract_lets cleared _ _ judged
    have h1 : Told s cleared := told_when (told_hif _ _)
    have h2 : Told cleared judged := by
      simp only [judged]
      split
      · exact ((told_hif _ _).trans (told_hifEvt _ 2)).trans (told_record _ _)
      · split
        · exact (told_hif _ _).trans (told_record _ _)
        · exact Told.refl cleared
    exact (h1.trans h2).trans (told_when ((told_hif _ _).trans (told_raise _ 0)))

theorem told_hostWrite (s : State) : Told s s.hostWrite := (told_hif s _).trans (told_checkSilence _)

end Sys2Proof.Laws
end

section
/-! The step of the module and what its reset leaves. -/

namespace Sys2Proof.Laws

open Sys2Proof Sys2Proof.Machine Sys2Proof.Safety

/-! ### A tick of TB -/

/-- Two words one after the other, as a number. -/
theorem toNat_append_words {m n : Nat} (x : BitVec m) (y : BitVec n) : (x ++ y).toNat = x.toNat * 2 ^ n + y.toNat := by
  rw [BitVec.toNat_append, ← Nat.shiftLeft_add_eq_or_of_lt y.isLt, Nat.shiftLeft_eq]

/-- TB with its fraction grows by INC (R82). -/
theorem tick_append (u : Timebase) : u.tick.tb ++ u.tick.frac = (u.tb ++ u.frac) + BitVec.zeroExtend 96 u.inc := by
  apply BitVec.eq_of_toNat_eq
  have inc : (BitVec.zeroExtend 96 u.inc).toNat = u.inc.toNat := by simp; omega
  rw [toNat_append_words, tick_value, BitVec.toNat_add, toNat_append_words, inc]

theorem step_cons (s : State) (c : Instr) (rest : List Instr) :
    step { s with pending := c :: rest } = exec c { s with pending := rest } := rfl

theorem step_nil {s : State} (h : s.pending = []) : step s = .next s.tick := by
  unfold step
  rw [h]

/-- A tick of the fabric clock, where it runs TB. -/
theorem tick_fabric {s : State} (hl : s.tb.lfRun = false) (hc : s.coreUp = true) (hs : s.pwr.phase = .service) :
    s.tick = s.tickEnd.fabricTick.seeCleared := by
  unfold State.tick
  rw [if_neg (by simp [hl]), if_pos (by simp [hc, hs, Phase.powered])]

/-- Settles O57: a step by the queue's front, a tick by the clock that runs TB. -/
theorem stepRunsTheFrontCommand : Obligations.StepRunsTheFrontCommand := by
  refine ⟨step_cons, fun s hp hl hc hs => ?_, fun s hp hl hc hs hq => ?_⟩
  · rw [step_nil hp, tick_fabric hl hc hs]
  · have ticks : s.tick = s.fabricTick := by
      rw [tick_quiet s hq, if_neg (by simp [hl]), if_pos (by simp [hc, hs, Phase.powered])]
    refine ⟨s.fabricTick, by rw [step_nil hp, ticks], ?_, ?_, fabricTick_lid s, fabricTick_outs s, fabricTick_sys s,
      fabricTick_cells s, fabricTick_mems s⟩
    · rw [fabricTick_tb, tick_append]
    · rw [fabricTick_tb, tick_inc]

/-! ### Reset -/

@[simp] theorem eng_reset (e : Nat) : State.reset.eng e = {} := rfl

theorem pinsFollow_reset : PinsFollow State.reset := by
  constructor <;> decide

theorem inv_reset : Inv State.reset := by
  refine ⟨pinsFollow_reset, fun _ e he => ?_, fun _ service => ?_⟩
  · cases he
  · cases service

/-- Settles O59: each value stands in the state that reset leaves. -/
theorem resetValues : Obligations.ResetValues := by
  refine ⟨?_, ?_, ?_, ?_, ?_, ?_, rfl, inv_reset⟩
  · decide
  · exact ⟨rfl, rfl, rfl, rfl, fun d => ⟨rfl, rfl, rfl⟩⟩
  · have unlisted : ∀ o, bit (0 : BitVec 64) o = false := fun o => by simp [bit]
    exact fun o => ⟨unlisted o, unlisted o, unlisted o, unlisted o, rfl, rfl⟩
  · intro i hi
    show bit (BitVec.allOnes 192) i = true
    unfold bit
    rw [BitVec.getLsbD_allOnes, decide_eq_true hi]
  · intro e
    rw [eng_reset]
    refine ⟨rfl, rfl, rfl, rfl, fun r => ⟨?_, ?_⟩, rfl, rfl, by decide, rfl, rfl⟩
    · simp [Engine.gr, Tab.get]
    · simp [Engine.kr, bit]
  · exact fun i => ⟨rfl, rfl, rfl, rfl⟩

end Sys2Proof.Laws
end

section
/-! Supplies, temperature, HOLD, resets, standby and the clock generator (R26, R72, R73, R78, R93, R437 to R452, R471, R496, R526,
R528). -/

namespace Sys2Proof.Laws

open Sys2Proof Sys2Proof.Machine Sys2Proof.Safety

/-! ### Outcomes and pins -/

/-- A command that settles gives what its settled state has. -/
theorem gives_settled {t : State} {P : State → Prop} (h : P t.settle) : Gives (doneSettled t) P := ⟨_, rfl, h⟩

/-- The conditions of SAFE_OK that no settling changes. -/
def mayBeSafe (s : State) : Bool :=
  s.pwr.phase == .service && s.sys.refreshA && s.sys.refreshB && !s.sys.coreLost && s.regions != 0 && s.pwr.rstn && !s.pwr.dip && !s.pwr.fail

theorem mayBeSafe_of_safeOkNow {s : State} (h : s.safeOkNow = true) : mayBeSafe s = true := by
  unfold State.safeOkNow at h
  simp only [Bool.and_eq_true] at h
  obtain ⟨⟨⟨⟨⟨⟨⟨⟨⟨⟨phase, a⟩, b⟩, core⟩, _⟩, _⟩, _⟩, regions⟩, rstn⟩, dip⟩, fail⟩ := h
  simp only [mayBeSafe, phase, a, b, core, regions, rstn, dip, fail, Bool.and_self]

/-- SAFE_OK is low once a condition of it has gone that settling leaves (R72, R73). -/
theorem settle_safeOk_low {s : State} (h : mayBeSafe s = false) : s.settle.sys.safeOk = false := by
  rw [(pinsFollow_settle s).1]
  cases hs : s.settle.safeOkNow
  · rfl
  · have up := mayBeSafe_of_safeOkNow hs
    simp only [mayBeSafe, settle_pwr, settle_sys_refreshA, settle_sys_refreshB, settle_sys_coreLost, settle_regions] at up
    exact absurd (h.symm.trans up) (by decide)

/-- FAULTN is asserted outside service (R27, R465). -/
theorem settle_faultn_outside {s : State} (h : s.pwr.phase ≠ .service) : s.settle.sys.faultn = true := by
  rw [(pinsFollow_settle s).2]
  simp [State.faultnNow, h]

/-- Outside service no output appears as the state settles. -/
theorem settle_outs_nil {s : State} (h : s.pwr.phase ≠ .service) (ho : s.outs = []) : s.settle.outs = [] := by
  unfold State.settle
  rw [if_neg (by simp [h]), pins_outs, obeyAll_outs, ho]
  rfl

/-! ### Events and resets -/

@[simp] theorem pwrEvt_pwr (s : State) (i : Nat) : (s.pwrEvt i).pwr = { s.pwr with evt := setBit s.pwr.evt i true } := rfl

@[simp] theorem record_pwr (s : State) (a : RecArg) : (s.record a).pwr = s.pwr := by rw [books_record]

theorem cleared_pwr (s : State) : s.cleared.pwr = { s.pwr with evt := 0, dips := 0, fail := false } := by
  show ({ s.cutStore.pwr with evt := 0, dips := 0, fail := false } : Power) = _
  rw [books_cutStore s]

theorem cleared_tb (s : State) : s.cleared.tb.tb = s.tb.tb ∧ s.cleared.tb.frac = s.tb.frac := by
  show s.cutStore.tb.tb = _ ∧ s.cutStore.tb.frac = _
  rw [books_cutStore s]
  exact ⟨rfl, rfl⟩

theorem afterReset_phase (s : State) : s.afterReset.pwr.phase = if s.pwr.rstn && !s.pwr.otHold then .starting else .reset := rfl

/-! ### Dips of VSYS -/

theorem dipOver_iff (s : State) : s.dipOver = true ↔ s.pwr.dip = true ∧ s.pwr.fail = false ∧ s.past s.pwr.dipAt 100000 = true := by
  simp [State.dipOver, and_assoc]

/-- A power failure with no erase under way and no page of the log being programmed (R447). -/
theorem powerFails_plain {s : State} (hh : s.store.holder ≠ some 1) (h1 : s.store.op ≠ .eraseSector) (h2 : s.store.op ≠ .eraseBlock) :
    s.powerFails = { s with pwr := { s.pwr with fail := true }, store := { s.store with buf := [] } } := by
  unfold State.powerFails
  extract_lets kept src src' t
  have none : kept = 0 := if_neg (fun h => hh h.1)
  have still : (t.store.op == .eraseSector || t.store.op == .eraseBlock) = false := by
    show (s.store.op == .eraseSector || s.store.op == .eraseBlock) = false
    simp [h1, h2]
  rw [still, when_false]
  simp only [t, src, src', none, List.take_zero]

/-- Settles O18: by the phase, the age of the dip, and whether VSYS is back. -/
theorem supplyDips : Obligations.SupplyDips := by
  refine ⟨fun s off => ?_, fun s on => ?_, fun s dip fail young => ?_, fun s on dip fail old hh h1 h2 => ?_, fun s fail idle => ?_⟩
  · show Gives (execVsysStartThreshold s) _
    unfold execVsysStartThreshold
    rw [off]
    refine gives_settled ?_
    simp only [settle_pwr, settle_tb]
    exact ⟨rfl, rfl, rfl, rfl⟩
  · show Gives (execVsysHoldUpCrossing s) _
    unfold execVsysHoldUpCrossing
    rw [on]
    exact gives_settled ⟨settle_pwr _, settle_safeOk_low (by simp [mayBeSafe]), settle_cells _, settle_store _⟩
  · have due : s.dipOver = false := by simp [State.dipOver, young]
    show Gives (execDipRideThrough s) _
    unfold execDipRideThrough
    rw [if_neg (by simp [due]), if_pos (by simp [dip, fail])]
    exact gives_settled ⟨settle_pwr _, settle_cells _, settle_perm _, settle_store _⟩
  · have due : s.dipOver = true := (dipOver_iff s).2 ⟨dip, fail, old⟩
    constructor
    · show execPowerFailure s = _
      unfold execPowerFailure
      rw [if_pos (by simp [on, due]), powerFails_plain hh h1 h2]
      rfl
    · show execDipRideThrough s = _
      unfold execDipRideThrough
      rw [if_pos due, powerFails_plain (s := { s with pwr := { s.pwr with vsysOk := true } }) hh h1 h2]
      rfl
  · show Gives (execPowerFailReset s) _
    unfold execPowerFailReset
    rw [if_pos (by simp [fail, idle])]
    cases back : s.pwr.vsysOk
    · simp only [Bool.false_eq_true, if_false, Bool.not_false]
      refine gives_settled ?_
      rw [settle_pwr, settle_tb, settle_cells, settle_loaded, cleared_pwr]
      exact ⟨rfl, rfl, rfl, rfl, rfl, fun _ => ⟨rfl, rfl⟩, nofun⟩
    · simp only [if_true, Bool.not_true]
      refine gives_settled ?_
      rw [settle_pwr, settle_tb, settle_cells, settle_loaded]
      unfold State.afterReset
      rw [cleared_pwr]
      exact ⟨rfl, rfl, rfl, rfl, rfl, nofun, fun _ => ⟨rfl, rfl, rfl⟩⟩

/-- Settles O19: each supervisor by the thresholds that its branches compare with. -/
theorem supervisorsAct : Obligations.SupervisorsAct := by
  refine ⟨fun s on => ?_, fun r s on => ?_, fun c s on => ⟨fun hot cool => ?_, fun hot => ?_⟩,
    fun c s on => ⟨fun cool held => ?_, fun held => ?_⟩,
    fun v s on => ⟨fun low event => ?_, fun low ok rep => ?_, fun high => ?_⟩, fun s on => ?_, fun s off low => ?_⟩
  · show Gives (execOvervoltageEvent s) _
    unfold execOvervoltageEvent
    rw [if_pos on]
    exact gives_settled ⟨settle_pwr _, settle_cells _, settle_regions _, settle_perm _, settle_store _⟩
  · show Gives (execRailOutOfWindow r s) _
    unfold execRailOutOfWindow
    rw [if_pos on]
    refine gives_settled ?_
    rw [settle_pwr, settle_cells, settle_engs, settle_loaded, settle_regions]
    exact ⟨rfl, rfl, rfl, rfl, rfl, rfl⟩
  · show Gives (execCoreOvertemperature c s) _
    unfold execCoreOvertemperature
    simp only [if_pos on, decide_eq_true hot, if_neg (Nat.not_le.mpr cool), Bool.true_and]
    refine gives_settled ?_
    rw [settle_pwr]
    cases ot : s.pwr.ot
    · exact ⟨rfl, rfl, rfl, fun _ => rfl⟩
    · exact ⟨rfl, rfl, rfl, nofun⟩
  · have above : 189 ≤ c.toNat := by omega
    show Gives (execCoreOvertemperature c s) _
    unfold execCoreOvertemperature
    simp only [if_pos on, decide_eq_true above, if_pos hot, Bool.true_and]
    refine gives_settled ?_
    rw [settle_pwr, settle_cells, settle_engs, settle_loaded]
    unfold State.powerReset State.afterReset
    rw [cleared_pwr]
    refine ⟨rfl, rfl, rfl, ?_, rfl, rfl, rfl⟩
    simp
  · have below : ¬ 189 ≤ c.toNat := by omega
    show Gives (execCoreTemperatureFall c s) _
    unfold execCoreTemperatureFall
    simp only [if_pos on, decide_eq_false below, if_pos (And.intro cool held)]
    refine gives_settled ?_
    rw [settle_pwr]
    refine ⟨rfl, rfl, ?_⟩
    simp [State.afterReset]
  · show execCoreTemperatureFall c s = _
    unfold execCoreTemperatureFall
    rw [if_pos on, if_neg (fun h => by simp [held] at h)]
    rfl
  · show Gives (execHoldNotCharged v s) _
    unfold execHoldNotCharged
    have reports : s.holdLow = true := by
      unfold State.holdLow
      rcases event with ⟨ok, vsys⟩ | ⟨ok, rep, past⟩
      · rw [if_pos ok, vsys]
      · rw [if_neg (by simp [ok]), rep, past]
        rfl
    simp only [if_pos on, decide_eq_true low, reports, Bool.and_self, Bool.or_true, when_true, Bool.not_true]
    refine gives_settled ?_
    rw [settle_pwr, record_pwr]
    rfl
  · show execHoldNotCharged v s = _
    unfold execHoldNotCharged
    have silent : s.holdLow = false := by
      unfold State.holdLow
      rw [if_neg (by simp [ok]), rep]
      rfl
    simp only [if_pos on, decide_eq_true low, silent, Bool.and_false, Bool.or_false, when_false, Bool.not_true, rep, Bool.and_self]
    simp only [doneSettled, ← ok, ← rep]
  · show execHoldNotCharged v s = _
    unfold execHoldNotCharged
    simp only [if_pos on, decide_eq_false (Nat.not_lt.mpr high), Bool.false_and, when_false, Bool.not_false]
    rfl
  · show execHoldCharged s = _
    unfold execHoldCharged
    rw [if_pos on]
    rfl
  · show Gives (execHoldExhausted s) _
    unfold execHoldExhausted
    rw [if_pos (by simp [off, low])]
    refine gives_settled ?_
    rw [settle_pwr, settle_tb, settle_store]
    exact ⟨rfl, rfl, rfl, rfl, rfl, rfl, rfl, rfl, rfl, rfl⟩

/-! ### RSTN, standby and wake -/

theorem rstnActs_long {n ns : Nat} (h : 1000 ≤ ns) : rstnActs n ns = true := by simp [rstnActs, h]
theorem rstnActs_short {n ns : Nat} (h : ns < 100) : rstnActs n ns = false := by
  simp [rstnActs]
  omega

/-- Settles O20: by the length of the pulse, and by the phase at its end. -/
theorem resetClearsTheModule : Obligations.ResetClearsTheModule := by
  refine ⟨fun ns s long on => ?_, fun ns s short => ?_, fun s held => ?_⟩
  · show Gives (execRstnLow ns s) _
    unfold execRstnLow
    simp only [rstnActs_long long, if_true, if_pos on]
    refine gives_settled ?_
    rw [settle_pwr, settle_cells, settle_loaded, settle_engs, settle_epairs, settle_regions, settle_chans, settle_perm, settle_tb,
      settle_outs_nil (by simp) rfl, settle_safeOk_low (by simp [mayBeSafe]), settle_faultn_outside (by simp)]
    exact ⟨rfl, rfl, rfl, rfl, rfl, rfl, rfl, rfl, rfl, rfl, rfl, cleared_tb _⟩
  · show execRstnLow ns s = _
    unfold execRstnLow
    simp only [rstnActs_short short]
    rfl
  · show execRstnRelease s = _
    unfold execRstnRelease
    rw [if_pos held]
    cases ot : s.pwr.otHold <;> simp [State.afterReset, doneSettled, State.now, ot]

/-- A power failure governs a trigger of standby (R460). -/
theorem standbyTrigger_fails {s : State} (hf : s.pwr.fail = false) (hd : s.dipOver = true) (hp : s.pwr.phase.powered = true) :
    s.standbyTrigger = s.powerFails := by
  unfold State.standbyTrigger
  rw [if_neg (by simp [hf]), if_pos (by simp [hd, hp])]

/-- A commit whose jobs have all ended and which waits behind the log writer; its queue pair has been reset. -/
def endedCommit : Work :=
  { q := 0, d := some { w := [0x12], sqidx := 0, buf := none, memErr := false, ran := false, lost := true }, jobs := [], code := 0, res0 := 0 }

/-- A state in service whose dip has lasted 200 µs. The log writer holds the port with a block erase, which is no operation of its own
(R421): cut, it takes the branch of a page, after which the work that has ended completes and the availability counts follow the new
bank. -/
def dippedWithCommit : State := { State.reset with pwr := { phase := .service, dip := true }, tb := { tb := 200000 }, cells := [(0, { since := some 0 })], store := { State.reset.store with holder := some 1, op := .eraseBlock, logN := 1, works := [endedCommit] } }

/-- The power failure that governs ends the count of cell 0. -/
theorem powerFails_dippedWithCommit :
    ({ dippedWithCommit with pwr := { dippedWithCommit.pwr with stbyn := false } } : State).powerFails.cells ≠ dippedWithCommit.cells := by
  decide

/-- Refutes O21: the third clause, a power failure that governs, keeps every cell as it was; but with a block erase of the log writer
under way the model cuts it as a page, a commit behind it ends, and the time of a cell's absence is counted. -/
theorem not_standbyAndWake : ¬ Obligations.StandbyAndWake := by
  intro h
  obtain ⟨_, _, governed, _⟩ := h
  obtain ⟨t, run, _, _, cells⟩ := governed dippedWithCommit rfl (by decide)
  have fails := standbyTrigger_fails (s := { dippedWithCommit with pwr := { dippedWithCommit.pwr with stbyn := false } }) rfl (by decide) rfl
  have settled : exec .stbynLow dippedWithCommit = doneSettled _ := congrArg doneSettled fails
  rw [settled] at run
  cases run
  rw [settle_cells] at cells
  exact powerFails_dippedWithCommit cells

end Sys2Proof.Laws
end

section
/-! Clock faults, the module debug halt and the start-up (R24, R72, R78, R92, R93, R464 to R468, R496). -/

namespace Sys2Proof.Laws

open Sys2Proof Sys2Proof.Machine Sys2Proof.Safety

/-! ### Clock faults -/

@[simp] theorem record_clk (s : State) (a : RecArg) : (s.record a).clk = s.clk := by rw [books_record]
@[simp] theorem record_tb (s : State) (a : RecArg) : (s.record a).tb = s.tb := by rw [books_record]

theorem mayBeSafe_outside {s : State} {p : Phase} (h : s.pwr.phase = p) (hp : p ≠ .service) : mayBeSafe s = false := by
  subst h
  simp [mayBeSafe, hp]

/-- What a clock fault leaves of a module that was not in fault stop (R24, R78, R467). -/
structure ClockStopped (s t : State) (cause : BitVec 2) : Prop where
  clk : t.clk = s.clk
  kept : t.pwr.clkKept = cause
  lost : t.sys.coreLost = true
  phase : t.pwr.phase = .faultStop
  engs : t.engs = []
  regions : t.regions = 0
  tb : t.tb = { s.tb with lfRun := true }

theorem faultStop_clk (s : State) (n : Nat) : (s.faultStop n).clk = s.clk := by
  show s.availStop.clk = _
  rw [books_availStop s]
theorem faultStop_tb (s : State) (n : Nat) : (s.faultStop n).tb = s.tb := by
  show s.availStop.tb = _
  rw [books_availStop s]
theorem faultStop_pwr (s : State) (n : Nat) : (s.faultStop n).pwr = { s.pwr with phase := .faultStop } := by
  show ({ s.availStop.pwr with phase := .faultStop } : Power) = _
  rw [books_availStop s]
theorem faultStop_coreLost (s : State) (n : Nat) : (s.faultStop n).sys.coreLost = s.sys.coreLost := by
  show s.availStop.sys.coreLost = _
  rw [books_availStop s]

theorem clockFault_stops {s : State} (cause : BitVec 2) (h : s.pwr.phase ≠ .faultStop) : ClockStopped s (s.clockFault cause) cause := by
  unfold State.clockFault
  extract_lets r src src' src'' t
  have running : t.pwr.phase ≠ .faultStop := by
    show r.pwr.phase ≠ _
    rw [record_pwr]
    exact h
  rw [if_neg running]
  refine ⟨?_, ?_, ?_, ?_, rfl, rfl, ?_⟩
  · rw [faultStop_clk]
    exact record_clk s _
  · rw [faultStop_pwr]
  · rw [faultStop_coreLost]
  · rw [faultStop_pwr]
  · rw [faultStop_tb]
    show ({ r.tb with lfRun := true } : Timebase) = _
    rw [show r.tb = s.tb from record_tb s _]

/-- Settles O22: each fault by the change it makes before the module settles. -/
theorem clocksAndModuleDebug : Obligations.ClocksAndModuleDebug := by
  refine ⟨fun s runs go => ?_, fun ppm s runs => ⟨fun lo hi => ?_, fun off ok go => ?_⟩, fun runs s => ?_, fun s => ?_, fun s runs => ?_,
    fun s halted => ?_⟩
  · show Gives (execPllLockLoss s) _
    unfold execPllLockLoss
    rw [if_pos runs]
    have h := clockFault_stops (s := ({ s with clk := { s.clk with pllLock := false } } : State).clkEvt 0) 1 go
    refine gives_settled ?_
    rw [settle_clk, settle_pwr, settle_sys_coreLost, settle_engs, settle_regions, settle_tb, h.clk, h.kept, h.lost, h.phase, h.engs,
      h.regions, h.tb, settle_safeOk_low (mayBeSafe_outside h.phase (by decide))]
    exact ⟨rfl, rfl, rfl, rfl, rfl, rfl, rfl, rfl, rfl, rfl⟩
  · have within : max (-32767) (min 32767 ppm) = ppm := by omega
    show execRefclkCheck ppm s = _
    unfold execRefclkCheck
    simp only [if_pos runs, within]
    rw [if_neg (by omega)]
    rfl
  · have beyond : 1000 < max (-32767) (min 32767 ppm) := by omega
    show Gives (execRefclkCheck ppm s) _
    unfold execRefclkCheck
    simp only [if_pos runs, if_pos (Or.inl beyond), ok, when_true]
    have h := clockFault_stops (s := ({ s with clk := { s.clk with ppm := BitVec.ofInt 16 (max (-32767) (min 32767 ppm)), refOk := false } } : State).clkEvt 1) 2 go
    refine gives_settled ?_
    rw [settle_clk, settle_pwr, settle_sys_coreLost, h.clk, h.kept, h.lost, h.phase,
      settle_safeOk_low (mayBeSafe_outside h.phase (by decide))]
    exact ⟨rfl, rfl, rfl, rfl, rfl, rfl⟩
  · show Gives (execLfOscillatorChange runs s) _
    unfold execLfOscillatorChange
    refine gives_settled ?_
    rw [settle_clk, settle_tb, settle_pwr]
    cases s.clk.lfOk && !runs <;> exact ⟨rfl, rfl, rfl⟩
  · show Gives (execSafeOkRefreshLoss s) _
    unfold execSafeOkRefreshLoss State.takeBool
    refine gives_settled ?_
    rw [settle_pwr, settle_cells, settle_tb, settle_sys_refreshA, settle_sys_refreshB]
    cases a : Config.freeBool s.fresh
    · refine ⟨.inr ⟨?_, ?_⟩, settle_safeOk_low ?_, rfl, rfl, rfl⟩ <;> simp [mayBeSafe]
    · refine ⟨.inl ⟨?_, ?_⟩, settle_safeOk_low ?_, rfl, rfl, rfl⟩ <;> simp [mayBeSafe]
  · show Gives (execModuleDebugHalt s) _
    unfold execModuleDebugHalt
    rw [if_pos runs]
    refine gives_settled ?_
    rw [settle_pwr, settle_tb, settle_sys_refreshA, settle_sys_refreshB, settle_safeOk_low (by simp [mayBeSafe])]
    exact ⟨rfl, rfl, rfl, rfl, rfl⟩
  · show Gives (execModuleDebugRelease s) _
    unfold execModuleDebugRelease
    rw [if_pos halted]
    refine gives_settled ?_
    rw [settle_pwr, settle_cells, settle_loaded, settle_engs, afterReset_phase, cleared_pwr]
    exact ⟨rfl, rfl, rfl, rfl⟩

end Sys2Proof.Laws
end

section
/-! What the operations of the field side can do: they change inputs, outputs, sources, halves and banks, the Ladle, service states,
records and events, and nothing of the supplies, the configuration, the cells, the engines or the store. -/

namespace Sys2Proof.Laws

open Sys2Proof Sys2Proof.Machine Sys2Proof.Safety

/-- `t` is `s` but for the field side and what it reports. -/
def Plant (s t : State) : Prop :=
  t = { s with
    ins := t.ins
    pairs := t.pairs
    encs := t.encs
    wets := t.wets
    outs := t.outs
    tps := t.tps
    halves := t.halves
    banks := t.banks
    ladle := t.ladle
    units := t.units
    regs := t.regs
    hif := { s.hif with evt := t.hif.evt, pend := t.hif.pend }
    recs := t.recs
    recSeq := t.recSeq
    port := t.port
    setNow := t.setNow
    cvus := t.cvus }

theorem Plant.refl (s : State) : Plant s s := rfl

theorem Plant.trans {s t u : State} (h : Plant s t) (k : Plant t u) : Plant s u := by
  unfold Plant at *
  rw [k, h]

theorem plant_when {s : State} {c : Bool} {f : State → State} (h : Plant s (f s)) : Plant s (s.when c f) := by
  unfold State.when
  split
  · exact h
  · exact Plant.refl s

theorem plant_foldl {β : Type} (f : State → β → State) (h : ∀ s b, Plant s (f s b)) (l : List β) : ∀ s, Plant s (l.foldl f s) := by
  induction l with
  | nil => exact Plant.refl
  | cons b l ih => intro s; exact (h s b).trans (ih (f s b))

theorem plant_each (n : Nat) (f : State → Nat → State) (h : ∀ s b, Plant s (f s b)) (s : State) : Plant s (s.each n f) :=
  plant_foldl f h _ s

/-! ### Single changes -/

theorem plant_updInp (s : State) (n : Nat) (f : Input → Input) : Plant s (s.updInp n f) := rfl
theorem plant_updPair (s : State) (n : Nat) (f : InPair → InPair) : Plant s (s.updPair n f) := rfl
theorem plant_updEnc (s : State) (n : Nat) (f : Encoder → Encoder) : Plant s (s.updEnc n f) := rfl
theorem plant_updOut (s : State) (n : Nat) (f : Output → Output) : Plant s (s.updOut n f) := rfl
theorem plant_updEl (s : State) (n : Nat) (x : AB) (f : Element → Element) : Plant s (s.updEl n x f) := rfl
theorem plant_updTp (s : State) (n : Nat) (f : Source → Source) : Plant s (s.updTp n f) := rfl
theorem plant_updHalf (s : State) (b : Nat) (h : AB) (f : FieldHalf → FieldHalf) : Plant s (s.updHalf b h f) := rfl
theorem plant_updBank (s : State) (b : Nat) (f : FBank → FBank) : Plant s (s.updBank b f) := rfl
theorem plant_mark (s : State) (reg i : Nat) : Plant s (s.mark reg i) := rfl
theorem plant_takeOut (s : State) (site code : Nat) : Plant s (s.takeOut site code) := rfl
theorem plant_putBack (s : State) (site : Nat) : Plant s (s.putBack site) := rfl
theorem plant_record (s : State) (a : RecArg) : Plant s (s.record a) := by rw [record_frame]; rfl
theorem plant_regs (s : State) (r : Regs) : Plant s { s with regs := r } := rfl

/-! ### Inputs -/

theorem plant_cutInput (s : State) (n : Nat) : Plant s (s.cutInput n) := rfl

theorem plant_raiseIn (s : State) (n code related : Nat) (d6 : Word) (quiet : Bool) : Plant s (s.raiseIn n code related d6 quiet) := by
  unfold State.raiseIn
  split
  · exact Plant.refl s
  · extract_lets t src u v
    have h1 : Plant s t := plant_updInp s n _
    have h2 : Plant t u := (plant_regs t _).trans (plant_mark _ _ _)
    have h3 : Plant u v := plant_when ((plant_takeOut u _ _).trans (plant_cutInput _ _))
    exact ((h1.trans h2).trans h3).trans (plant_when (plant_record v _))

theorem plant_clearIn (s : State) (n : Nat) : Plant s (s.clearIn n) := (plant_updInp s n _).trans (plant_regs _ _)

theorem plant_clearScan (s : State) (n : Nat) : Plant s (s.clearScan n) := by
  unfold State.clearScan
  extract_lets i b h safe low
  repeat' split
  · exact plant_when (plant_clearIn s n)
  · exact plant_when (plant_clearIn s n)
  · exact plant_when (plant_clearIn s n)
  · exact plant_when (plant_updInp s n _)
  · exact plant_when (plant_updInp s n _)
  · exact Plant.refl s

theorem plant_clearPairCode (s : State) (p : Nat) : Plant s (s.clearPairCode p) := by
  unfold State.clearPairCode
  exact plant_when (plant_clearIn s _)

theorem plant_pairFault (s : State) (p code : Nat) : Plant s (s.pairFault p code) :=
  (plant_updPair s p _).trans (plant_raiseIn _ _ _ _ _ _)

theorem plant_evalPair (s : State) (p : Nat) : Plant s (s.evalPair p) := by
  unfold State.evalPair
  extract_lets a b r go mine other t
  have goes : ∀ st start first, Plant s (go st start first) := fun _ _ _ => plant_updPair s p _
  split
  · exact Plant.refl s
  · split
    · repeat' split
      · exact goes _ _ _
      · exact goes _ _ _
      · exact goes _ _ _
      · exact Plant.refl s
    · repeat' split
      · exact plant_pairFault s p 1
      · exact goes _ _ _
      · exact Plant.refl s
      · exact goes _ _ _
      · exact goes _ _ _
    · repeat' split
      · exact Plant.refl s
      · exact goes _ _ _
      · exact goes _ _ _
    · repeat' split
      · exact plant_pairFault s p 2
      · exact goes _ _ _
      · exact Plant.refl s
    · split
      · exact (plant_updPair s p _).trans (plant_when (plant_clearIn _ _))
      · exact Plant.refl s

theorem plant_requalify (s : State) (p : Nat) : Plant s (s.requalify p) := by
  unfold State.requalify
  extract_lets t u
  have h1 : Plant s t := (plant_clearScan s _).trans (plant_clearScan _ _)
  have h2 : Plant t u := plant_when (plant_clearPairCode t p)
  exact (h1.trans h2).trans (plant_evalPair u p)

theorem plant_encFault (s : State) (e b n : Nat) : Plant s (s.encFault e b n) :=
  ((plant_updEnc s e _).trans (plant_mark _ _ _)).trans (plant_raiseIn _ _ _ _ _ _)

theorem plant_supplyCheck (s : State) (n : Nat) : Plant s (s.supplyCheck n) := by
  unfold State.supplyCheck
  split
  · exact Plant.refl s
  · exact plant_each _ _ (fun s e => plant_when (plant_encFault s e 2 _)) s

theorem plant_capture (s : State) (e kind : Nat) : Plant s (s.capture e kind) := by
  unfold State.capture
  extract_lets r
  split
  · exact plant_updEnc s e _
  · exact ((plant_updEnc s e _).trans (plant_mark _ _ _)).trans (plant_raiseIn _ _ _ _ _ _)

theorem plant_latchCapture (s : State) (n : Nat) (level : Bool) : Plant s (s.latchCapture n level) := by
  unfold State.latchCapture
  split
  · exact Plant.refl s
  · exact plant_each _ _ (fun s e => plant_when (plant_capture s e 4)) s

theorem plant_afterQual (s : State) (n : Nat) : Plant s (s.afterQual n) := (plant_requalify s _).trans (plant_supplyCheck _ n)

/-! ### The Ladle and check-value units -/

theorem plant_setBucket (s : State) (d : Nat) (b : Bucket) : Plant s (s.setBucket d b) := by
  unfold State.setBucket
  split <;> rfl

theorem plant_giveBack (s : State) (d site : Nat) : Plant s (s.giveBack d site) := plant_setBucket s d _

theorem plant_request (s : State) (d site cost : Nat) : Plant s (s.request d site cost).2 := by
  unfold State.request
  extract_lets b t
  split
  · exact plant_setBucket s d _
  · exact plant_setBucket s d _

theorem plant_requestFirst (s : State) (d site cost : Nat) : Plant s (s.requestFirst d site cost).2 := by
  unfold State.requestFirst
  extract_lets b t wakes
  split
  · exact plant_setBucket s d _
  · exact plant_setBucket s d _

theorem plant_releaseHalf (s : State) (b : Nat) (h : AB) : Plant s (s.releaseHalf b h) := by
  unfold State.releaseHalf
  extract_lets mine k t
  exact (plant_setBucket s _ _).trans (plant_foldl _ (fun s t => plant_giveBack s _ _) _ t)

theorem plant_cvuDo (s : State) (n : Nat) (f : Cvu → Cvu) : Plant s (s.cvuDo n f) := by
  unfold State.cvuDo
  extract_lets was t now
  exact Plant.trans (t := t) rfl (plant_each _ _ (fun s i => by apply plant_when; exact plant_mark s _ _) t)

theorem plant_cvuSourceLost (s : State) (f : Nat → Nat → Bool) : Plant s (s.cvuSourceLost f) := by
  unfold State.cvuSourceLost
  split
  · exact Plant.refl s
  · exact plant_each _ _ (fun s n => plant_when (plant_cvuDo s n _)) s

/-! ### Outputs and sources -/

theorem plant_raiseOut (s : State) (o code : Nat) (x : AB) (related : Nat) (startup quiet : Bool) :
    Plant s (s.raiseOut o code x related startup quiet) := by
  unfold State.raiseOut
  extract_lets r rec' t src u site v
  split
  · exact Plant.refl s
  · have h1 : Plant s t := plant_updOut s o _
    have h2 : Plant t u := (plant_regs t _).trans (plant_mark _ _ _)
    have h3 : Plant u v := plant_when (plant_record u _)
    exact ((h1.trans h2).trans h3).trans (plant_foldl _ (fun s y => plant_takeOut s _ _) _ v)

theorem plant_raiseTp (s : State) (t code related : Nat) (startup quiet : Bool) : Plant s (s.raiseTp t code related startup quiet) := by
  unfold State.raiseTp
  extract_lets r rec' u src v w x
  split
  · exact Plant.refl s
  · have h1 : Plant s u := plant_updTp s t _
    have h2 : Plant u v := (plant_regs u _).trans (plant_mark _ _ _)
    have h3 : Plant v w := plant_when (plant_record v _)
    have h4 : Plant w x := plant_when (plant_takeOut w _ _)
    refine (((h1.trans h2).trans h3).trans h4).trans (plant_foldl _ (fun s n => ?_) _ x)
    exact plant_when ((plant_raiseIn s _ _ _ _ _).trans (plant_afterQual _ _))

theorem plant_elementTest (s : State) (t : ElTest) (startup : Bool) : Plant s (s.elementTest t startup) := by
  unfold State.elementTest
  refine plant_foldl _ (fun s c => ?_) _ s
  extract_lets u
  exact (plant_raiseOut s _ _ _ _ _ _ : Plant s u).trans (plant_when (plant_takeOut u _ _))

theorem plant_sourceTest (s : State) (t : TpTest) (startup : Bool) : Plant s (s.sourceTest t startup) :=
  plant_when (plant_raiseTp s _ _ _ _ _)

theorem plant_bankTests (s : State) (b : Nat) (els : List ElTest) (tps : List TpTest) : Plant s (s.bankTests b els tps) :=
  (plant_foldl _ (fun s t => plant_elementTest s t true) _ s).trans (plant_foldl _ (fun s t => plant_sourceTest s t true) _ _)

/-! ### Whole banks and halves -/

theorem plant_stopTests (s : State) (b : Nat) (h : AB) : Plant s (s.stopTests b h) := plant_foldl _ (fun s o => plant_updEl s o h _) _ s

theorem plant_raiseBankOut (s : State) (b code : Nat) (quiet : Bool) : Plant s (s.raiseBankOut b code quiet) :=
  plant_foldl _ (fun s o => plant_raiseOut s o code _ _ _ _) _ s

theorem plant_raiseBankTp (s : State) (b code : Nat) (pick : Nat → Bool) (quiet : Bool) : Plant s (s.raiseBankTp b code pick quiet) :=
  plant_foldl _ (fun s t => plant_when (plant_raiseTp s t code _ _ _)) _ s

theorem plant_raiseBankIn (s : State) (b code : Nat) (pick : Nat → Bool) (quiet : Bool) : Plant s (s.raiseBankIn b code pick quiet) := by
  unfold State.raiseBankIn
  apply plant_foldl
  intro s n
  exact plant_when ((plant_raiseIn s n code _ _ _).trans (plant_afterQual _ n))

theorem plant_halfDown (s : State) (b : Nat) (h : AB) (quiet : Bool) : Plant s (s.halfDown b h quiet) := by
  unfold State.halfDown
  extract_lets t u v w x y z a
  have h1 : Plant s t := plant_takeOut s _ _
  have h2 : Plant t u := plant_updHalf t b h _
  have h3 : Plant u v := (plant_stopTests u b h).trans (plant_releaseHalf _ b h)
  have h4 : Plant v w := plant_raiseBankOut v b 15 true
  have h5 : Plant w x := plant_raiseBankTp w b 7 _ true
  have h6 : Plant x y := plant_raiseBankIn x b 10 _ true
  have h7 : Plant y z := by
    apply plant_foldl
    intro s n
    exact plant_when ((plant_cutInput s n).trans (plant_afterQual _ n))
  have h8 : Plant z a := plant_when (plant_record z _)
  exact (((((((h1.trans h2).trans h3).trans h4).trans h5).trans h6).trans h7).trans h8).trans (plant_when (plant_cvuSourceLost a _))

end Sys2Proof.Laws
end

section
/-! The start-up (R43, R64, R416, R464 to R468). -/

namespace Sys2Proof.Laws

open Sys2Proof Sys2Proof.Machine Sys2Proof.Safety

/-! ### What a start-up carries from step to step -/

/-- The parts of the module that the end of a start-up rests on are as they were. -/
structure Carries (s t : State) : Prop where
  sys : t.sys = s.sys
  loaded : t.loaded = s.loaded
  cfg : t.cfg = s.cfg
  cells : t.cells = s.cells
  regions : t.regions = s.regions
  bank0 : t.store.bank0 = s.store.bank0
  bank1 : t.store.bank1 = s.store.bank1
  credBad : t.store.credBad = s.store.credBad
  hold : t.bist.hold = s.bist.hold

theorem Carries.refl (s : State) : Carries s s := ⟨rfl, rfl, rfl, rfl, rfl, rfl, rfl, rfl, rfl⟩

theorem Carries.trans {s t u : State} (h : Carries s t) (k : Carries t u) : Carries s u :=
  ⟨k.sys.trans h.sys, k.loaded.trans h.loaded, k.cfg.trans h.cfg, k.cells.trans h.cells, k.regions.trans h.regions,
    k.bank0.trans h.bank0, k.bank1.trans h.bank1, k.credBad.trans h.credBad, k.hold.trans h.hold⟩

theorem Carries.when {s : State} {c : Bool} {f : State → State} (h : Carries s (f s)) : Carries s (s.when c f) := by
  unfold State.when
  split
  · exact h
  · exact Carries.refl s

theorem carries_foldl {β : Type} (f : State → β → State) (h : ∀ s b, Carries s (f s b)) (l : List β) :
    ∀ s, Carries s (l.foldl f s) := by
  induction l with
  | nil => exact Carries.refl
  | cons b l ih => intro s; exact (h s b).trans (ih (f s b))

theorem Carries.of_plant {s t : State} (h : Plant s t) : Carries s t := by
  rw [h]
  exact ⟨rfl, rfl, rfl, rfl, rfl, rfl, rfl, rfl, rfl⟩

theorem carries_record (s : State) (a : RecArg) : Carries s (s.record a) := .of_plant (plant_record s a)

theorem carries_log (s : State) (a : LogArg) : Carries s (s.log a) := by
  unfold State.log
  repeat' split
  all_goals exact ⟨rfl, rfl, rfl, rfl, rfl, rfl, rfl, rfl, rfl⟩

theorem carries_storeEvt (s : State) (i : Nat) : Carries s (s.storeEvt i) := ⟨rfl, rfl, rfl, rfl, rfl, rfl, rfl, rfl, rfl⟩
theorem carries_bistRan (s : State) (i : Nat) (o : BitVec 2) : Carries s (s.bistRan i o) := ⟨rfl, rfl, rfl, rfl, rfl, rfl, rfl, rfl, rfl⟩
theorem carries_bistEvt (s : State) (i : Nat) : Carries s (s.bistEvt i) := ⟨rfl, rfl, rfl, rfl, rfl, rfl, rfl, rfl, rfl⟩
theorem carries_updEng (s : State) (e : Nat) (f : Engine → Engine) : Carries s (s.updEng e f) :=
  ⟨rfl, rfl, rfl, rfl, rfl, rfl, rfl, rfl, rfl⟩
theorem carries_pwr (s : State) (p : Power) : Carries s { s with pwr := p } := ⟨rfl, rfl, rfl, rfl, rfl, rfl, rfl, rfl, rfl⟩

theorem carries_keptCauses (s : State) : Carries s s.keptCauses := by
  unfold State.keptCauses
  extract_lets p t u v w
  have h1 : Carries s t := by
    show Carries s (match p.rail with | some r => _ | none => s)
    split
    · exact carries_record s _
    · exact Carries.refl s
  have h2 : Carries t u := Carries.when (carries_record t _)
  have h3 : Carries u v := Carries.when (carries_record u _)
  have h4 : Carries v w := Carries.when (carries_record v _)
  exact ((((h1.trans h2).trans h3).trans h4)).trans (carries_pwr w _)

/-- With no unit of the spine reported, S3 only counts its run. -/
theorem spineFails_nil (s : State) : s.spineFails [] = s.bistRan 4 1 := rfl

theorem carries_startBanks (s : State) (vf : BitVec 4) : Carries s (s.startBanks vf) := by
  refine .of_plant (plant_each _ _ (fun s b => ?_) s)
  extract_lets low
  have lows : ∀ h s, Plant s (low h s) := fun h s => (plant_updHalf s b h _).trans (plant_halfDown _ b h true)
  split
  · exact plant_updBank s b _
  · exact ((lows .a s).trans (lows .b _)).trans (plant_record _ _)

theorem carries_testBanks (s : State) (vf : BitVec 4) (els : List ElTest) (tps : List TpTest) : Carries s (s.testBanks vf els tps) :=
  .of_plant (plant_each _ _ (fun s b => plant_when (plant_bankTests s b els tps)) s)

theorem plant_bookRegions (s : State) : Plant s s.bookRegions := by
  have begins : ∀ (s : State) q, Plant s (s.beginTest q) := fun s q => (plant_setBucket s 0 _).trans (plant_request _ _ _ _)
  have ends : ∀ (s : State) q, Plant s (s.endTest q) := fun s q => plant_giveBack s 0 _
  have wakes : ∀ (s : State) q, Plant s (s.wakeRegion q) := fun s q =>
    ((plant_setBucket s 0 _).trans (plant_requestFirst _ _ _ _)).trans (plant_giveBack _ _ _)
  unfold State.bookRegions
  extract_lets a b c d
  have h1 : Plant s a := plant_each _ _ wakes s
  have h2 : Plant a b := (begins a 0).trans (begins _ 1)
  have h3 : Plant b c := (ends b 0).trans (begins _ 2)
  have h4 : Plant c d := (ends c 1).trans (begins _ 3)
  exact (((h1.trans h2).trans h3).trans h4).trans ((ends d 2).trans (ends _ 3))

theorem bistItems_nil (s : State) (q : Nat) (b : Bool) : s.bistItems q b [] = s := rfl

theorem Carries.regionsSet {s t : State} (h : Carries s t) (up : BitVec 4) :
    Carries { s with regions := up } { t with regions := up } :=
  ⟨h.sys, h.loaded, h.cfg, h.cells, rfl, h.bank0, h.bank1, h.credBad, h.hold⟩

/-- The regions that pass are powered; nothing else that the end of the start-up rests on changes (R468). -/
theorem carries_startRegions (s : State) (up : BitVec 4) : Carries { s with regions := up } (s.startRegions up []) := by
  unfold State.startRegions
  extract_lets src t
  have h1 : Carries { s with regions := up } t := (Carries.of_plant (plant_bookRegions s)).regionsSet up
  clear_value t
  refine h1.trans ?_
  apply carries_foldl
  intro s q
  simp only [List.filter_nil, List.foldl_nil, List.any_nil, Bool.not_false, when_true, bistItems_nil]
  split
  · exact (carries_foldl _ (fun s e => carries_updEng s _ _) _ s).trans (carries_bistRan _ _ _)
  · exact (((Carries.of_plant (plant_takeOut s _ _)).trans (carries_bistEvt _ _)).trans (carries_record _ _)).trans (carries_bistRan _ _ _)

/-! ### The bank -/

theorem Carries.storeBank {s t : State} (h : Carries s t) (b : Bool) : t.storeBank b = s.storeBank b := by
  cases b
  · exact h.bank0
  · exact h.bank1

/-- An erased header fails the first check (R416). -/
theorem failing_erased {k : BankS} (h : k.hdr = {}) (b : Bool) : k.failing b = 1 := by
  unfold BankS.failing
  rw [h]
  exact if_pos (by simp [imageMax])

/-- With no valid bank every bank is skipped, and none wins (R416). -/
theorem chooseBank_none (l : List Bool) : ∀ s : State, (∀ b, (s.storeBank b).failing b ≠ 0) →
    Carries s (s.chooseBank l) ∧ (s.chooseBank l).store.win = none := by
  induction l with
  | nil => exact fun s _ => ⟨⟨rfl, rfl, rfl, rfl, rfl, rfl, rfl, rfl, rfl⟩, rfl⟩
  | cons b rest ih =>
    intro s h
    unfold State.chooseBank
    extract_lets check src n t
    rw [if_neg (h b)]
    have h1 : Carries s t := (carries_storeEvt s 6).trans (carries_record _ _)
    have h2 : Carries s (t.log { kind := 0x15, d12 := n, d13 := BitVec.ofNat 32 check }) := h1.trans (carries_log t _)
    have invalid : ∀ b', ((t.log { kind := 0x15, d12 := n, d13 := BitVec.ofNat 32 check }).storeBank b').failing b' ≠ 0 :=
      fun b' => by rw [h2.storeBank]; exact h b'
    obtain ⟨carries, win⟩ := ih _ invalid
    exact ⟨h2.trans carries, win⟩

/-! ### The end of the start-up -/

/-- Supplies, system state, configuration and regions are as they were. -/
structure Serves (s t : State) : Prop where
  pwr : t.pwr = s.pwr
  sys : t.sys = s.sys
  loaded : t.loaded = s.loaded
  regions : t.regions = s.regions
  cfg : t.cfg = s.cfg

theorem Serves.refl (s : State) : Serves s s := ⟨rfl, rfl, rfl, rfl, rfl⟩

theorem Serves.trans {s t u : State} (h : Serves s t) (k : Serves t u) : Serves s u :=
  ⟨k.pwr.trans h.pwr, k.sys.trans h.sys, k.loaded.trans h.loaded, k.regions.trans h.regions, k.cfg.trans h.cfg⟩

theorem Serves.when {s : State} {c : Bool} {f : State → State} (h : Serves s (f s)) : Serves s (s.when c f) := by
  unfold State.when
  split
  · exact h
  · exact Serves.refl s

theorem serves_each (n : Nat) (f : State → Nat → State) (h : ∀ s i, Serves s (f s i)) (s : State) : Serves s (s.each n f) := by
  unfold State.each
  generalize List.range n = l
  induction l generalizing s with
  | nil => exact Serves.refl s
  | cons i l ih => exact (h s i).trans (ih (f s i))

theorem Serves.of_plant {s t : State} (h : Plant s t) : Serves s t := by
  rw [h]
  exact ⟨rfl, rfl, rfl, rfl, rfl⟩
theorem Serves.of_books {s t : State} (h : Books s t) : Serves s t := by
  rw [h]
  exact ⟨rfl, rfl, rfl, rfl, rfl⟩
theorem Serves.of_told {s t : State} (h : Told s t) : Serves s t := by
  rw [h]
  exact ⟨rfl, rfl, rfl, rfl, rfl⟩

/-- `t` is `s` but for its cluster memories. -/
def Stocked (s t : State) : Prop := t = { s with mems := t.mems }

theorem Stocked.serves {s t : State} (h : Stocked s t) : Serves s t := by
  rw [h]
  exact ⟨rfl, rfl, rfl, rfl, rfl⟩

theorem stocked_loadRuntime (s : State) (e : Nat) : Stocked s (s.loadRuntime e) := by
  unfold State.loadRuntime
  extract_lets b tag
  split <;> rfl

/-- The runtime's data of every engine of a powered region: cluster memory alone changes (R212). -/
theorem stocked_runtimes (s : State) : Stocked s (s.each 64 (fun s e => s.when (s.regionUp (e / 16)) (fun s => s.loadRuntime e))) := by
  unfold State.each
  generalize List.range 64 = l
  induction l generalizing s with
  | nil => rfl
  | cons e l ih =>
    have h1 : Stocked s (s.when (s.regionUp (e / 16)) (fun s => s.loadRuntime e)) := by
      unfold State.when
      split
      · exact stocked_loadRuntime s e
      · rfl
    have h2 := ih (s.when (s.regionUp (e / 16)) (fun s => s.loadRuntime e))
    rw [List.foldl_cons]
    unfold Stocked at *
    rw [h2, h1]

/-- A minor-frame boundary lies ahead, by less than half the range of TB. -/
theorem boundary_ahead {s : State} {ok : Nat → Bool} {x : Nat} (h : s.boundary ok = some x) :
    s.now + 100000 ≤ x ∧ x < s.now + 2 ^ 62 := by
  unfold State.boundary at h
  obtain ⟨i, found, rfl⟩ := Option.map_eq_some_iff.mp h
  have small : i < 8000 := List.mem_range.mp (List.mem_of_find?_eq_some found)
  omega

/-- A channel armed for an instant ahead is not due. -/
theorem reached_ahead {now x : Nat} (h1 : now < x) (h2 : x < now + 2 ^ 62) : reached now x = false := by
  unfold reached
  simp only [decide_eq_false_iff_not, not_lt]
  omega

/-- A channel that an instant still ahead arms does not fire (R94, R95). -/
theorem arm_ahead {s : State} {n x : Nat} {f : Chan → Chan} (hw : ∀ c, (f c).words % 2 ^ 64 = x % 2 ^ 64)
    (h1 : s.now < x) (h2 : x < s.now + 2 ^ 62) :
    s.arm n f = s.updChan n (fun c => { f c with armed := true, val := BitVec.ofNat 64 (f c).words }) := by
  unfold State.arm
  extract_lets t
  have value : (t.chan n).value = x % 2 ^ 64 := by
    simp only [t, chan_updChan_same, Chan.value, BitVec.toNat_ofNat]
    exact hw _
  have ahead : t.due n = false := by
    unfold State.due
    rw [value]
    have far : reached t.now (x % 2 ^ 64) = reached s.now x := by
      show reached s.now (x % 2 ^ 64) = _
      unfold reached
      rw [Nat.mod_mod]
    rw [far, reached_ahead h1 h2, Bool.and_false, Bool.false_and]
  rw [if_neg (by simp [ahead])]

theorem words_of_instant (c : Chan) (x : Nat) (h1 : c.lo = BitVec.ofNat 32 x) (h2 : c.hi = BitVec.ofNat 32 (x / 2 ^ 32)) :
    c.words % 2 ^ 64 = x % 2 ^ 64 := by
  unfold Chan.words
  rw [h1, h2]
  simp only [BitVec.toNat_ofNat]
  omega

theorem serves_armSchedule (s : State) (b : Nat) : Serves s (s.armSchedule b) := by
  unfold State.armSchedule
  split
  · exact Serves.refl s
  next x hx =>
  obtain ⟨ahead, near⟩ := boundary_ahead hx
  rw [arm_ahead (x := x) (fun c => words_of_instant _ x rfl rfl) (by omega) near]
  exact ⟨rfl, rfl, rfl, rfl, rfl⟩

/-- What entering service leaves where the configuration names no cell (R466, R468). -/
structure EntersService (s t : State) : Prop where
  phase : t.pwr.phase = .service
  sys : t.sys = { s.sys with done := setBit s.sys.done 10 true, refreshA := true, refreshB := true, evt := setBit s.sys.evt 2 true }
  loaded : t.loaded = s.loaded
  regions : t.regions = s.regions

theorem enterService_enters {s : State} (h : s.cfg.cells = []) : EntersService s s.enterService := by
  unfold State.enterService
  extract_lets a b c src src' src'' d e f g
  have h1 : Serves s a := (stocked_runtimes s).serves
  have h2 : b = a := by
    show a.cfg.cells.foldl _ a = a
    rw [h1.cfg, h]
    rfl
  have h3 : Serves d e := .of_books (books_availSweep d)
  have h4 : Serves e f := Serves.when (serves_each _ _ serves_armSchedule e)
  have h5 : Serves f g := serves_each _ _ (fun s p => .of_plant (plant_requalify s p)) f
  have h6 : Serves g ({ g with hif := { g.hif with lastW := g.now } } : State).checkSilence :=
    .of_told ((told_hif g _).trans (told_checkSilence _))
  have after := ((h3.trans h4).trans h5).trans h6
  have before : Serves s b := h2 ▸ h1
  refine ⟨?_, ?_, ?_, ?_⟩
  · rw [after.pwr]
    rfl
  · rw [after.sys]
    show ({ b.sys with done := setBit b.sys.done 10 true, refreshA := true, refreshB := true, evt := setBit b.sys.evt 2 true } : Sys) = _
    rw [before.sys]
  · rw [after.loaded]
    exact before.loaded
  · rw [after.regions]
    exact before.regions

/-- With no cell and no bank the availability count has nothing to follow (R69). -/
theorem availSweep_nil {s : State} (hc : s.cells = []) (hw : s.store.win = none) : s.availSweep = s := by
  have none : s.committed.cells = [] := by
    unfold State.committed
    rw [hw]
    rfl
  unfold State.availSweep
  simp only [hc, none, List.map_nil, List.foldl_nil]

/-- Entering service with no cell, no configuration and no valid bank leaves no cell. -/
theorem enterService_cells {s : State} (h : s.cfg.cells = []) (hl : s.loaded = false) (hc : s.cells = []) (hw : s.store.win = none) :
    s.enterService.cells = [] := by
  unfold State.enterService
  extract_lets a b c src src' src'' d e f g
  have h1 : Stocked s a := stocked_runtimes s
  have h2 : b = a := by
    show a.cfg.cells.foldl _ a = a
    rw [h1]
    show s.cfg.cells.foldl _ _ = _
    rw [h]
    rfl
  have cells : d.cells = [] := by
    show b.cells = []
    rw [h2, h1]
    exact hc
  have win : d.store.win = none := by
    show b.store.win = none
    rw [h2, h1]
    exact hw
  have h3 : e = d := availSweep_nil cells win
  have idle : e.loaded = false := by
    rw [h3]
    show b.loaded = false
    rw [h2, h1]
    exact hl
  have h4 : f = e := by
    show e.when e.loaded _ = e
    rw [idle]
    rfl
  have h5 : Plant f g := plant_each _ _ (fun s p => plant_requalify s p) f
  have h6 : Told g ({ g with hif := { g.hif with lastW := g.now } } : State).checkSilence := (told_hif g _).trans (told_checkSilence _)
  rw [h6]
  show g.cells = []
  rw [h5]
  show f.cells = []
  rw [h4, h3, cells]

/-! ### S10 with no valid bank -/

theorem log_win (s : State) (a : LogArg) : (s.log a).store.win = s.store.win := by
  unfold State.log
  repeat' split
  all_goals rfl

/-- With no valid bank S10 loads nothing and shows NOBANK (R416, R466). -/
theorem loadConfig_noBank {s : State} (hw : s.store.win = none) :
    ∃ u : State, Carries s u ∧ u.store.win = none ∧ s.loadConfig = { u with sys := { u.sys with noBank := true } } := by
  unfold State.loadConfig
  extract_lets img lost t src u v
  have h1 : Carries s t ∧ t.store.win = none := by
    cases hq : lost with
    | some q =>
      have ht : t = s.log { kind := 0x14, bankSeq := q } := by simp only [t, hq]
      rw [ht]
      exact ⟨carries_log s _, (log_win s _).trans hw⟩
    | none =>
      have ht : t = s := by simp only [t, hq]
      rw [ht]
      exact ⟨Carries.refl s, hw⟩
  have h2 : Carries t u ∧ u.store.win = t.store.win := ⟨⟨rfl, rfl, rfl, rfl, rfl, rfl, rfl, rfl, rfl⟩, rfl⟩
  have win : v.store.win = none := ((log_win u _).trans h2.2).trans h1.2
  refine ⟨v, (h1.1.trans h2.1).trans (carries_log u _), win, ?_⟩
  rw [if_pos (by rw [win]; rfl)]

/-- A choice of source and reference changes the timebase alone (R86). -/
theorem setReference_frame (s : State) (r : Nat) : ∃ tb sn, s.setReference r = { s with tb := tb, setNow := sn } := by
  have lock : ∀ (s : State) v, ∃ tb sn, s.setLock v = { s with tb := tb, setNow := sn } := fun s v => by
    unfold State.setLock State.when
    extract_lets was t
    split <;> exact ⟨_, _, rfl⟩
  have source : ∀ (s : State) a b c, ∃ tb sn, s.setSource a b c = { s with tb := tb, setNow := sn } := fun s a b c => by
    unfold State.setSource
    extract_lets change free src t u
    have h1 : ∃ tb sn, u = { s with tb := tb, setNow := sn } := by
      show ∃ tb sn, t.when change _ = _
      unfold State.when
      split <;> exact ⟨_, _, rfl⟩
    obtain ⟨tb, sn, h1⟩ := h1
    split
    · obtain ⟨tb', sn', h2⟩ := lock u true
      exact ⟨tb', sn', by rw [h2, h1]⟩
    · unfold State.when
      split
      · obtain ⟨tb', sn', h2⟩ := lock u false
        exact ⟨tb', sn', h2.trans (by rw [h1])⟩
      · exact ⟨tb, sn, h1⟩
  unfold State.setReference
  extract_lets a
  repeat' split
  all_goals exact source s _ _ _

/-- With nothing loaded the ring stays off, and the module takes its own reference (R86, R377). -/
theorem startRing_unloaded {s : State} (h : s.loaded = false) : ∃ tb sn, s.startRing = { s with tb := tb, setNow := sn } := by
  unfold State.startRing
  extract_lets t
  have none : t = s := by
    show s.when (s.loaded && s.cfg.flkEn && !s.isOut (siteSpine 0 0 8)) _ = s
    rw [h]
    rfl
  rw [none]
  exact setReference_frame s s.modAddr

/-- A start-up with no valid bank enters service with what it has (R466). -/
theorem startConfig_noBank {s : State} (lock : Bool) (hw : s.store.win = none) (hl : s.loaded = false) (hc : s.cfg.cells = [])
    (hn : s.cells = []) :
    (s.startConfig lock).pwr.phase = .service ∧ (s.startConfig lock).loaded = false ∧ (s.startConfig lock).cells = [] ∧
    (s.startConfig lock).regions = s.regions ∧ (s.startConfig lock).sys.noBank = true ∧
    (s.startConfig lock).sys.failStep = s.sys.failStep ∧
    (s.startConfig lock).sys.done = setBit (setBit s.sys.done 9 true) 10 true := by
  obtain ⟨u, carries, win, loads⟩ := loadConfig_noBank (s := { s with pwr := { s.pwr with s10At := s.now } }) hw
  have idle : u.loaded = false := carries.loaded.trans hl
  obtain ⟨tb, sn, ring⟩ := startRing_unloaded (s := { u with sys := { u.sys with noBank := true } }) idle
  have config : s.startConfig lock =
      (({ u with sys := { u.sys with noBank := true }, tb := tb, setNow := sn } : State).stepDone 10).enterService := by
    unfold State.startConfig
    extract_lets src c d r wait v
    have hc : c = { u with sys := { u.sys with noBank := true } } := loads
    have hd : d = c := if_neg (by rw [hc]; simp [idle])
    have hr : r = { u with sys := { u.sys with noBank := true }, tb := tb, setNow := sn } := by
      show d.startRing = _
      rw [hd, hc, ring]
    have none : wait = false := by
      show (r.loaded && r.cfg.flkEn) = false
      rw [hr]
      simp [idle]
    have hv : v = r := by
      show r.when (wait && lock) _ = r
      rw [none]
      rfl
    rw [none, hv, hr]
    rfl
  generalize hx : ({ u with sys := { u.sys with noBank := true }, tb := tb, setNow := sn } : State).stepDone 10 = x at config
  have enters : EntersService x x.enterService := enterService_enters (by subst hx; exact (congrArg Image.cells carries.cfg).trans hc)
  rw [config, enters.phase, enters.loaded, enters.regions, enters.sys,
    enterService_cells (by subst hx; exact (congrArg Image.cells carries.cfg).trans hc) (by subst hx; exact idle)
      (by subst hx; exact carries.cells.trans hn) (by subst hx; exact win)]
  subst hx
  refine ⟨rfl, idle, rfl, carries.regions, rfl, ?_, ?_⟩
  · show u.sys.failStep = _
    rw [carries.sys]
  · show setBit (setBit u.sys.done 9 true) 10 true = _
    rw [carries.sys]

/-! ### S1 to S3 with no unit of the spine reported -/

/-- The module as the reset of a start-up leaves it, with its link, its clocks and the conditions of BIST. -/
def startCleared (s : State) : State :=
  { s.cleared with hif := { s.cleared.hif with linkUp := s.hif.linkUp }, clk := { s.cleared.clk with pllLock := true, refOk := true },
                   bist := { s.cleared.bist with conds := true } }

/-- The module after the tests of S3, none of which has failed. -/
def spinePassed (s : State) : State :=
  ((((startCleared s).keptCauses.stepDone 1).stepDone 2).bistRan 4 1).when
    ((((startCleared s).keptCauses.stepDone 1).stepDone 2).bistRan 4 1 |>.isOut (siteSpine 0 0 7))
    (fun s => { s with hif := { s.hif with linkUp := false } })

theorem keptCauses_units (s : State) : s.keptCauses.units = s.units := by
  have records : ∀ (s : State) (a : RecArg), (s.record a).units = s.units := fun s a => by rw [record_frame]
  have records' : ∀ (s : State) (c : Bool) (a : RecArg), (s.when c (fun s => s.record a)).units = s.units := fun s c a => by
    unfold State.when
    split
    · exact records s a
    · rfl
  unfold State.keptCauses
  extract_lets p t u v w
  have h1 : t.units = s.units := by
    cases hr : p.rail with
    | some r =>
      have ht : t = s.record { src := 12, code := 1, site := sitePower 2, d6 := BitVec.ofNat 32 r.n, startup := true } := by
        simp only [t, hr]
      rw [ht, records]
    | none =>
      have ht : t = s := by simp only [t, hr]
      rw [ht]
  show w.units = _
  rw [records', records', records', h1]

theorem spinePassed_units (s : State) : (spinePassed s).units = [] := by
  have h : ((((startCleared s).keptCauses.stepDone 1).stepDone 2).bistRan 4 1).units = [] := keptCauses_units (startCleared s)
  unfold spinePassed State.when
  split
  · exact h
  · exact h

/-- With every unit in service each bank has its path. -/
theorem noBankPath_of_units {s : State} (h : s.units = []) : s.noBankPath = false := by
  have sound : ∀ site, s.isOut site = false := fun site => by
    unfold State.isOut State.unit
    rw [h]
    rfl
  unfold State.noBankPath
  simp only [sound, Bool.or_self]
  decide

/-- What S3 leaves for the later steps. -/
theorem spinePassed_carries (s : State) :
    ∃ u, Carries (startCleared s) u ∧ (spinePassed s).sys = { u.sys with done := setBit (setBit u.sys.done 0 true) 1 true } ∧
      Carries { u with sys := (spinePassed s).sys } (spinePassed s) := by
  have carries := carries_keptCauses (startCleared s)
  unfold spinePassed
  generalize (startCleared s).keptCauses = u at carries ⊢
  refine ⟨u, carries, ?_⟩
  unfold State.when
  split
  · exact ⟨rfl, rfl, rfl, rfl, rfl, rfl, rfl, rfl, rfl, rfl⟩
  · exact ⟨rfl, rfl, rfl, rfl, rfl, rfl, rfl, rfl, rfl, rfl⟩

/-- A start-up with no unit of the spine reported goes on from there. -/
theorem startUp_lidFails {s : State} {o : StartObs} (h : o.spine = []) (hl : o.lidA = true) :
    ∃ u : State, s.startUp o = u.faultStop 4 := by
  unfold State.startUp
  extract_lets link a src1 src2 src3 b c d e f
  have he : e = spinePassed s := by
    simp only [e, d, h, spineFails_nil]
    rfl
  have path : e.noBankPath = false := by
    rw [he]
    exact noBankPath_of_units (spinePassed_units s)
  rw [if_neg (by rw [h, path]; decide), if_pos (by rw [hl]; rfl)]
  exact ⟨_, rfl⟩

/-! ### S4 to S9 with nothing found -/

/-- What the field tests and the regions' start leave of the module after S3: the regions that pass, and the steps done. -/
theorem regionsStarted (e : State) (o : StartObs) :
    ∃ u : State, u.sys = { e.sys with done := setBit (setBit (setBit e.sys.done 2 true) 3 true) 4 true } ∧
      Carries { u with regions := o.regions } (((((e.stepDone 3).stepDone 4).startBanks o.vf).testBanks o.vf o.elements o.sources |>.stepDone 5).startRegions o.regions []) ∧
      Carries { e with sys := u.sys } u := by
  have h1 : Carries ((e.stepDone 3).stepDone 4) ((((e.stepDone 3).stepDone 4).startBanks o.vf).testBanks o.vf o.elements o.sources) :=
    (carries_startBanks _ _).trans (carries_testBanks _ _ _ _)
  generalize (((e.stepDone 3).stepDone 4).startBanks o.vf).testBanks o.vf o.elements o.sources = w at h1 ⊢
  refine ⟨w.stepDone 5, ?_, carries_startRegions _ _, ?_⟩
  · show ({ w.sys with done := setBit w.sys.done 4 true } : Sys) = _
    rw [h1.sys]
    rfl
  · exact ⟨rfl, h1.loaded, h1.cfg, h1.cells, h1.regions, h1.bank0, h1.bank1, h1.credBad, h1.hold⟩

theorem startUp_noRegion {s : State} {o : StartObs} (h : o.spine = []) (ha : o.lidA = false) (hb : o.lidB = false)
    (hf : o.field = []) (hi : o.items = []) (hr : o.regions = 0) : ∃ u : State, s.startUp o = u.faultStop 6 := by
  unfold State.startUp
  extract_lets link a src1 src2 src3 b c d e f lids g i j
  have he : e = spinePassed s := by
    simp only [e, d, h, spineFails_nil]
    rfl
  have path : e.noBankPath = false := by
    rw [he]
    exact noBankPath_of_units (spinePassed_units s)
  have hj : j.regions = 0 := by
    obtain ⟨u, _, regions, _⟩ := regionsStarted e o
    have := regions.regions
    simp only [j, i, g, f, hf, hi, List.foldl_nil]
    rw [this]
    exact hr
  rw [if_neg (by rw [h, path]; decide), if_neg (by rw [ha, hb]; decide), if_pos hj]
  exact ⟨_, rfl⟩

/-- With the store idle a reset keeps its contents (R426, R491). -/
theorem cleared_store {s : State} (h : s.store.holder = none) :
    s.cleared.store.bank0.hdr = s.store.bank0.hdr ∧ s.cleared.store.bank1.hdr = s.store.bank1.hdr ∧
    s.cleared.store.credBad = s.store.credBad := by
  have idle : s.cutStore = { s with store := { s.store with buf := [], works := [], holder := none } } := by
    unfold State.cutStore
    simp only [h, Option.isSome_none, when_false]
  show s.cutStore.store.bank0.hdr = _ ∧ s.cutStore.store.bank1.hdr = _ ∧ s.cutStore.store.credBad = _
  rw [idle]
  exact ⟨rfl, rfl, rfl⟩

/-- What a start-up carries but for the steps done and the regions. -/
structure Rests (s t : State) : Prop where
  loaded : t.loaded = s.loaded
  cfg : t.cfg = s.cfg
  cells : t.cells = s.cells
  bank0 : t.store.bank0 = s.store.bank0
  bank1 : t.store.bank1 = s.store.bank1
  credBad : t.store.credBad = s.store.credBad
  hold : t.bist.hold = s.bist.hold

theorem Carries.rests {s t : State} (h : Carries s t) : Rests s t := ⟨h.loaded, h.cfg, h.cells, h.bank0, h.bank1, h.credBad, h.hold⟩

theorem Rests.trans {s t u : State} (h : Rests s t) (k : Rests t u) : Rests s u :=
  ⟨k.loaded.trans h.loaded, k.cfg.trans h.cfg, k.cells.trans h.cells, k.bank0.trans h.bank0, k.bank1.trans h.bank1,
    k.credBad.trans h.credBad, k.hold.trans h.hold⟩

theorem rests_sys (s : State) (x : Sys) : Rests s { s with sys := x } := ⟨rfl, rfl, rfl, rfl, rfl, rfl, rfl⟩
theorem rests_regions (s : State) (x : BitVec 4) : Rests s { s with regions := x } := ⟨rfl, rfl, rfl, rfl, rfl, rfl, rfl⟩

/-- Six steps done, from none. -/
theorem six_steps : setBit (setBit (setBit (setBit (setBit (setBit (0 : BitVec 11) 0 true) 1 true) 2 true) 3 true) 4 true) 5 true = 0x3F#11 := by
  decide

theorem erased_invalid {s : State} (h0 : s.store.bank0.hdr = {}) (h1 : s.store.bank1.hdr = {}) (b : Bool) :
    (s.storeBank b).failing b ≠ 0 := by
  have erased : (s.storeBank b).hdr = {} := by
    cases b
    · exact h0
    · exact h1
  rw [failing_erased erased]
  decide

/-- A start-up that finds nothing comes to S10 with nine steps done and no bank. -/
theorem startUp_clean {s : State} {o : StartObs} (h : o.spine = []) (hf : o.field = []) (hi : o.items = []) (ha : o.lidA = false)
    (hb : o.lidB = false) (hl : o.storeLost = false) (hr : o.regions ≠ 0) (h0 : s.store.bank0.hdr = {}) (h1 : s.store.bank1.hdr = {})
    (hh : s.store.holder = none) (hc : s.store.credBad ≠ 3) (hd : s.bist.hold = false) :
    ∃ u : State, s.startUp o = u.startConfig o.lock ∧ u.store.win = none ∧ u.loaded = false ∧ u.cfg.cells = [] ∧ u.cells = [] ∧
      u.regions = o.regions ∧ u.sys.failStep = 0 ∧ u.sys.done = 0x1FF#11 := by
  unfold State.startUp
  extract_lets link a src1 src2 src3 b c d e f lids g i j src4 k src5 lost m n
  have he : e = spinePassed s := by
    simp only [e, d, h, spineFails_nil]
    rfl
  have path : e.noBankPath = false := by
    rw [he]
    exact noBankPath_of_units (spinePassed_units s)
  obtain ⟨x, kept, sys3, spine⟩ := spinePassed_carries s
  rw [← he] at sys3 spine
  obtain ⟨y, sys5, powered, tested⟩ := regionsStarted e o
  have hj : Carries { y with regions := o.regions } j := by
    simp only [j, i, g, f, hf, hi, List.foldl_nil]
    exact powered
  have up : j.regions = o.regions := hj.regions
  rw [if_neg (by rw [h, path]; decide), if_neg (by rw [ha, hb]; decide), if_neg (by rw [up]; exact hr)]
  rw [if_neg (by rw [hl]; decide)]
  have hk : k.sys = { j.sys with boot := j.bootEngine, done := setBit j.sys.done 5 true } ∧
      Carries { j with sys := k.sys } k := ⟨rfl, Carries.refl k⟩
  obtain ⟨sys6, booted⟩ := hk
  have fromReset : Rests (startCleared s) k :=
    ((kept.rests.trans (rests_sys x _)).trans (spine.rests.trans (rests_sys e _))).trans
      (tested.rests.trans ((rests_regions y _).trans (hj.rests.trans ((rests_sys j _).trans booted.rests))))
  obtain ⟨erased0, erased1, cred⟩ := cleared_store hh
  have steps : k.sys.done = 0x3F#11 ∧ k.sys.failStep = 0 := by
    rw [sys6, hj.sys]
    show setBit y.sys.done 5 true = _ ∧ y.sys.failStep = _
    rw [sys5, sys3, kept.sys]
    exact ⟨six_steps, rfl⟩
  have creds : (k.bistRan 5 1).startCreds = k.bistRan 5 1 := by
    have sound : k.store.credBad ≠ 3 := by
      rw [fromReset.credBad]
      exact cred ▸ hc
    exact if_neg sound
  have invalid : ∀ b, ((k.bistRan 5 1).storeBank b).failing b ≠ 0 :=
    erased_invalid ((congrArg BankS.hdr fromReset.bank0).trans (erased0.trans h0)) ((congrArg BankS.hdr fromReset.bank1).trans (erased1.trans h1))
  obtain ⟨chosen, win⟩ := chooseBank_none k.store.bankOrder (k.bistRan 5 1) invalid
  have hn : Rests k n ∧ n.store.win = none ∧ n.regions = k.regions ∧
      n.sys = { k.sys with done := setBit (setBit (setBit k.sys.done 6 true) 7 true) 8 true } := by
    have start : m = ((k.bistRan 5 1).chooseBank k.store.bankOrder).stepDone 7 := by simp only [m, creds]
    have rest : Rests k m := by
      rw [start]
      exact ((carries_bistRan k 5 1).trans chosen).rests.trans (rests_sys _ _)
    have sys7 : m.sys = { k.sys with done := setBit k.sys.done 6 true } := by
      rw [start]
      show ({ ((k.bistRan 5 1).chooseBank k.store.bankOrder).sys with done := setBit ((k.bistRan 5 1).chooseBank k.store.bankOrder).sys.done 6 true } : Sys) = _
      rw [chosen.sys]
      rfl
    have regions7 : m.regions = k.regions := by
      rw [start]
      exact chosen.regions
    have win7 : m.store.win = none := by
      rw [start]
      exact win
    refine ⟨rest.trans ((rests_sys m _).trans (rests_sys _ _)), win7, regions7, ?_⟩
    show ({ m.sys with done := setBit (setBit m.sys.done 7 true) 8 true } : Sys) = _
    rw [sys7]
  rw [if_neg ?_]
  · refine ⟨n, rfl, hn.2.1, hn.1.loaded.trans fromReset.loaded, ?_, hn.1.cells.trans fromReset.cells, ?_, ?_, ?_⟩
    · rw [hn.1.cfg, fromReset.cfg]
      rfl
    · rw [hn.2.2.1]
      exact up
    · rw [hn.2.2.2]
      exact steps.2
    · rw [hn.2.2.2]
      show setBit (setBit (setBit k.sys.done 6 true) 7 true) 8 true = _
      rw [steps.1]
      decide
  · rw [hn.1.hold, fromReset.hold]
    show ¬ s.cutStore.bist.hold = true
    rw [books_cutStore]
    simp [hd]

/-! ### Fault stop and the wait for lock -/

/-- A start-up that ends in fault stop shows its step (R467). -/
theorem faultStop_gives {s u : State} {o : StartObs} {n : Nat} (hs : s.pwr.phase = .starting) (h : s.startUp o = u.faultStop n) :
    Gives (exec (.startUp o) s) (fun t =>
      t.pwr.phase = .faultStop ∧ t.sys.failStep = BitVec.ofNat 4 n ∧ t.regions = 0 ∧ t.sys.safeOk = false) := by
  show Gives (execStartUp o s) _
  unfold execStartUp
  rw [if_pos hs, h]
  refine gives_settled ?_
  have phase : (u.faultStop n).pwr.phase = .faultStop := by rw [faultStop_pwr]
  rw [settle_pwr, settle_sys_failStep, settle_regions, settle_safeOk_low (mayBeSafe_outside phase (by decide))]
  exact ⟨phase, rfl, rfl, rfl⟩

/-- Settles O23: by the step at which the start-up ends, and by the lock that it waits for. -/
theorem startUpSequence : Obligations.StartUpSequence := by
  refine ⟨fun o s hs h hf hi ha hb hl hr h0 h1 hh hc hd => ?_, fun o s hs h ha => ?_, fun o s hs h ha hb hf hi hr => ?_,
    fun s hs hc => ⟨fun hl late => ?_, fun hl => ?_⟩⟩
  · obtain ⟨u, starts, win, loaded, cfg, cells, regions, failStep, done⟩ := startUp_clean h hf hi ha hb hl hr h0 h1 hh hc hd
    obtain ⟨p1, p2, p3, p4, p5, p6, p7⟩ := startConfig_noBank o.lock win loaded cfg cells
    show Gives (execStartUp o s) _
    unfold execStartUp
    rw [if_pos hs, starts]
    refine gives_settled ?_
    rw [settle_pwr, settle_sys_done, settle_sys_failStep, settle_sys_noBank, settle_loaded, settle_regions, settle_cells, p1, p2, p3, p4,
      p5, p6, p7, regions, failStep, done]
    exact ⟨rfl, by decide, rfl, rfl, rfl, rfl, rfl⟩
  · obtain ⟨u, stops⟩ := startUp_lidFails (s := s) h ha
    exact faultStop_gives hs stops
  · obtain ⟨u, stops⟩ := startUp_noRegion (s := s) h ha hb hf hi hr
    exact faultStop_gives hs stops
  · show Gives (execUnlockedLoad s) _
    unfold execUnlockedLoad
    rw [if_pos ⟨hs, hl, late⟩]
    refine gives_settled ?_
    have config : (s.record { src := 9, code := 4, site := siteSpine 0 0 0 }).cfg = s.cfg := (carries_record s _).cfg
    have enters := enterService_enters (s := (({ (s.record { src := 9, code := 4, site := siteSpine 0 0 0 }) with
      sys := { (s.record { src := 9, code := 4, site := siteSpine 0 0 0 }).sys with unlocked := true } } : State).stepDone 10))
      ((congrArg Image.cells config).trans hc)
    rw [settle_pwr, settle_sys_unlocked, settle_sys_refreshA, settle_sys_refreshB, enters.phase, enters.sys]
    exact ⟨rfl, rfl, rfl, rfl⟩
  · have enters := enterService_enters (s := s.stepDone 10) hc
    have loads : s.lockedLoad = ((s.stepDone 10).enterService).settle := if_pos ⟨hs, hl⟩
    rw [loads, settle_pwr, settle_sys_unlocked, settle_sys_refreshA, settle_sys_refreshB, enters.phase, enters.sys]
    exact ⟨rfl, rfl, rfl, rfl⟩

end Sys2Proof.Laws
end

section
/-! Latched reads, the compare channels, and the discipline of the timebase (R82 to R111, R142, R361, R492). -/

namespace Sys2Proof.Laws

open Sys2Proof Sys2Proof.Machine Sys2Proof.Safety

/-! ### What a settled state shows -/

@[simp] theorem settle_enc (s : State) (e : Nat) : s.settle.enc e = s.enc e := by simp only [State.enc, settle_encs]
@[simp] theorem settle_tp (s : State) (t : Nat) : s.settle.tp t = s.tp t := by simp only [State.tp, settle_tps]
@[simp] theorem settle_bank (s : State) (b : Nat) : s.settle.bank b = s.bank b := by simp only [State.bank, settle_banks]
@[simp] theorem settle_clu (s : State) (c : Nat) : s.settle.clu c = s.clu c := by simp only [State.clu, settle_mems]
@[simp] theorem settle_epair (s : State) (k : Nat) : s.settle.epair k = s.epair k := by simp only [State.epair, settle_epairs]
@[simp] theorem settle_cell (s : State) (c : Nat) : s.settle.cell c = s.cell c := by simp only [State.cell, settle_cells]
@[simp] theorem settle_grp (s : State) (g : Nat) : s.settle.grp g = s.grp g := by simp only [State.grp, settle_groups]
@[simp] theorem settle_axis (s : State) (a : Nat) : s.settle.axis a = s.axis a := by simp only [State.axis, settle_axes]
@[simp] theorem settle_conn (s : State) (n : Nat) : s.settle.conn n = s.conn n := by simp only [State.conn, settle_net]
@[simp] theorem settle_mac (s : State) (m : Nat) : s.settle.mac m = s.mac m := by simp only [State.mac, settle_net]
@[simp] theorem settle_peer (s : State) (m : Nat) : s.settle.peer m = s.peer m := by simp only [State.peer, settle_flk]
@[simp] theorem settle_chan (s : State) (n : Nat) : s.settle.chan n = s.chan n := by simp only [State.chan, settle_chans]
@[simp] theorem settle_cvu (s : State) (n : Nat) : s.settle.cvu n = s.cvu n := by simp only [State.cvu, settle_cvus]
@[simp] theorem settle_half (s : State) (b : Nat) (h : AB) : s.settle.half b h = s.half b h := by simp only [State.half, settle_halves]

@[simp] theorem enc_ret (s : State) (e : Nat) (lo hi : Word) : (s.ret lo hi).enc e = s.enc e := rfl

/-- What a command leaves, read off the state that it settles. -/
theorem gives_eq {o : Host.Outcome State Fault Refusal} {t : State} {P : State → Prop} (h : o = .next t.settle) (hp : P t.settle) :
    Gives o P := ⟨_, h, hp⟩

/-! ### Latched reads -/

/-- The read of TB_LO takes the party's latch and leaves every other (R83). -/
theorem latched_low (p : Party) (w : Word) (s : State) (n : Nat) :
    Tab.get {} (Tab.put {} s.tb.latch (partyNo p) { hi := w, frac := s.tb.frac }) n =
      if n = partyNo p then { hi := w, frac := s.tb.frac } else Tab.get {} s.tb.latch n :=
  get_put {} s.tb.latch (partyNo p) n _

/-- The head of a capture queue, read by its consumer, leaves the queue (R142). -/
theorem capLoRead_mine {e : Fin 8} {p : CapReader} {s : State} {h : CapE} {rest : List CapE} (hq : (s.enc e).queue = h :: rest)
    (hc : (s.inp (encInputA e)).code ≠ 15)
    (hm : (match p, (Tab.get {} s.cfg.caps e).consumer with
      | .host, none => true | .cell c, some d => c.val == d | _, _ => false) = true) :
    exec (.capLoRead e p) s = .next ((s.updEnc e (fun r => { (match p with
      | .host => { r with latch := some h }
      | .cell c => { r with cellLatch := Tab.put none r.cellLatch c.val (some h) }) with queue := rest })).ret
        (h.stamp.extractLsb' 0 32) (h.stamp.extractLsb' 32 32)).settle := by
  show execCapLoRead e p s = _
  unfold execCapLoRead
  extract_lets mine put
  have hm' : mine = true := hm
  have keeps : ∀ f, ((s.updEnc e f).inp (encInputA e)).code ≠ 15 := fun _ => hc
  rw [hq, hm']
  simp only [State.when, beq_iff_eq, if_neg (keeps _)]
  rfl

/-- Any other reader of a capture queue gets 0 and removes nothing (R142). -/
theorem capLoRead_other {e : Fin 8} {c : Fin 1024} {s : State} (h : (Tab.get {} s.cfg.caps e).consumer ≠ some c.val) :
    exec (.capLoRead e (.cell c)) s =
      .next ((s.updEnc e (fun r => { r with cellLatch := Tab.put none r.cellLatch c.val none })).ret 0).settle := by
  show execCapLoRead e (.cell c) s = _
  unfold execCapLoRead
  extract_lets mine put
  have hm : mine = false := by
    simp only [mine]
    split
    · next hp _ => cases hp
    · next d hp hd =>
      cases hp
      simp only [beq_eq_false_iff_ne]
      rintro rfl
      exact h hd
    · rfl
  rw [hm]
  split
  · next hf => cases hf
  · rfl

/-- Settles O24. -/
theorem latchedReads : Obligations.LatchedReads := by
  refine ⟨?_, fun p s => ⟨rfl, rfl⟩, fun _ => rfl, fun _ => rfl, ?_, ?_⟩
  · intro p what s hw
    show Gives (execTbLoRead p what s) _
    rcases hw with rfl | rfl
    · refine gives_settled ?_
      rw [settle_tb, settle_rd]
      exact ⟨rfl, fun _ h => (nomatch h), latched_low p _ s, rfl, rfl⟩
    · refine gives_settled ?_
      rw [settle_tb, settle_rd]
      exact ⟨rfl, fun hp _ => if_pos hp, latched_low p _ s, rfl, rfl⟩
  · intro e h rest s hq hc
    constructor
    · intro hn
      refine gives_eq (capLoRead_mine hq hc (by rw [hn])) ?_
      rw [settle_rd, settle_enc, enc_ret, enc_updEnc_same]
      exact ⟨rfl, rfl⟩
    · intro c hs
      refine gives_eq (capLoRead_mine hq hc (by rw [hs]; simp)) ?_
      rw [settle_rd, settle_enc, enc_ret, enc_updEnc_same]
      exact ⟨rfl, rfl, (get_put_same none (s.enc e).cellLatch c.val (some h) :), rfl⟩
  · intro e c s h
    refine gives_eq (capLoRead_other h) ?_
    rw [settle_rd, settle_enc, enc_ret, enc_updEnc_same]
    exact ⟨rfl, rfl, (get_put_same none (s.enc e).cellLatch c.val none :), rfl⟩

/-! ### Firing -/

/-- `t` is `s` but for pending events and what they report. -/
def Rings (s t : State) : Prop :=
  t = { s with regs := t.regs, engs := t.engs, hif := { s.hif with evt := t.hif.evt, pend := t.hif.pend }, recs := t.recs, recSeq := t.recSeq
               port := t.port, setNow := t.setNow }

theorem Rings.refl (s : State) : Rings s s := rfl

theorem Rings.trans {s t u : State} (h : Rings s t) (k : Rings t u) : Rings s u := by
  unfold Rings at *
  rw [k, h]

theorem rings_when {s : State} {c : Bool} {f : State → State} (h : Rings s (f s)) : Rings s (s.when c f) := by
  unfold State.when
  split
  · exact h
  · exact Rings.refl s

theorem rings_hifEvt (s : State) (i : Nat) : Rings s (s.hifEvt i) := by rw [hifEvt_frame]; rfl
theorem rings_record (s : State) (a : RecArg) : Rings s (s.record a) := by rw [record_frame]; rfl
theorem rings_regs (s : State) (r : Regs) (i j : Nat) : Rings s ({ s with regs := r }.mark i j) := rfl
theorem rings_updEng (s : State) (e : Nat) (f : Engine → Engine) : Rings s (s.updEng e f) := rfl

theorem rings_event (s : State) (e n : Nat) : Rings s (s.event e n) := by
  unfold State.event
  extract_lets h t
  exact (rings_updEng s _ _).trans (rings_when (rings_updEng t _ _))

theorem rings_slotEvent (s : State) (c n : Nat) : Rings s (s.slotEvent c n) := by
  unfold State.slotEvent
  extract_lets x v e
  split
  · exact rings_event s _ _
  · exact Rings.refl s

/-- The channel of a firing, disarmed. -/
def disarmed (s : State) (n : Nat) : State := s.updChan n (fun c => { c with armed := false, shared := false })

/-- A firing disarms the channel and reports itself; all else waits for its action (R95, R97). -/
theorem rings_fired (s : State) (n : Nat) : Rings (disarmed s n) (s.fired n) := by
  unfold State.fired
  extract_lets c _ flagged irq slot
  have h1 : Rings (disarmed s n) flagged := rings_when (rings_regs _ _ _ _)
  have h2 : Rings flagged irq := rings_when (rings_hifEvt _ _)
  have h3 : Rings irq slot := by
    simp only [slot]
    split
    · exact rings_slotEvent _ _ _
    · exact Rings.refl _
  exact ((h1.trans h2).trans h3).trans (rings_when (rings_record _ _))

section
variable {s t : State} (h : Rings s t)
include h

theorem Rings.chan (m : Nat) : t.chan m = s.chan m := by rw [h]; rfl
theorem Rings.tb : t.tb = s.tb := by rw [h]
theorem Rings.cfg : t.cfg = s.cfg := by rw [h]
theorem Rings.cells : t.cells = s.cells := by rw [h]
theorem Rings.perm : t.perm = s.perm := by rw [h]
theorem Rings.chans : t.chans = s.chans := by rw [h]

end

@[simp] theorem fired_chan_same (s : State) (n : Nat) : (s.fired n).chan n = { s.chan n with armed := false, shared := false } := by
  rw [(rings_fired s n).chan, disarmed, chan_updChan_same]
theorem fired_chan_other (s : State) {n m : Nat} (h : m ≠ n) : (s.fired n).chan m = s.chan m := by
  rw [(rings_fired s n).chan, disarmed, chan_updChan, if_neg h]
@[simp] theorem tbEvt_chan (s : State) (i n : Nat) : (s.tbEvt i).chan n = s.chan n := rfl
@[simp] theorem fired_tb (s : State) (n : Nat) : (s.fired n).tb = s.tb := (rings_fired s n).tb
@[simp] theorem fired_cfg (s : State) (n : Nat) : (s.fired n).cfg = s.cfg := (rings_fired s n).cfg
@[simp] theorem fired_cells (s : State) (n : Nat) : (s.fired n).cells = s.cells := (rings_fired s n).cells
@[simp] theorem fired_perm (s : State) (n : Nat) : (s.fired n).perm = s.perm := (rings_fired s n).perm

@[simp] theorem record_regs (s : State) (a : RecArg) : (s.record a).regs = s.regs := by rw [record_frame]
@[simp] theorem whenRecord_regs (s : State) (b : Bool) (a : State → RecArg) : (s.when b (fun s => s.record (a s))).regs = s.regs := by
  unfold State.when
  split
  · exact record_regs s (a s)
  · rfl
@[simp] theorem event_regs (s : State) (e n : Nat) : (s.event e n).regs = s.regs := by
  unfold State.event State.when
  extract_lets h t
  split <;> rfl
@[simp] theorem slotEvent_regs (s : State) (c n : Nat) : (s.slotEvent c n).regs = s.regs := by
  unfold State.slotEvent
  extract_lets x v e
  split
  · exact event_regs s _ _
  · rfl

/-- A firing sets the FIRED bit of a host channel (R97). -/
theorem fired_bit (s : State) {n : Nat} (h : 224 ≤ n) (hn : n < 256) : bit (s.fired n).regs.fired (n - 224) = true := by
  unfold State.fired
  extract_lets c _ flagged irq slot
  have h3 : slot.regs = irq.regs := by
    simp only [slot]
    split
    · exact slotEvent_regs irq _ _
    · rfl
  have h2 : irq.regs = flagged.regs := by
    simp only [irq, State.when]
    split
    · rw [hifEvt_frame]
    · rfl
  have h1 : flagged.regs.fired = setBit s.regs.fired (n - 224) true := by
    simp only [flagged, State.when, ge_iff_le, h, decide_true, if_true]
    rfl
  rw [whenRecord_regs, h3, h2, h1]
  simp [bit_setBit_true]
  omega

/-! ### Writes to channels -/

/-- A firing of action 0x0 has no effect of its own (R97). -/
theorem fire_plain {s : State} {n : Nat} (h : (s.chan n).code = 0) : s.fire n = s.fired n := by
  unfold State.fire State.act
  have code : ((s.fired n).chan n).code = 0 := by
    rw [fired_chan_same]
    exact h
  simp only [code]

/-- The state in which a write to a channel acts: a write to a host channel is one of the host (R99). -/
def written (s : State) (n : Nat) : State := if 224 ≤ n then s.hostWrite else s

theorem written_told (s : State) (n : Nat) : Told s (written s n) := by
  unfold written
  split
  · exact told_hostWrite s
  · exact Told.refl s

theorem written_chan (s : State) (n m : Nat) : (written s n).chan m = s.chan m := by rw [written_told s n]; rfl
theorem written_tb (s : State) (n : Nat) : (written s n).tb = s.tb := by rw [written_told s n]
theorem written_due (s : State) (n m : Nat) : (written s n).due m = s.due m := by rw [written_told s n]; rfl

theorem when_written (s : State) (n : Nat) : s.when (decide (224 ≤ n)) State.hostWrite = written s n := by
  simp only [State.when, written, decide_eq_true_eq]

/-- A write before which nothing is due fires nothing (R95). -/
theorem fireDue_idle {s : State} {n : Nat} (h : s.due n = false) : s.fireDue n = s := by
  unfold State.fireDue
  rw [h]
  rfl

/-- A channel that is due fires before a write disarms it (R95). -/
theorem fireDue_due {s : State} {n : Nat} (h : s.due n = true) (h5 : (s.chan n).code ≠ 5) (h6 : (s.chan n).code ≠ 6)
    (h8 : (s.chan n).code ≠ 8) : s.fireDue n = s.fire n := by
  unfold State.fireDue
  simp [State.when, h, h5, h6, h8]

/-- A channel armed with a value that TB has not reached, or while TB runs from the LF clock, waits (R94, R95). -/
theorem arm_waits {s : State} {n : Nat} {f : Chan → Chan} (h : reached s.now ((f (s.chan n)).words % 2 ^ 64) = false ∨ s.tb.lfRun = true) :
    s.arm n f = s.updChan n (fun c => { f c with armed := true, val := BitVec.ofNat 64 (f c).words }) := by
  unfold State.arm
  extract_lets t
  have waits : t.due n = false := by
    unfold State.due
    have value : (t.chan n).value = (f (s.chan n)).words % 2 ^ 64 := by
      simp only [t, chan_updChan_same, Chan.value, BitVec.toNat_ofNat]
    rw [value]
    rcases h with h | h
    · have far : reached t.now ((f (s.chan n)).words % 2 ^ 64) = false := h
      rw [far, Bool.and_false, Bool.false_and]
    · have lf : t.tb.lfRun = true := h
      rw [lf, Bool.not_true, Bool.and_false]
  rw [if_neg (by simp [waits])]

/-- The value of a channel's two words (R95). -/
theorem words_small (c : Chan) (v : Word) : ({ c with hi := v } : Chan).words % 2 ^ 64 = v.toNat * 2 ^ 32 + c.lo.toNat := by
  have h1 := v.isLt
  have h2 := c.lo.isLt
  show (v.toNat * 2 ^ 32 + c.lo.toNat) % 2 ^ 64 = _
  omega

/-- A channel of no cell and of action 0x0 that is armed late fires at once with LATE (R95). -/
theorem arm_late {s : State} {n : Nat} {f : Chan → Chan} (hr : reached s.now ((f (s.chan n)).words % 2 ^ 64) = true)
    (hl : s.tb.lfRun = false) (hs : (f (s.chan n)).shared = false) (hc : (f (s.chan n)).code = 0) :
    s.arm n f = (((s.updChan n (fun c => { f c with armed := true, val := BitVec.ofNat 64 (f c).words })).tbEvt 3).updChan n
      (fun c => { c with shared := false })).fired n := by
  unfold State.arm
  extract_lets t c u w
  have due : t.due n = true := by
    unfold State.due
    have value : (t.chan n).value = (f (s.chan n)).words % 2 ^ 64 := by
      simp only [t, chan_updChan_same, Chan.value, BitVec.toNat_ofNat]
    have armed : (t.chan n).armed = true := by simp only [t, chan_updChan_same]
    have now : reached t.now ((f (s.chan n)).words % 2 ^ 64) = true := hr
    have lf : t.tb.lfRun = false := hl
    rw [value, armed, now, lf]
    rfl
  have plain : c.shared = false := by simp only [c, t, chan_updChan_same]; exact hs
  have same : w = u := by simp only [w, plain]; rfl
  rw [if_pos due, same]
  refine fire_plain ?_
  simp only [u, chan_updChan_same]
  show Chan.code (Chan.mk _ _ _ _ ((t.tbEvt 3).chan n).act _ _ _ _) = 0
  have act : ((t.tbEvt 3).chan n).act = (f (s.chan n)).act := by
    show (t.chan n).act = _
    simp only [t, chan_updChan_same]
  rw [act]
  exact hc

/-- Settles O25. -/
theorem channelWrites : Obligations.ChannelWrites := by
  refine ⟨?_, ?_, ?_, ?_⟩
  · rintro n v s w hw
    have hw' : w = written s n := hw
    have low : exec (.tcmpLoWrite n v) s = .next ((w.fireDue n).updChan n (fun c => { c with lo := v, armed := false })).settle := by
      show doneSettled ((s.when _ _).writeTcmpLo n v) = _
      rw [when_written, ← hw']
      rfl
    refine ⟨fun hd => ?_, fun hd h5 h6 h8 => ?_, fun hr => ?_⟩
    · rw [low, fireDue_idle (by rw [hw', written_due, hd])]
    · rw [low, fireDue_due (by rw [hw', written_due, hd]) (by rwa [hw', written_chan]) (by rwa [hw', written_chan])
        (by rwa [hw', written_chan])]
    · show doneSettled ((s.when _ _).arm n _) = _
      rw [when_written, ← hw', arm_waits ?_]
      · rfl
      · rw [words_small, hw', written_chan, State.now, written_tb]
        exact hr
  · intro n v s hr hl hc hn hs
    show Gives (doneSettled ((s.when _ _).arm n _)) _
    rw [when_written, arm_late ?late ?lf ?shared ?code]
    case late => rw [words_small, written_chan, State.now, written_tb]; exact hr
    case lf => rw [written_tb]; exact hl
    case shared => rw [written_chan]; exact hs
    case code => rw [written_chan]; exact hc
    refine gives_settled ?_
    rw [settle_tb, settle_regs]
    simp only [settle_chan]
    refine ⟨?_, ?_, ?_, ?_, fun h => fired_bit _ h n.isLt, fun m hm => ?_⟩
    · rw [fired_chan_same]
    · simp only [fired_chan_same, chan_updChan_same, tbEvt_chan]
    · simp only [fired_chan_same, chan_updChan_same, tbEvt_chan, written_chan]
    · rw [fired_tb]
      show { (written s n).tb with evt := setBit (written s n).tb.evt 3 true } = _
      rw [written_tb]
    · rw [fired_chan_other _ hm, chan_updChan, if_neg hm]
      rw [tbEvt_chan, chan_updChan, if_neg hm, written_chan]
  · intro n v s hv
    have act : exec (.tcmpActWrite n v) s = .next ((s.hostWrite.fireDue (224 + n)).updChan (224 + n) (fun c => { c with
        act := v.extractLsb' 0 12, armed := false })).settle := by
      show doneSettled (s.hostWrite.writeTcmpAct n v) = _
      unfold State.writeTcmpAct
      rw [if_neg (by omega)]
      rfl
    have due : s.hostWrite.due (224 + n) = s.due (224 + n) := by rw [told_hostWrite s]; rfl
    have chan : s.hostWrite.chan (224 + n) = s.chan (224 + n) := by rw [told_hostWrite s]; rfl
    refine ⟨fun hd => ?_, fun hd hc => ?_⟩
    · rw [act, fireDue_idle (by rw [due, hd])]
    · rw [act, fireDue_due (by rw [due, hd]) (by rw [chan]; omega) (by rw [chan]; omega) (by rw [chan]; omega)]
  · intro n v s hv
    show Gives (doneSettled (s.hostWrite.writeTcmpAct n v)) _
    unfold State.writeTcmpAct
    rw [if_pos hv]
    refine gives_settled ?_
    rw [settle_tb, settle_chans]
    show s.hostWrite.chans = s.chans ∧ { s.hostWrite.tb with evt := setBit s.hostWrite.tb.evt 4 true } = _
    rw [told_hostWrite s]
    exact ⟨rfl, rfl⟩

end Sys2Proof.Laws
end

section
/-! The actions of the compare channels, and the discipline of the timebase (R85 to R99, R108, R157, R361, R401). -/

namespace Sys2Proof.Laws

open Sys2Proof Sys2Proof.Machine Sys2Proof.Safety

/-! ### Actions -/

theorem fireIf_due {s : State} {n code : Nat} {act : State → State} (hd : s.due n = true) (hc : (s.chan n).code = code) :
    s.fireIf n code act = act (s.fired n) := by
  unfold State.fireIf
  rw [if_pos (by rw [hd, hc, beq_self_eq_true]; rfl)]

/-- The entry of a table at an address that later words leave alone. -/
theorem putAll_get_other (i : Nat) : ∀ (l : List (Nat × Word)) (t : Tab Word), (∀ e ∈ l, e.1 ≠ i) →
    Tab.get 0 (putAll t l) i = Tab.get 0 t i := by
  intro l
  induction l with
  | nil => intro t _; rfl
  | cons e l ih =>
    intro t h
    show Tab.get 0 (putAll (Tab.put 0 t e.1 e.2) l) i = _
    rw [ih _ (fun x hx => h x (List.mem_cons_of_mem _ hx)), get_put, if_neg (Ne.symm (h e List.mem_cons_self))]

theorem placed_ge (k : Nat) (l : List Word) : ∀ e ∈ placed k l, k ≤ e.1 := by
  intro e he
  obtain ⟨i, _, rfl⟩ := List.mem_map.mp he
  exact Nat.le_add_right k i

/-- The tick of a snapshot stands in the process image's words 1 and 2 (R289). -/
theorem snapshot_tick (t : Tab Word) (a b : Word) (l m : List Word) :
    Tab.get 0 (putAll t (placed 1 [a, b] ++ placed 0x8 l ++ placed 0xC m)) 1 = a ∧
      Tab.get 0 (putAll t (placed 1 [a, b] ++ placed 0x8 l ++ placed 0xC m)) 2 = b := by
  have later : ∀ e ∈ placed 0x8 l ++ placed 0xC m, 8 ≤ e.1 := by
    intro e he
    rcases List.mem_append.mp he with h | h
    · exact placed_ge _ _ e h
    · exact le_trans (by omega) (placed_ge _ _ e h)
  have first : putAll t (placed 1 [a, b] ++ placed 0x8 l ++ placed 0xC m) =
      putAll (Tab.put 0 (Tab.put 0 t 1 a) 2 b) (placed 0x8 l ++ placed 0xC m) := by
    rw [List.append_assoc]
    rfl
  rw [first, putAll_get_other 1 _ _ (fun e he => by have := later e he; omega),
    putAll_get_other 2 _ _ (fun e he => by have := later e he; omega)]
  constructor
  · rw [get_put, if_neg (by omega), get_put_same]
  · exact get_put_same _ _ _ _

/-- A standard output that a channel or a PI_WRITE sets takes the level (R97, R402). -/
theorem setStd_level (s : State) (o : Nat) (v : Bool) : ((s.setStd o v).out o).level = v := by
  unfold State.setStd
  rw [out_updOut_same]

/-- The held changes of a cell whose last armed channel has fired take effect (R98). -/
theorem releaseHeld_held {s : State} {c : Nat} (h : s.heldArmed c = false) :
    (s.releaseHeld c).perm.held = s.perm.held.filter (fun h => h.cell != c) := by
  unfold State.releaseHeld
  rw [if_neg (by simp [h])]
  extract_lets mine t
  have keeps : ∀ (l : List Held) (u : State), (l.foldl (fun s h => s.applyHeld h) u).perm.held = u.perm.held := by
    intro l
    induction l with
    | nil => intro u; rfl
    | cons x l ih => intro u; exact (ih _).trans rfl
  rw [keeps]

/-- A held change of a cell that turns it on writes its slot (R98). -/
theorem releaseHeld_one {s : State} {c : Nat} {h : Held} (hc : s.heldArmed c = false) (hl : s.perm.held = [h]) (hh : h.cell = c)
    (h2 : h.second = false) :
    (Tab.get {} (s.releaseHeld c).perm.slots h.slot).p0 = true ∧ (Tab.get {} (s.releaseHeld c).perm.slots h.slot).t0 = s.now := by
  unfold State.releaseHeld
  rw [if_neg (by simp [hc])]
  extract_lets mine _ t
  have one : mine = [h] := by simp [mine, hl, hh]
  rw [one]
  have same : ∀ (f : Slot → Slot), Tab.get {} (t.mapSlots (fun t => Tab.upd {} t h.slot f)).perm.slots h.slot =
      f (Tab.get {} s.perm.slots h.slot) := fun f => get_upd_same {} s.perm.slots h.slot f
  simp only [List.foldl, State.applyHeld, same, h2, Bool.false_eq_true, if_false]
  exact ⟨trivial, rfl⟩

/-- The start of a bank's schedule changes the field side alone (R157). -/
theorem plant_startSchedule (s : State) (b S : Nat) : Plant s (s.startSchedule b S) := by
  unfold State.startSchedule
  extract_lets tell
  have told : ∀ h s, Plant s (tell h s) := fun h s => plant_when (plant_updHalf s b h _)
  exact (((told .a s).trans (told .b _)).trans (plant_updBank _ b _)).trans (plant_setBucket _ _ _)

theorem startSchedule_sched (s : State) (b S : Nat) : ((s.startSchedule b S).bank b).sched = some S := by
  unfold State.startSchedule
  extract_lets tell
  have banks : ∀ (u : State) d x, (u.setBucket d x).bank b = u.bank b := fun u d x => by
    unfold State.setBucket
    split <;> rfl
  rw [banks, bank_updBank_same]

/-- Settles O26. -/
theorem channelActions : Obligations.ChannelActions := by
  refine ⟨?_, ?_, ?_, ?_, ?_, ?_, ?_, ?_⟩
  · intro n s hd hc _
    show Gives (doneSettled (s.fireIf n 0 id)) _
    rw [fireIf_due hd hc]
    refine gives_settled ?_
    rw [settle_chan, settle_regs, settle_cells, settle_perm, id, fired_chan_same, fired_cells, fired_perm]
    exact ⟨rfl, fun h => fired_bit s h n.isLt, rfl, rfl⟩
  · intro n s hd hc hn hm
    show doneSettled (s.fireIf n 1 (fun s => s.actStd n)) = _
    rw [fireIf_due hd hc]
    show Host.Outcome.next ((s.fired n).actStd n).settle = _
    unfold State.actStd
    extract_lets a o
    have ha : a = (s.chan n).act := by simp only [a, if_pos hn, fired_chan_same]
    have ho : o = 16 * fld (s.chan n).act 5 4 + fld (s.chan n).act 9 6 := by simp only [o, ha]
    have mode : ((s.fired n).outRec o).mode = 2 := by
      unfold State.outRec
      rw [fired_cfg, ho]
      exact hm
    rw [if_pos mode, ha, ho]
  · intro o s
    refine ⟨setStd_level _ o false, ?_, ?_, ?_⟩
    · show (o :: s.tb.chanOff).contains o = true
      simp
    · intro h1 h2
      unfold State.chanLevel
      rw [h1, h2, if_neg (by decide)]
      exact setStd_level _ o true
    · intro h
      unfold State.chanLevel
      rw [if_pos (by simpa using h)]
  · intro n s hd hc
    show Gives (doneSettled (s.fireIf n 2 (fun s => s.actHostSnap n))) _
    rw [fireIf_due hd hc]
    refine gives_settled ?_
    rw [settle_chan, settle_hif_snap]
    refine ⟨?_, rfl⟩
    show ((s.fired n).chan n).armed = false
    rw [fired_chan_same]
  · intro n c s hd hc hx
    show Gives (doneSettled (s.fireIf n 3 (fun s => s.actCellSnap n))) _
    rw [fireIf_due hd hc]
    refine gives_settled ?_
    have cell : ((s.fired n).chan n).cell = some c := by rw [fired_chan_same]; exact hx
    rw [settle_chan, settle_cell]
    unfold State.actCellSnap
    simp only [cell, cell_updCell_same, fired_tb]
    refine ⟨?_, snapshot_tick _ _ _ _ _⟩
    show ((s.fired n).chan n).armed = false
    rw [fired_chan_same]
  · intro n c s hd hc hx hh
    show Gives (doneSettled (s.fireIf n 4 _)) _
    rw [fireIf_due hd hc]
    have cell : ((s.fired n).chan n).cell = some c := by rw [fired_chan_same]; exact hx
    simp only [cell]
    refine gives_settled ?_
    rw [settle_perm]
    refine ⟨fun h hm => ?_, fun h hl he h2 => ?_⟩
    · rw [releaseHeld_held hh] at hm
      simpa using (List.mem_filter.mp hm).2
    · have now : (s.fired n).now = s.now := by rw [State.now, fired_tb]; rfl
      rw [← now]
      exact releaseHeld_one hh (by rw [fired_perm]; exact hl) he h2
  · intro n b s hd hc hu
    show Gives (doneSettled (s.fireIf n 5 _)) _
    rw [fireIf_due hd hc, hu]
    refine gives_settled ?_
    rw [settle_bank, settle_chan]
    refine ⟨startSchedule_sched _ b _, ?_⟩
    rw [chan_updChan_same]
    show (((s.fired n).startSchedule b _).chan n).armed = false
    rw [plant_startSchedule (s.fired n) b]
    show ((s.fired n).chan n).armed = false
    rw [fired_chan_same]
  · intro n s hd hc
    show doneSettled (s.fireIf n 7 _) = _
    rw [fireIf_due hd hc]
    rfl

/-! ### Measurements -/

theorem setLock_tb (s : State) (v : Bool) : (s.setLock v).tb = { s.tb with lock := v, evt := (s.setLock v).tb.evt } := by
  unfold State.setLock State.when
  extract_lets was t
  split <;> rfl

/-- LOCK_LOST sets when lock falls (R90). -/
theorem setLock_lost {s : State} (h : s.tb.lock = true) : bit (s.setLock false).tb.evt 0 = true := by
  unfold State.setLock
  rw [h]
  show bit (setBit s.tb.evt 0 true) 0 = true
  simp [bit_setBit_true]

theorem setLock_frame (s : State) (v : Bool) : ∃ tb sn, s.setLock v = { s with tb := tb, setNow := sn } := by
  unfold State.setLock State.when
  extract_lets was t
  split <;> exact ⟨_, _, rfl⟩

/-- What the lock bookkeeping of a measurement leaves: the count, its fraction, INC, the cells and the free values (R90). -/
theorem lockCount_keeps (s : State) (off : Int) :
    (s.lockCount off).tb.tb = s.tb.tb ∧ (s.lockCount off).tb.frac = s.tb.frac ∧ (s.lockCount off).cells = s.cells := by
  unfold State.lockCount
  extract_lets good far _ t
  have kept : ∀ v, (t.setLock v).tb.tb = s.tb.tb ∧ (t.setLock v).tb.frac = s.tb.frac ∧ (t.setLock v).cells = s.cells := fun v => by
    obtain ⟨tb, sn, h⟩ := setLock_frame t v
    rw [setLock_tb]
    exact ⟨rfl, rfl, by rw [h]⟩
  split
  · exact kept false
  · split
    · exact kept true
    · exact ⟨rfl, rfl, rfl⟩

/-- INC while slewing stays within the limit of R88. -/
theorem boundInc_within (ref : Bool) (x : Dword) :
    17179869184 - 17179869184 * (if ref then 250 else 400) / 1000000 ≤ (boundInc ref x).toNat ∧
      (boundInc ref x).toNat ≤ 17179869184 + 17179869184 * (if ref then 250 else 400) / 1000000 := by
  unfold boundInc
  extract_lets nominal d
  simp only [BitVec.toNat_ofNat]
  have hn : nominal = 17179869184 := by decide
  cases ref
  · have hd : d = 6871947 := by simp only [d, hn]; decide
    rw [hn, hd, if_neg Bool.false_ne_true]
    omega
  · have hd : d = 4294967 := by simp only [d, hn]; decide
    rw [hn, hd, if_pos rfl]
    omega

/-- A measurement beyond 1 µs with no cell loaded steps TB (R87). -/
theorem measure_steps {s : State} {off : Int} (ref : Bool) (hl : s.anyLoaded = false) (ho : 1000 < off.natAbs) :
    (s.measure off ref).tb.tb = BitVec.ofInt 64 ((s.now : Int) - off) ∧ (s.measure off ref).tb.unset = false := by
  unfold State.measure
  extract_lets far _ t u v
  obtain ⟨tb, _, cells⟩ := lockCount_keeps t off
  have loaded : u.anyLoaded = false := by
    unfold State.anyLoaded at hl ⊢
    rw [show u.cells = s.cells from cells]
    exact hl
  have now : u.now = s.now := by
    show u.tb.tb.toNat = _
    rw [show u.tb.tb = s.tb.tb from tb]
    rfl
  rw [if_pos (by rw [loaded]; simpa using ho), now]
  exact ⟨rfl, rfl⟩

/-- A measurement within 1 µs, or with a cell loaded, slews: TB goes on with a bounded increment (R87, R88). -/
theorem measure_slews {s : State} {off : Int} (ref : Bool) (h : s.anyLoaded = true ∨ off.natAbs ≤ 1000) :
    (s.measure off ref).tb.tb = s.tb.tb ∧ (s.measure off ref).tb.frac = s.tb.frac ∧
      ∃ x, (s.measure off ref).tb.inc = boundInc ref x := by
  unfold State.measure
  extract_lets far _ t u v w
  obtain ⟨tb, frac, cells⟩ := lockCount_keeps t off
  have slews : ¬ (!u.anyLoaded && decide (off.natAbs > 1000)) = true := by
    have loaded : u.anyLoaded = s.anyLoaded := by
      unfold State.anyLoaded
      rw [show u.cells = s.cells from cells]
    rw [loaded]
    rcases h with h | h
    · rw [h]
      exact Bool.false_ne_true
    · simp only [Bool.and_eq_true, decide_eq_true_eq, not_and]
      omega
  rw [if_neg slews]
  split
  · have noted : ∀ (b : Bool) (a : RecArg), ((w.tbEvt 2).when b (fun s => s.record a)).tb = { w.tb with evt := setBit w.tb.evt 2 true } := fun b a => by
      unfold State.when
      split
      · exact record_tb (w.tbEvt 2) a
      · rfl
    rw [noted]
    exact ⟨tb, frac, _, rfl⟩
  · exact ⟨tb, frac, _, rfl⟩

/-! ### PTP -/

theorem dropPtpUtc_mac (s : State) (m : Nat) : s.dropPtpUtc.mac m = s.mac m := by
  unfold State.dropPtpUtc
  split
  · rfl
  · extract_lets t
    split <;> rfl

theorem setReference_mac (s : State) (r m : Nat) : (s.setReference r).mac m = s.mac m := by
  obtain ⟨tb, sn, h⟩ := setReference_frame s r
  rw [h]
  rfl

theorem refreshRef_mac (s : State) (m : Nat) : s.refreshRef.mac m = s.mac m := by
  unfold State.refreshRef
  repeat' split
  · exact setReference_mac s _ m
  · exact setReference_mac s _ m
  · exact setReference_mac s _ m
  · rfl

/-- Settles O27. -/
theorem timeSourcesDiscipline : Obligations.TimeSourcesDiscipline := by
  refine ⟨fun off ref s => ⟨measure_steps ref, fun h => ?_⟩, ?_, ?_, ?_, ?_, ?_⟩
  · obtain ⟨tb, frac, inc⟩ := measure_slews ref h
    obtain ⟨x, inc⟩ := inc
    rw [inc]
    exact ⟨tb, frac, boundInc_within ref x⟩
  · intro m off s hr hp hm hs
    show execPtpMessageReceive m (.sync off) s = _
    unfold execPtpMessageReceive
    extract_lets i t r u w
    have profile : u = s.macStat m 14 := by
      show (if t.ptpProfile = 3 then _ else t) = _
      exact if_neg hp
    have port : (u.mac m).port = 9 := by
      rw [profile]
      show ((s.updMac m _).mac m).port = 9
      rw [mac_updMac_same]
      exact hm
    have same : w = u := by
      show u.when ((u.mac m).port == 8) _ = u
      rw [port]
      rfl
    have src : u.tb.src = 0 := by rw [profile]; exact hs
    rw [if_neg (by rw [show s.ptpRuns i = true from hr]; decide)]
    rw [same]
    show (if (u.mac i).port = 9 ∧ u.tb.src = 0 then doneSettled (u.measure off true) else doneSettled u) = _
    rw [if_pos ⟨port, src⟩, profile]
    rfl
  · intro m s hp
    show Gives (execAnnounceReceiptTimeout m s) _
    unfold execAnnounceReceiptTimeout
    extract_lets p t
    rw [if_neg (by simp only [p]; omega)]
    refine gives_settled ?_
    rw [settle_mac]
    have port : (t.mac m).port = 4 := by
      show ((s.updMac m _).mac m).port = 4
      rw [mac_updMac_same]
    unfold State.when
    split
    · rw [refreshRef_mac, dropPtpUtc_mac, port]
    · exact port
  · intro m s hr hp
    show execPtpDelayRequestSend m s = _
    unfold execPtpDelayRequestSend
    extract_lets i t
    rw [if_pos (by rw [show s.ptpRuns i = true from hr]; simp only [i, hp, decide_true, Bool.or_true, Bool.and_true])]
    rfl
  · intro s hs
    have gap : s.measureGap = if s.tb.src = 1 then 100000 else 100000000 := rfl
    have late : (execLockTimeout s) = if s.tb.src.toNat ≤ 1 ∧
        (match s.tb.measAt with | none => true | some t => s.past t s.measureGap) = true then
        doneSettled ({ s with tb := { s.tb with good := 0, far := 0 } }.setLock false) else .next s := rfl
    constructor
    · intro h
      show Gives (execLockTimeout s) _
      rw [late, if_pos]
      · refine gives_settled ?_
        rw [settle_tb, setLock_tb]
        exact ⟨rfl, rfl, rfl, rfl, fun hl => setLock_lost hl⟩
      · refine ⟨hs, ?_⟩
        rcases h with h | ⟨t0, h, hp⟩
        · rw [h]
        · rw [h, gap]
          exact hp
    · intro t0 h hp
      show execLockTimeout s = _
      rw [late, if_neg]
      rintro ⟨_, hl⟩
      have past : s.past t0 (if s.tb.src = 1 then 100000 else 100000000) = true := by
        rw [h, gap] at hl
        exact hl
      rw [hp] at past
      cases past
  · intro s hl hd
    show execLeapSecondMidnight s = _
    unfold execLeapSecondMidnight
    extract_lets us mid
    rw [if_pos (by rw [hl, decide_eq_true (show mid + 1000000 ≤ us from hd)]; rfl)]
    rfl

end Sys2Proof.Laws
end

section
/-! What a change of a channel's qualified state can do to the inputs: codes are raised and cleared, and nothing else of an input
moves (R121, R133, R141 to R143). -/

namespace Sys2Proof.Laws

open Sys2Proof Sys2Proof.Machine Sys2Proof.Safety

/-! ### Inputs but for their codes -/

section
variable {s t : State} (h : Plant s t)
include h

theorem Plant.cfg : t.cfg = s.cfg := by rw [h]
theorem Plant.tb : t.tb = s.tb := by rw [h]
theorem Plant.inRec (n : Nat) : t.inRec n = s.inRec n := by unfold State.inRec; rw [h.cfg]
theorem Plant.now : t.now = s.now := by unfold State.now; rw [h.tb]
theorem Plant.past (a d : Nat) : t.past a d = s.past a d := by unfold State.past; rw [h.now]

end

/-- `t` is `s` but for the field side, and of the inputs only the codes with their counts and clearing parts have moved. -/
structure Marks (s t : State) : Prop where
  plant : Plant s t
  inp : ∀ n, t.inp n = { s.inp n with code := (t.inp n).code, count := (t.inp n).count, armClr := (t.inp n).armClr }

theorem Marks.refl (s : State) : Marks s s := ⟨Plant.refl s, fun _ => rfl⟩

theorem Marks.trans {s t u : State} (h : Marks s t) (k : Marks t u) : Marks s u :=
  ⟨h.plant.trans k.plant, fun n => by rw [k.inp n, h.inp n]⟩

theorem marks_when {s : State} {c : Bool} {f : State → State} (h : Marks s (f s)) : Marks s (s.when c f) := by
  unfold State.when
  split
  · exact h
  · exact Marks.refl s

theorem marks_each (n : Nat) (f : State → Nat → State) (h : ∀ s b, Marks s (f s b)) (s : State) : Marks s (s.each n f) := by
  unfold State.each
  generalize List.range n = l
  induction l generalizing s with
  | nil => exact Marks.refl s
  | cons b l ih => exact (h s b).trans (ih _)

theorem marks_same {s t : State} (h : Plant s t) (hi : t.ins = s.ins) : Marks s t :=
  ⟨h, fun n => by unfold State.inp; rw [hi]⟩

theorem marks_updInp {s : State} {n : Nat} {f : Input → Input}
    (h : f (s.inp n) = { s.inp n with code := (f (s.inp n)).code, count := (f (s.inp n)).count, armClr := (f (s.inp n)).armClr }) :
    Marks s (s.updInp n f) := by
  refine ⟨plant_updInp s n f, fun m => ?_⟩
  rw [inp_updInp]
  split
  next hm => rw [hm, ← h]
  next => rfl

theorem marks_record (s : State) (a : RecArg) : Marks s (s.record a) := marks_same (plant_record s a) (record_ins s a)

/-- A code other than SINK_FAULT leaves the input in service (R13, R143). -/
theorem marks_raiseIn (s : State) {n code : Nat} (related : Nat) (d6 : Word) (quiet : Bool) (hc : code ≠ 9) :
    Marks s (s.raiseIn n code related d6 quiet) := by
  unfold State.raiseIn
  split
  · exact Marks.refl s
  · extract_lets t src u v
    have h1 : Marks s t := marks_updInp rfl
    have h2 : Marks t u := marks_same ((plant_regs t _).trans (plant_mark _ _ _)) rfl
    have h3 : v = u := by
      simp only [v, beq_eq_false_iff_ne.mpr hc]
      rfl
    rw [h3]
    exact (h1.trans h2).trans (marks_when (marks_record u _))

theorem marks_clearIn (s : State) (n : Nat) : Marks s (s.clearIn n) :=
  (marks_updInp (f := fun i => { i with code := 0, armClr := false }) rfl).trans (marks_same (plant_regs _ _) rfl)

theorem marks_clearScan (s : State) (n : Nat) : Marks s (s.clearScan n) := by
  unfold State.clearScan
  extract_lets i b h safe low
  repeat' split
  · exact marks_when (marks_clearIn s n)
  · exact marks_when (marks_clearIn s n)
  · exact marks_when (marks_clearIn s n)
  · exact marks_when (marks_updInp rfl)
  · exact marks_when (marks_updInp rfl)
  · exact Marks.refl s

theorem marks_clearPairCode (s : State) (p : Nat) : Marks s (s.clearPairCode p) := by
  unfold State.clearPairCode
  exact marks_when (marks_clearIn s _)

theorem marks_updPair (s : State) (p : Nat) (f : InPair → InPair) : Marks s (s.updPair p f) := marks_same (plant_updPair s p f) rfl

theorem marks_pairFault (s : State) (p : Nat) {code : Nat} (hc : code ≠ 9) : Marks s (s.pairFault p code) :=
  (marks_updPair s p _).trans (marks_raiseIn _ _ _ _ hc)

theorem marks_evalPair (s : State) (p : Nat) : Marks s (s.evalPair p) := by
  unfold State.evalPair
  extract_lets a b r go mine other t
  have goes : ∀ st start first, Marks s (go st start first) := fun _ _ _ => marks_updPair s p _
  split
  · exact Marks.refl s
  · split
    · repeat' split
      · exact goes _ _ _
      · exact goes _ _ _
      · exact goes _ _ _
      · exact Marks.refl s
    · repeat' split
      · exact marks_pairFault s p (by decide)
      · exact goes _ _ _
      · exact Marks.refl s
      · exact goes _ _ _
      · exact goes _ _ _
    · repeat' split
      · exact Marks.refl s
      · exact goes _ _ _
      · exact goes _ _ _
    · repeat' split
      · exact marks_pairFault s p (by decide)
      · exact goes _ _ _
      · exact Marks.refl s
    · split
      · exact (marks_updPair s p _).trans (marks_when (marks_clearIn _ _))
      · exact Marks.refl s

theorem marks_requalify (s : State) (p : Nat) : Marks s (s.requalify p) := by
  unfold State.requalify
  extract_lets t u
  have h1 : Marks s t := (marks_clearScan s _).trans (marks_clearScan _ _)
  have h2 : Marks t u := marks_when (marks_clearPairCode t p)
  exact (h1.trans h2).trans (marks_evalPair u p)

theorem marks_encFault (s : State) (e n : Nat) {b : Nat} (hb : b < 3) : Marks s (s.encFault e b n) :=
  (marks_same ((plant_updEnc s e _).trans (plant_mark _ _ _)) rfl).trans (marks_raiseIn _ _ _ _ (by omega))

theorem marks_supplyCheck (s : State) (n : Nat) : Marks s (s.supplyCheck n) := by
  unfold State.supplyCheck
  split
  · exact Marks.refl s
  · exact marks_each _ _ (fun s e => marks_when (marks_encFault s e _ (by decide))) s

theorem marks_capture (s : State) (e kind : Nat) : Marks s (s.capture e kind) := by
  unfold State.capture
  extract_lets r
  split
  · exact marks_same (plant_updEnc s e _) rfl
  · exact (marks_same ((plant_updEnc s e _).trans (plant_mark _ _ _)) rfl).trans (marks_raiseIn _ _ _ _ (by decide))

theorem marks_latchCapture (s : State) (n : Nat) (level : Bool) : Marks s (s.latchCapture n level) := by
  unfold State.latchCapture
  split
  · exact Marks.refl s
  · exact marks_each _ _ (fun s e => marks_when (marks_capture s e 4)) s

theorem marks_afterQual (s : State) (n : Nat) : Marks s (s.afterQual n) := (marks_requalify s _).trans (marks_supplyCheck _ n)

/-! ### What an input's code survives -/

theorem raiseIn_inp_other (s : State) {n m : Nat} (code related : Nat) (d6 : Word) (quiet : Bool) (h : m ≠ n) :
    (s.raiseIn n code related d6 quiet).inp m = s.inp m := by
  unfold State.raiseIn
  split
  · rfl
  · extract_lets t src u v
    have h2 : u.inp m = s.inp m := by
      show t.inp m = _
      rw [inp_updInp, if_neg h]
    have h3 : v.inp m = u.inp m := by
      simp only [v, State.when]
      split
      · show ((u.takeOut _ _).updInp n _).inp m = _
        rw [inp_updInp, if_neg h]
        rfl
      · rfl
    have h4 : ∀ (b : Bool) a, (v.when b (fun s => s.record a)).inp m = v.inp m := fun b a => by
      unfold State.when
      split
      · simp only [State.inp, record_ins]
      · rfl
    rw [h4, h3, h2]

theorem clearIn_inp_other (s : State) {n m : Nat} (h : m ≠ n) : (s.clearIn n).inp m = s.inp m := by
  exact (inp_updInp s n m (fun i => { i with code := 0, armClr := false })).trans (if_neg h)

theorem clearScan_inp_other (s : State) {n m : Nat} (h : m ≠ n) : (s.clearScan n).inp m = s.inp m := by
  have clears : ∀ b : Bool, (s.when b (fun s => s.clearIn n)).inp m = s.inp m := fun b => by
    unfold State.when
    split
    · exact clearIn_inp_other s h
    · rfl
  have arms : ∀ b : Bool, (s.when b (fun s => s.updInp n (fun i => { i with armClr := true }))).inp m = s.inp m := fun b => by
    unfold State.when
    split
    · rw [inp_updInp, if_neg h]
    · rfl
  unfold State.clearScan
  extract_lets i b h safe low
  repeat' split
  · exact clears _
  · exact clears _
  · exact clears _
  · exact arms _
  · exact arms _
  · rfl

/-- Of input n the code is as before, and its clearing part but for the codes whose part a safe channel is. -/
structure KeepsCode (n : Nat) (s t : State) : Prop where
  code : (t.inp n).code = (s.inp n).code
  arm : (s.inp n).code ≠ 3 → (s.inp n).code ≠ 4 → (t.inp n).armClr = (s.inp n).armClr

theorem KeepsCode.same {n : Nat} {s t : State} (h : t.inp n = s.inp n) : KeepsCode n s t := ⟨by rw [h], fun _ _ => by rw [h]⟩

theorem KeepsCode.trans {n : Nat} {s t u : State} (h : KeepsCode n s t) (k : KeepsCode n t u) : KeepsCode n s u :=
  ⟨k.code.trans h.code, fun h3 h4 => (k.arm (by rwa [h.code]) (by rwa [h.code])).trans (h.arm h3 h4)⟩

/-- A code that no look at the channels clears: it is none of the pair's, none of a half's, and no LANE_CHECK with 8 good words. -/
structure Lasting (i : Input) : Prop where
  pair : pairCode i.code = false
  lane : i.code = 8 → i.laneGood < 8
  down : i.code ≠ 10
  low : i.code ≠ 11

theorem Lasting.marks {n : Nat} {s t : State} (l : Lasting (s.inp n)) (m : Marks s t) (k : KeepsCode n s t) : Lasting (t.inp n) := by
  have good : (t.inp n).laneGood = (s.inp n).laneGood := by rw [m.inp n]
  exact ⟨by rw [k.code]; exact l.pair, by rw [k.code, good]; exact l.lane, by rw [k.code]; exact l.down, by rw [k.code]; exact l.low⟩

theorem clearScan_keeps {s : State} {n : Nat} (m : Nat) (l : Lasting (s.inp n)) : KeepsCode n s (s.clearScan m) := by
  by_cases hm : n = m
  · subst hm
    have arms : ∀ b : Bool, (s.inp n).code = 3 ∨ (s.inp n).code = 4 →
        KeepsCode n s (s.when b (fun s => s.updInp n (fun i => { i with armClr := true }))) := fun b hc => by
      unfold State.when
      split
      · refine ⟨by rw [inp_updInp_same], fun h3 h4 => ?_⟩
        rcases hc with h | h
        · exact absurd h h3
        · exact absurd h h4
      · exact KeepsCode.same rfl
    unfold State.clearScan
    extract_lets i b h safe low
    split
    next h8 =>
      have bad : decide (i.laneGood ≥ 8) = false := by
        have := l.lane h8
        simp only [i, decide_eq_false_iff_not]
        omega
      rw [bad, Bool.and_false, Bool.false_and]
      exact KeepsCode.same rfl
    · split
      next h10 => exact absurd h10 l.down
      · split
        next h11 => exact absurd h11 l.low
        · split
          next h3 => exact arms _ (.inl h3)
          · split
            next h4 => exact arms _ (.inr h4)
            · exact KeepsCode.same rfl
  · exact KeepsCode.same (clearScan_inp_other s hm)

theorem clearPairCode_keeps {s : State} {n : Nat} (p : Nat) (l : Lasting (s.inp n)) : KeepsCode n s (s.clearPairCode p) := by
  unfold State.clearPairCode
  extract_lets c
  by_cases hn : n = 2 * p
  · subst hn
    have none : pairCode c = false := l.pair
    rw [none]
    exact KeepsCode.same rfl
  · unfold State.when
    split
    · exact KeepsCode.same (clearIn_inp_other s hn)
    · exact KeepsCode.same rfl

/-- Where no discrepancy runs out, the evaluation of a pair raises nothing, and clears no code but the pair's (R133). -/
theorem evalPair_keeps {s : State} {n : Nat} (p : Nat) (l : Lasting (s.inp n))
    (hd : (s.inRec (2 * p)).pair = false ∨ s.discDue p = false) : KeepsCode n s (s.evalPair p) := by
  cases hp : (s.inRec (2 * p)).pair with
  | false =>
    unfold State.evalPair
    rw [hp]
    exact KeepsCode.same rfl
  | true =>
    have due : s.discDue p = false := hd.resolve_left (by rw [hp]; decide)
    cases hs : (s.pair p).st with
    | off =>
      rw [evalPair_of_off hp hs]
      repeat' split
      all_goals exact KeepsCode.same rfl
    | waitOn =>
      rw [evalPair_of_waitOn hp hs due]
      repeat' split
      all_goals exact KeepsCode.same rfl
    | on =>
      rw [evalPair_of_on hp hs]
      repeat' split
      all_goals exact KeepsCode.same rfl
    | waitOff =>
      rw [evalPair_of_waitOff hp hs due]
      repeat' split
      all_goals exact KeepsCode.same rfl
    | fault =>
      rw [evalPair_of_fault hp hs]
      split
      · unfold faultExit
        by_cases hn : n = 2 * p
        · subst hn
          rw [l.pair]
          exact KeepsCode.same rfl
        · unfold State.when
          split
          · exact KeepsCode.same (clearIn_inp_other _ hn)
          · exact KeepsCode.same rfl
      · exact KeepsCode.same rfl

theorem encFault_inp_other (s : State) (e b : Nat) {n m : Nat} (h : m ≠ n) : (s.encFault e b n).inp m = s.inp m :=
  raiseIn_inp_other _ _ _ _ _ h

/-- An encoder's fault leaves the monitor that finds it (R118, R141). -/
theorem encFault_monitor {s : State} {n : Nat} (e : Nat) {c : Bool} (hk : (s.inRec n).kind = 6) (hc : c = true → s.encActive e = true) :
    (s.when c (fun s => s.encFault e 2 (encInputA e))).inp n = s.inp n := by
  unfold State.when
  split
  next h =>
    refine encFault_inp_other s e 2 ?_
    rintro rfl
    have active := hc h
    unfold State.encActive at active
    rw [hk] at active
    cases active
  next => rfl

/-- A supply monitor raises ENC_SUPPLY on an encoder's input, not on its own (R118, R141). -/
theorem supplyCheck_inp_self (s : State) (n : Nat) : (s.supplyCheck n).inp n = s.inp n := by
  unfold State.supplyCheck
  split
  · rfl
  next hk =>
    have kind : (s.inRec n).kind = 6 := by
      simp only [Bool.or_eq_true, not_or, ne_eq, decide_eq_true_eq] at hk
      exact Decidable.not_not.mp hk.1
    have run : ∀ (l : List Nat) (u : State), (u.inRec n).kind = 6 → (l.foldl (fun s e => s.when (s.encActive e && decide (e / 2 = n / 32) &&
        (s.inRec (encInputA e)).monen && (s.inRec (encInputA e)).mon == n % 32 && !bit (s.enc e).flt 2)
        (fun s => s.encFault e 2 (encInputA e))) u).inp n = u.inp n := by
      intro l
      induction l with
      | nil => intro u _; rfl
      | cons e l ih =>
        intro u hu
        refine (ih _ ?_).trans (encFault_monitor e hu fun h => ?_)
        · rw [(plant_when (plant_encFault u e 2 _) : Plant u _).inRec]
          exact hu
        · simp only [Bool.and_eq_true] at h
          exact h.1.1.1.1
    exact run _ s kind

theorem discDue_congr {s t : State} (p : Nat) (h : Plant s t) (hp : t.pairs = s.pairs) : t.discDue p = s.discDue p := by
  unfold State.discDue State.pair
  rw [hp, h.inRec]
  split
  · rfl
  · exact h.past _ _

theorem clearScan_pairs (s : State) (n : Nat) : (s.clearScan n).pairs = s.pairs := by
  unfold State.clearScan
  extract_lets i b h safe low
  repeat' split
  · exact when_pairs rfl
  · exact when_pairs rfl
  · exact when_pairs rfl
  · exact when_pairs rfl
  · exact when_pairs rfl
  · rfl

theorem clearPairCode_pairs (s : State) (p : Nat) : (s.clearPairCode p).pairs = s.pairs := when_pairs rfl

/-- Where no discrepancy runs out, a look at a channel keeps a lasting code of its input. -/
theorem afterQual_keeps {s : State} {n : Nat} (l : Lasting (s.inp n))
    (hd : (s.inRec (n / 2 * 2)).pair = false ∨ s.discDue (n / 2) = false) : KeepsCode n s (s.afterQual n) := by
  unfold State.afterQual State.requalify
  extract_lets t u
  rw [Nat.mul_comm] at hd
  have k1 : KeepsCode n s (s.clearScan (2 * (n / 2))) := clearScan_keeps _ l
  have l1 := l.marks (marks_clearScan s _) k1
  have k2 : KeepsCode n s t := k1.trans (clearScan_keeps _ l1)
  have m2 : Marks s t := (marks_clearScan s _).trans (marks_clearScan _ _)
  have l2 := l.marks m2 k2
  have p2 : t.pairs = s.pairs := (clearScan_pairs _ _).trans (clearScan_pairs s _)
  have m3 : Marks t u := marks_when (marks_clearPairCode t _)
  have k3 : KeepsCode n t u := by
    show KeepsCode n t (t.when _ _)
    unfold State.when
    split
    · exact clearPairCode_keeps _ l2
    · exact KeepsCode.same rfl
  have p3 : u.pairs = t.pairs := when_pairs (clearPairCode_pairs t _)
  have m := m2.trans m3
  have due : (u.inRec (2 * (n / 2))).pair = false ∨ u.discDue (n / 2) = false := by
    rw [m.plant.inRec, discDue_congr _ m.plant (p3.trans p2)]
    exact hd
  have k4 := evalPair_keeps (n / 2) (l2.marks m3 k3) due
  exact ((k2.trans k3).trans k4).trans (KeepsCode.same (supplyCheck_inp_self _ n))

end Sys2Proof.Laws
end

section
/-! Edges, tests, timers and encoders of the inputs (R113 to R143). -/

namespace Sys2Proof.Laws

open Sys2Proof Sys2Proof.Machine Sys2Proof.Safety

/-! ### Edges -/

/-- What comes before an edge's qualification leaves of the input's level: the window found, the raw level, the wetting. -/
theorem wettingEdge_inp (s : State) (n : Nat) : (s.wettingEdge n).inp n = { s.inp n with wet := ((s.wettingEdge n).inp n).wet } := by
  unfold State.wettingEdge
  extract_lets r h q
  repeat' split
  · rfl
  · rfl
  · rfl
  · rw [inp_updInp_same]
    rfl
  · rfl

theorem wettingEdge_inp_other (s : State) {n m : Nat} (h : m ≠ n) : (s.wettingEdge n).inp m = s.inp m := by
  unfold State.wettingEdge
  extract_lets r hf q
  repeat' split
  · rfl
  · rfl
  · rfl
  · rw [inp_updInp, if_neg h]
    rfl
  · rfl

theorem plant_wettingEdge (s : State) (n : Nat) : Plant s (s.wettingEdge n) := by
  unfold State.wettingEdge
  extract_lets r hf q
  repeat' split
  all_goals rfl

/-- The state in which an edge is qualified: its window looked for, the raw level taken, the wetting asked for (R121). -/
def edged (s : State) (n : Nat) (level : Bool) : State :=
  ((s.updInp n (fun i => { i with raw := level, edgeAt := s.now })).wettingEdge n).latchCapture n level

/-- The window that an edge finds (R135). -/
def windowSeen (s : State) (n : Nat) : State := if (s.inRec n).windowed then (s.endWindow n).startWindow n else s

theorem rawEdge_taken {s : State} {n : Nat} {level both : Bool} (hr : (s.inp n).raw ≠ level) (ho : s.inputOut n = false) :
    s.rawEdge n level both =
      (let t := edged (windowSeen (s.updInp n (fun i => { i with line := level })) n) n level
       if (s.inRec n).filtered then t.filterEdge n level
       else if (s.inRec n).windowed then t.windowEdge n level
       else if (s.inRec n).ossd then (if level then t.ossdOn n else t.ossdDrop n (n / 2 * 2 + (1 - n % 2)) both)
       else t) := by
  unfold State.rawEdge
  extract_lets t r u v w m
  have raw : (t.inp n).raw ≠ level := by
    simp only [t, inp_updInp_same]
    exact hr
  rw [if_neg (by
    rintro (h | h)
    · exact raw h
    · rw [show t.inputOut n = s.inputOut n from rfl, ho] at h
      cases h)]
  rfl

theorem plant_edged (s : State) (n : Nat) (level : Bool) : Plant s (edged s n level) :=
  ((plant_updInp s n _).trans (plant_wettingEdge _ n)).trans (plant_latchCapture _ n level)

/-- An edge takes the raw level, and leaves what the input's kind keeps (R121). -/
theorem edged_inp (s : State) (n : Nat) (level : Bool) : ∃ w c k a,
    (edged s n level).inp n = { s.inp n with raw := level, edgeAt := s.now, wet := w, code := c, count := k, armClr := a } := by
  have h := (marks_latchCapture ((s.updInp n (fun i => { i with raw := level, edgeAt := s.now })).wettingEdge n) n level).inp n
  rw [wettingEdge_inp, inp_updInp_same] at h
  exact ⟨_, _, _, _, h⟩

theorem edged_inp_other (s : State) {n m : Nat} (level : Bool) (h : m ≠ n) : ∃ c k a,
    (edged s n level).inp m = { s.inp m with code := c, count := k, armClr := a } := by
  have k := (marks_latchCapture ((s.updInp n (fun i => { i with raw := level, edgeAt := s.now })).wettingEdge n) n level).inp m
  rw [wettingEdge_inp_other _ h, inp_updInp, if_neg h] at k
  exact ⟨_, _, _, k⟩

theorem capture_pairs (s : State) (e kind : Nat) : (s.capture e kind).pairs = s.pairs := by
  unfold State.capture
  extract_lets r
  split
  · rfl
  · exact raiseIn_pairs _ _ _ _ _ _

theorem latchCapture_pairs (s : State) (n : Nat) (level : Bool) : (s.latchCapture n level).pairs = s.pairs := by
  unfold State.latchCapture State.each
  split
  · rfl
  next h =>
    clear h
    generalize List.range 8 = l
    induction l generalizing s with
    | nil => rfl
    | cons e l ih => exact (ih _).trans (when_pairs (capture_pairs s e 4))

theorem edged_pairs (s : State) (n : Nat) (level : Bool) : (edged s n level).pairs = s.pairs := by
  have wets : ∀ u : State, (u.wettingEdge n).pairs = u.pairs := fun u => by
    unfold State.wettingEdge
    extract_lets r hf q
    repeat' split
    all_goals rfl
  exact (latchCapture_pairs _ n level).trans (wets _)

theorem raw_updInp {s : State} {m : Nat} {f : Input → Input} (n : Nat) (h : ∀ i, (f i).raw = i.raw) :
    ((s.updInp m f).inp n).raw = (s.inp n).raw := by
  rw [inp_updInp]
  split
  next hm => rw [h, hm]
  next => rfl

theorem Marks.raw {s t : State} (h : Marks s t) (n : Nat) : (t.inp n).raw = (s.inp n).raw := by rw [h.inp n]

theorem filterEdge_raw (s : State) (n : Nat) (level : Bool) : ((s.filterEdge n level).inp n).raw = (s.inp n).raw := by
  unfold State.filterEdge
  extract_lets i
  repeat' split
  · exact raw_updInp n fun _ => rfl
  · exact raw_updInp n fun _ => rfl
  · exact raw_updInp n fun _ => rfl

theorem windowEdge_raw (s : State) (n : Nat) (level : Bool) : ((s.windowEdge n level).inp n).raw = (s.inp n).raw :=
  raw_updInp n fun i => by split <;> rfl

theorem ossdOff_raw (s : State) (m n : Nat) : ((s.ossdOff m).inp n).raw = (s.inp n).raw := raw_updInp n fun _ => rfl

theorem ossdHold_raw (s : State) (m n : Nat) : ((s.ossdHold m).inp n).raw = (s.inp n).raw := by
  unfold State.ossdHold
  split
  · exact ossdOff_raw s m n
  · exact raw_updInp n fun _ => rfl

theorem ossdOn_raw (s : State) (n : Nat) : ((s.ossdOn n).inp n).raw = (s.inp n).raw := by
  unfold State.ossdOn
  extract_lets m
  repeat' split
  · refine (raw_updInp n ?_).trans (((marks_afterQual _ n).raw n).trans (ossdOff_raw s n n))
    exact fun _ => rfl
  · exact raw_updInp n fun _ => rfl
  · exact raw_updInp n fun _ => rfl
  · refine (raw_updInp n ?_).trans (raw_updInp n ?_)
    · exact fun _ => rfl
    · exact fun _ => rfl
  · exact raw_updInp n fun _ => rfl

theorem when_raw {s : State} {c : Bool} {f : State → State} {n : Nat} (h : ((f s).inp n).raw = (s.inp n).raw) :
    ((s.when c f).inp n).raw = (s.inp n).raw := by
  cases c
  · rfl
  · exact h

theorem ossdDrop_raw (s : State) (n m : Nat) (both : Bool) : ((s.ossdDrop n m both).inp n).raw = (s.inp n).raw := by
  unfold State.ossdDrop
  split
  · rfl
  · extract_lets soon t
    have h1 : (t.inp n).raw = (s.inp n).raw := by
      simp only [t]
      repeat' split
      · exact (when_raw (ossdOff_raw _ m n)).trans (ossdOff_raw s n n)
      · exact ossdHold_raw s n n
      · exact ossdHold_raw s n n
      · exact ossdOff_raw s n n
    exact (when_raw ((marks_raiseIn _ _ _ _ (by decide)).raw n)).trans h1

/-- An edge of an input in service is its new raw level (R121). -/
theorem rawEdge_raw {s : State} {n : Nat} {level : Bool} (both : Bool) (hr : (s.inp n).raw ≠ level) (ho : s.inputOut n = false) :
    ((s.rawEdge n level both).inp n).raw = level := by
  rw [rawEdge_taken hr ho]
  extract_lets t
  have raw : (t.inp n).raw = level := by
    obtain ⟨w, c, k, a, h⟩ := edged_inp (windowSeen (s.updInp n (fun i => { i with line := level })) n) n level
    show ((edged _ n level).inp n).raw = level
    rw [h]
  repeat' split
  · exact (filterEdge_raw t n level).trans raw
  · exact (windowEdge_raw t n level).trans raw
  · exact (ossdOn_raw t n).trans raw
  · exact (ossdDrop_raw t n _ both).trans raw
  · exact raw

/-! ### Kinds -/

theorem filtered_not_windowed {r : InRec} (h : r.filtered = true) : r.windowed = false := by
  unfold InRec.filtered at h
  unfold InRec.windowed
  simp only [Bool.or_eq_true, Bool.and_eq_true, beq_iff_eq] at h
  simp only [Bool.or_eq_false_iff, beq_eq_false_iff_ne]
  omega

theorem windowed_kind {r : InRec} (h : r.windowed = true) : r.kind ≠ 1 ∧ r.filtered = false := by
  unfold InRec.windowed at h
  unfold InRec.filtered
  simp only [Bool.or_eq_true, beq_iff_eq] at h
  refine ⟨by omega, ?_⟩
  simp only [Bool.or_eq_false_iff, beq_eq_false_iff_ne, Bool.and_eq_false_imp, beq_iff_eq]
  omega

theorem ossd_kind {r : InRec} (h : r.ossd = true) : r.filtered = false ∧ r.windowed = false := by
  unfold InRec.ossd at h
  unfold InRec.filtered InRec.windowed
  simp only [Bool.and_eq_true, beq_iff_eq, decide_eq_true_eq] at h
  obtain ⟨hk, hs⟩ := h
  constructor
  · simp only [Bool.or_eq_false_iff, beq_eq_false_iff_ne, Bool.and_eq_false_imp, beq_iff_eq]
    omega
  · simp only [Bool.or_eq_false_iff, beq_eq_false_iff_ne]
    omega

theorem endWindow_outside {s : State} {n : Nat} (h : (s.inp n).inWin = false) : s.endWindow n = s := by
  unfold State.endWindow
  extract_lets i r
  rw [if_pos (by simp [i, h])]

theorem endWindow_within {s : State} {n : Nat} (h : s.past (s.inp n).winEnd 0 = false) : s.endWindow n = s := by
  unfold State.endWindow
  extract_lets i r
  rw [if_pos (by simp [i, h])]

theorem startWindow_within {s : State} {n : Nat} (h : (s.inp n).inWin = true) : s.startWindow n = s := by
  unfold State.startWindow
  split
  · rfl
  · rw [if_pos h]

theorem startWindow_none {s : State} {n : Nat} (h : s.winOpen n = none) : s.startWindow n = s := by
  unfold State.startWindow
  rw [h]

theorem startWindow_begins {s : State} {n w : Nat} (h : s.winOpen n = some w) (hi : (s.inp n).inWin = false) :
    s.startWindow n = s.updInp n (fun i => { i with inWin := true, winEnd := w, held := i.q, dropSeen := !i.raw }) := by
  unfold State.startWindow
  rw [h]
  simp only [hi, Bool.false_eq_true, if_false]

theorem other_ne (n : Nat) : n / 2 * 2 + (1 - n % 2) ≠ n := by omega

/-- The lane's level taken. -/
def lined (s : State) (n : Nat) (level : Bool) : State := s.updInp n (fun i => { i with line := level })

@[simp] theorem lined_inp (s : State) (n : Nat) (level : Bool) : (lined s n level).inp n = { s.inp n with line := level } :=
  inp_updInp_same s n _

theorem windowSeen_windowed {s : State} {n : Nat} {level : Bool} (hw : (s.inRec n).windowed = true) :
    windowSeen (lined s n level) n = ((lined s n level).endWindow n).startWindow n := if_pos hw

theorem lined_inp_other (s : State) {n m : Nat} (level : Bool) (h : m ≠ n) : (lined s n level).inp m = s.inp m := by
  unfold lined
  rw [inp_updInp, if_neg h]

section
variable {s : State} {n : Nat} {level : Bool} (hr : (s.inp n).raw ≠ level) (ho : s.inputOut n = false)
include hr ho

theorem rawEdge_filtered (hf : (s.inRec n).filtered = true) :
    s.rawEdge n level false = (edged (lined s n level) n level).filterEdge n level := by
  rw [rawEdge_taken hr ho, windowSeen]
  have plain : ((s.updInp n (fun i => { i with line := level })).inRec n).windowed = false := filtered_not_windowed hf
  rw [plain, if_pos hf]
  rfl

theorem rawEdge_windowed (hw : (s.inRec n).windowed = true) :
    s.rawEdge n level false = (edged (windowSeen (lined s n level) n) n level).windowEdge n level := by
  rw [rawEdge_taken hr ho, (windowed_kind hw).2, hw]
  rfl

theorem rawEdge_ossd (hk : (s.inRec n).ossd = true) :
    s.rawEdge n level false = if level then (edged (lined s n level) n level).ossdOn n
      else (edged (lined s n level) n level).ossdDrop n (n / 2 * 2 + (1 - n % 2)) false := by
  rw [rawEdge_taken hr ho, windowSeen]
  have plain : ((s.updInp n (fun i => { i with line := level })).inRec n).windowed = false := (ossd_kind hk).2
  rw [plain, (ossd_kind hk).1, (ossd_kind hk).2, hk]
  rfl

end

theorem filterEdge_starts {s : State} {n : Nat} {level : Bool} (hq : (s.inp n).q ≠ level) (ht : s.filterTime n level ≠ 0) :
    s.filterEdge n level = s.updInp n (fun i => { i with filter := some s.now }) := by
  unfold State.filterEdge
  extract_lets i
  rw [if_neg (fun h => hq h.1.symm), if_neg ht]

theorem filterTime_edged (s : State) (n : Nat) (level : Bool) :
    (edged (lined s n level) n level).filterTime n level = s.filterTime n level := by
  obtain ⟨w, c, k, a, h⟩ := edged_inp (lined s n level) n level
  unfold State.filterTime State.safeLevel
  rw [(plant_edged _ n level).inRec, h, lined_inp]
  rfl

/-- A drop of one channel of SIG 0, its partner ON and undisturbed, not too soon, is held (R128). -/
theorem ossdDrop_holds {s : State} {n m : Nat} (hs : (s.inRec n).sig = 0) (hq : (s.inp n).q = true) (hm : (s.inp m).q = true)
    (ho : (s.inp m).ossd = none) (ht : s.ossdTooSoon n = false) :
    s.ossdDrop n m false = s.updInp n (fun i => { i with ossd := some s.now }) := by
  unfold State.ossdDrop State.ossdHold
  simp only [hq, hs, hm, ho, ht]
  rfl

theorem ossdTooSoon_edged (s : State) (n : Nat) (level : Bool) :
    (edged (lined s n level) n level).ossdTooSoon n = s.ossdTooSoon n := by
  obtain ⟨w, c, k, a, h⟩ := edged_inp (lined s n level) n level
  have pairs : (edged (lined s n level) n level).pairs = s.pairs := (edged_pairs _ n level).trans rfl
  unfold State.ossdTooSoon State.pair State.since
  rw [(plant_edged _ n level).inRec, (plant_edged _ n level).now, h, lined_inp, pairs]
  rfl

/-- Settles O28. -/
theorem inputEdgesQualify : Obligations.InputEdgesQualify := by
  refine ⟨fun n level s => ?_, fun n level s hr ho => ⟨rawEdge_raw false hr ho, ?_, ?_, ?_, ?_, ?_⟩⟩
  · show execInputEdge n level none s = _
    unfold execInputEdge
    extract_lets m both t u
    have hb : both = false := by simp only [both]; cases level <;> rfl
    simp only [u, t, hb]
    rfl
  · intro hf hq ht
    rw [rawEdge_filtered hr ho hf, filterEdge_starts]
    · obtain ⟨w, c, k, a, h⟩ := edged_inp (lined s n level) n level
      rw [inp_updInp_same, h, lined_inp, (plant_edged _ n level).now]
      exact ⟨rfl, rfl⟩
    · obtain ⟨w, c, k, a, h⟩ := edged_inp (lined s n level) n level
      rw [h, lined_inp]
      exact hq
    · rw [filterTime_edged]
      exact ht
  · intro hw hi hn
    rw [rawEdge_windowed hr ho hw, windowSeen_windowed hw, endWindow_outside (by rw [lined_inp]; exact hi), startWindow_none (s := lined s n level) hn]
    obtain ⟨w, c, k, a, h⟩ := edged_inp (lined s n level) n level
    unfold State.windowEdge
    rw [inp_updInp_same, h, lined_inp]
    simp only [hi, Bool.false_eq_true, if_false]
  · intro hw hi hp
    rw [rawEdge_windowed hr ho hw, windowSeen_windowed hw, endWindow_within (by rw [lined_inp]; exact hp),
      startWindow_within (by rw [lined_inp]; exact hi)]
    obtain ⟨w, c, k, a, h⟩ := edged_inp (lined s n level) n level
    unfold State.windowEdge
    rw [inp_updInp_same, h, lined_inp]
    simp only [hi, if_true]
    exact ⟨trivial, trivial⟩
  · intro e hw hi hn
    rw [rawEdge_windowed hr ho hw, windowSeen_windowed hw, endWindow_outside (by rw [lined_inp]; exact hi),
      startWindow_begins (s := lined s n level) (w := e) hn (by rw [lined_inp]; exact hi)]
    obtain ⟨w, c, k, a, h⟩ := edged_inp ((lined s n level).updInp n (fun i => { i with inWin := true, winEnd := e, held := i.q, dropSeen := !i.raw })) n level
    unfold State.windowEdge
    rw [inp_updInp_same, h, inp_updInp_same, lined_inp]
    simp only [if_true]
    exact ⟨trivial, trivial, trivial⟩
  · intro hk hl hs hq hqm hom hsoon
    subst hl
    rw [rawEdge_ossd hr ho hk, if_neg Bool.false_ne_true]
    obtain ⟨w, c, k, a, h⟩ := edged_inp (lined s n false) n false
    obtain ⟨c', k', a', hm⟩ := edged_inp_other (lined s n false) false (other_ne n)
    rw [lined_inp] at h
    rw [lined_inp_other _ _ (other_ne n)] at hm
    rw [ossdDrop_holds]
    · rw [inp_updInp_same, h, (plant_edged _ n false).now]
      exact ⟨rfl, hq⟩
    · rw [(plant_edged _ n false).inRec]
      exact hs
    · rw [h]
      exact hq
    · rw [hm]
      exact hqm
    · rw [hm]
      exact hom
    · rw [ossdTooSoon_edged]
      exact hsoon

end Sys2Proof.Laws
end

section
/-! Tests, timers and encoders of the inputs (R113 to R143). -/

namespace Sys2Proof.Laws

open Sys2Proof Sys2Proof.Machine Sys2Proof.Safety

/-! ### Codes that tests find -/

/-- A code raised on a used input stands at the end of the look at its channel, where no discrepancy runs out (R133, R143). -/
theorem raised_stands {s : State} {n code : Nat} (related : Nat) (d6 : Word) (quiet : Bool) (hk : (s.inRec n).kind ≠ 0)
    (hd : (s.inRec (n / 2 * 2)).pair = false ∨ s.discDue (n / 2) = false)
    (hl : Lasting ((s.raiseIn n code related d6 quiet).inp n)) :
    (((s.raiseIn n code related d6 quiet).afterQual n).inp n).code = BitVec.ofNat 8 code := by
  have due : ((s.raiseIn n code related d6 quiet).inRec (n / 2 * 2)).pair = false ∨
      (s.raiseIn n code related d6 quiet).discDue (n / 2) = false := by
    rw [(plant_raiseIn s n code related d6 quiet).inRec,
      discDue_congr _ (plant_raiseIn s n code related d6 quiet) (raiseIn_pairs s n code related d6 quiet)]
    exact hd
  rw [(afterQual_keeps hl due).code, code_raiseIn related d6 quiet hk]

theorem lasting_of_code {i : Input} {c : Byte} (h : i.code = c) (hp : pairCode c = false) (h8 : c ≠ 8) (h10 : c ≠ 10) (h11 : c ≠ 11) :
    Lasting i := by
  subst h
  exact ⟨hp, fun h => absurd h h8, h10, h11⟩

/-- A code of a single channel that input n holds in a state with the pairs of `s` stands at the end of the look at its channel. -/
theorem held_stands {s v : State} {n : Nat} {c : Byte} (hv : Plant s v) (hq : v.pairs = s.pairs) (hc : (v.inp n).code = c)
    (hd : (s.inRec (n / 2 * 2)).pair = false ∨ s.discDue (n / 2) = false) (hp : pairCode c = false) (h8 : c ≠ 8) (h10 : c ≠ 10)
    (h11 : c ≠ 11) : KeepsCode n v (v.afterQual n) := by
  refine afterQual_keeps (lasting_of_code hc hp h8 h10 h11) ?_
  rw [hv.inRec, discDue_congr _ hv hq]
  exact hd

/-- A code of a single channel other than LANE_CHECK, raised on a used input, stands (R143). -/
theorem raised_plain {s : State} {n code : Nat} (related : Nat) (d6 : Word) (quiet : Bool) (hk : (s.inRec n).kind ≠ 0)
    (hd : (s.inRec (n / 2 * 2)).pair = false ∨ s.discDue (n / 2) = false) (hp : pairCode (BitVec.ofNat 8 code) = false)
    (h8 : BitVec.ofNat 8 code ≠ 8) (h10 : BitVec.ofNat 8 code ≠ 10) (h11 : BitVec.ofNat 8 code ≠ 11) :
    (((s.raiseIn n code related d6 quiet).afterQual n).inp n).code = BitVec.ofNat 8 code :=
  raised_stands related d6 quiet hk hd (lasting_of_code (code_raiseIn related d6 quiet hk) hp h8 h10 h11)

/-! ### An input back in service -/

theorem capture_inp_other (s : State) (e kind : Nat) {m : Nat} (h : m ≠ encInputA e) : (s.capture e kind).inp m = s.inp m := by
  unfold State.capture
  extract_lets r
  split
  · rfl
  · exact raiseIn_inp_other _ _ _ _ _ h

/-- A latch input's edge is captured for an encoder, whose inputs it is none of (R142). -/
theorem latchCapture_inp_self (s : State) (n : Nat) (level : Bool) : (s.latchCapture n level).inp n = s.inp n := by
  unfold State.latchCapture
  split
  · rfl
  next hk =>
    have kind : (s.inRec n).kind = 1 := Decidable.not_not.mp hk
    have one : ∀ (u : State) (e : Nat) (c : Bool), (u.inRec n).kind = 1 → (c = true → u.encActive e = true) →
        (u.when c (fun s => s.capture e 4)).inp n = u.inp n := fun u e c hu hc => by
      unfold State.when
      split
      next h =>
        refine capture_inp_other u e 4 ?_
        rintro rfl
        have active := hc h
        unfold State.encActive at active
        rw [hu] at active
        cases active
      next => rfl
    unfold State.each
    generalize List.range 8 = l
    clear hk
    induction l generalizing s with
    | nil => rfl
    | cons e l ih =>
      refine (ih _ ?_).trans (one s e _ kind fun h => ?_)
      · exact (congrArg InRec.kind ((plant_when (plant_capture s e 4) : Plant s _).inRec n)).trans kind
      · simp only [Bool.and_eq_true] at h
        exact h.1.1.1.1

/-- From `s` to `t` the field side alone moved, no pair did, and input n holds its code. -/
structure Calm (n : Nat) (s t : State) : Prop where
  plant : Plant s t
  pairs : t.pairs = s.pairs
  code : (t.inp n).code = (s.inp n).code

theorem Calm.refl (n : Nat) (s : State) : Calm n s s := ⟨Plant.refl s, rfl, rfl⟩

theorem Calm.trans {n : Nat} {s t u : State} (h : Calm n s t) (k : Calm n t u) : Calm n s u :=
  ⟨h.plant.trans k.plant, k.pairs.trans h.pairs, k.code.trans h.code⟩

theorem calm_updInp (s : State) (n : Nat) {f : Input → Input} (h : (f (s.inp n)).code = (s.inp n).code) : Calm n s (s.updInp n f) :=
  ⟨plant_updInp s n f, rfl, by rw [inp_updInp_same, h]⟩

theorem calm_edged (s : State) (n : Nat) (level : Bool) : Calm n s (edged s n level) := by
  refine ⟨plant_edged s n level, edged_pairs s n level, ?_⟩
  unfold edged
  rw [latchCapture_inp_self, wettingEdge_inp, inp_updInp_same]

theorem calm_filterEdge (s : State) (n : Nat) (level : Bool) : Calm n s (s.filterEdge n level) := by
  unfold State.filterEdge
  extract_lets i
  repeat' split
  all_goals exact calm_updInp s n rfl

theorem calm_windowEdge (s : State) (n : Nat) (level : Bool) : Calm n s (s.windowEdge n level) :=
  calm_updInp s n (by split <;> rfl)

theorem calm_ossdRise {s : State} {n : Nat} (h : (s.inp n).ossd = none) : Calm n s (s.ossdOn n) := by
  unfold State.ossdOn
  rw [h]
  exact calm_updInp s n rfl

/-- Outside its windows an input finds at most a new one begun (R124). -/
theorem calm_windowSeen {s : State} {n : Nat} (hw : (s.inp n).inWin = false) :
    Calm n s (windowSeen s n) ∧ ((windowSeen s n).inp n).ossd = (s.inp n).ossd := by
  unfold windowSeen
  split
  · rw [endWindow_outside hw]
    cases h : s.winOpen n with
    | none =>
      rw [startWindow_none h]
      exact ⟨Calm.refl n s, rfl⟩
    | some w =>
      rw [startWindow_begins h hw]
      exact ⟨calm_updInp s n rfl, by rw [inp_updInp_same]⟩
  · exact ⟨Calm.refl n s, rfl⟩

/-- An edge of an input that was OFF, with no window and no drop under way, raises no code on it and moves no pair. -/
theorem calm_rawEdge {s : State} {n : Nat} (level : Bool) (hr : (s.inp n).raw = false) (hw : (s.inp n).inWin = false)
    (ho : (s.inp n).ossd = none) : Calm n s (s.rawEdge n level false) := by
  have line : Calm n s (lined s n level) := calm_updInp s n rfl
  by_cases take : (s.inp n).raw ≠ level ∧ s.inputOut n = false
  · obtain ⟨hl, hs⟩ := take
    have rise : level = true := by
      rw [hr] at hl
      cases level
      · exact absurd rfl hl
      · rfl
    rw [rawEdge_taken hl hs]
    extract_lets t
    obtain ⟨seen, ossd⟩ := calm_windowSeen (s := lined s n level) (n := n) (by rw [lined_inp]; exact hw)
    have taken : Calm n s t := (line.trans seen).trans (calm_edged _ n level)
    have held : (t.inp n).ossd = none := by
      obtain ⟨w, c, k, a, h⟩ := edged_inp (windowSeen (lined s n level) n) n level
      show ((edged (windowSeen (lined s n level) n) n level).inp n).ossd = none
      rw [h, ossd, lined_inp]
      exact ho
    repeat' split
    · exact taken.trans (calm_filterEdge t n level)
    · exact taken.trans (calm_windowEdge t n level)
    · exact taken.trans (calm_ossdRise held)
    · exact taken
  · have still : s.rawEdge n level false = lined s n level := by
      unfold State.rawEdge
      extract_lets t r u v w m
      refine if_pos ?_
      have raw : (t.inp n).raw = (s.inp n).raw := by simp only [t, inp_updInp_same]
      have out : t.inputOut n = s.inputOut n := rfl
      rw [raw, out]
      by_cases hl : (s.inp n).raw = level
      · exact .inl hl
      · refine .inr ?_
        cases h : s.inputOut n with
        | true => rfl
        | false => exact absurd ⟨hl, h⟩ take
    rw [still]
    exact line

/-! ### The tests -/

theorem marks_laneGood (s : State) (n : Nat) :
    Marks (s.updInp n (fun i => { i with laneBad := 0, laneGood := min 8 (i.laneGood + 1) })) (s.laneGood n) := marks_afterQual _ n

/-- A second bad or missing lane word in a row is LANE_CHECK (R117). -/
theorem laneBad_second {s : State} {n : Nat} (hk : (s.inRec n).kind ≠ 0)
    (hd : (s.inRec (n / 2 * 2)).pair = false ∨ s.discDue (n / 2) = false) (h : (s.inp n).laneBad = 1) :
    ((s.laneBad n).inp n).laneBad = 2 ∧ ((s.laneBad n).inp n).code = 8 := by
  unfold State.laneBad
  extract_lets t
  have bad : (t.inp n).laneBad = 2 ∧ (t.inp n).laneGood = 0 := by
    simp only [t, inp_updInp_same, h]
    exact ⟨by decide, trivial⟩
  rw [bad.1]
  show (((t.raiseIn n 8).afterQual n).inp n).laneBad = 2 ∧ (((t.raiseIn n 8).afterQual n).inp n).code = 8
  have m : Marks t ((t.raiseIn n 8).afterQual n) := (marks_raiseIn t 0 0 false (by decide)).trans (marks_afterQual _ n)
  refine ⟨by rw [m.inp n]; exact bad.1, raised_stands 0 0 false hk hd ?_⟩
  have code : ((t.raiseIn n 8).inp n).code = 8 := code_raiseIn 0 0 false hk
  have good : ((t.raiseIn n 8).inp n).laneGood = 0 := by
    rw [(marks_raiseIn t 0 0 false (by decide)).inp n]
    exact bad.2
  exact ⟨by rw [code]; decide, fun _ => by rw [good]; decide, by rw [code]; decide, by rw [code]; decide⟩

/-- An own window that ends with no drop seen, the channel held ON, is TP_MISSING (R124, R127). -/
theorem endWindow_missing {s : State} {n : Nat} (hk : (s.inRec n).kind = 2) (hw : (s.inp n).inWin = true) (hh : (s.inp n).held = true)
    (hd : (s.inp n).dropSeen = false) (hp : s.past (s.inp n).winEnd 0 = true) :
    s.endWindow n = ((s.raiseIn n 3).updInp n (fun i => { i with inWin := false, q := i.raw, hold0 := i.hold0 && !false })).updInp n
      (fun i => { i with crossed := false }) := by
  unfold State.endWindow
  extract_lets i r missing correct t u c v
  have hm : missing = true := by simp [missing, r, i, hk, hh, hd]
  have hc : correct = false := by simp [correct, i, hd]
  rw [if_neg (by simp [i, hw, hp])]
  have ht : t = s.raiseIn n 3 := by simp only [t, hm]; rfl
  have hv : v = u := by simp only [v, hc]; rfl
  have fed : ∀ x : State, (x.inRec n).kind = 2 → x.fedRelease n = x := fun x hx => by
    unfold State.fedRelease
    extract_lets r i
    split
    · rfl
    · rw [if_neg (by simp [r, hx])]
  rw [hv, fed]
  · simp only [u, ht, hc]
  · have pt : Plant s t := plant_when (plant_raiseIn s n 3 0 0 false)
    exact (congrArg InRec.kind (((pt.trans (plant_updInp t n _)).trans (plant_updInp u n _)).inRec n)).trans hk

theorem wetQ_updInp (s : State) (n h : Nat) (f : Input → Input) : (s.updInp n f).wetQ h = s.wetQ h := rfl

theorem laneStatusWord_good (n : Fin 128) (w : Word) (s : State) : Gives (exec (.inputLaneStatusWord n w true) s) (fun t =>
    (t.inp n).laneBad = 0 ∧ (t.inp n).laneGood = min 8 ((s.inp n).laneGood + 1) ∧ (t.inp n).q = (s.inp n).q) := by
  show Gives (doneSettled (State.laneGood _ n)) _
  refine gives_settled ?_
  simp only [settle_inp]
  generalize hu : s.cvuItem 0 (n.val / 32) (n.val % 32) 0 (BitVec.ofNat 32 (siteInputLane n.val + 4096 * s.modAddr)) (bytes4 w) = u
  have same : u.inp n = s.inp n := by
    rw [← hu]
    unfold State.inp
    rw [books_cvuItem]
  rw [(marks_laneGood u n).inp n, inp_updInp_same, same]
  exact ⟨rfl, rfl, rfl⟩

section

variable {n : Fin 128} {s : State} (hk : (s.inRec n).kind ≠ 0) (hd : (s.inRec (n / 2 * 2)).pair = false ∨ s.discDue (n / 2) = false)
include hk hd

theorem laneWordMissing_second (h : (s.inp n).laneBad = 1) :
    Gives (exec (.inputLaneWordMissing n) s) (fun t => (t.inp n).laneBad = 2 ∧ (t.inp n).code = 8) := by
  show Gives (doneSettled (s.laneBad n)) _
  refine gives_settled ?_
  simp only [settle_inp]
  exact laneBad_second hk hd h

theorem tpWindowEnd_missing (h2 : (s.inRec n).kind = 2) (hw : (s.inp n).inWin = true) (hh : (s.inp n).held = true) (hds : (s.inp n).dropSeen = false)
    (hp : s.past (s.inp n).winEnd 0 = true) :
    Gives (exec (.tpWindowEnd n) s) (fun t => (t.inp n).code = 3 ∧ (t.inp n).inWin = false ∧ (t.inp n).q = (s.inp n).raw) := by
  show Gives (doneSettled ((s.endWindow n).afterQual n)) _
  refine gives_settled ?_
  simp only [settle_inp]
  rw [endWindow_missing h2 hw hh hds hp]
  have m : Marks s (s.raiseIn n 3) := marks_raiseIn s 0 0 false (by decide)
  have code : ((s.raiseIn n 3).inp n).code = 3 := code_raiseIn 0 0 false hk
  generalize hv : ((s.raiseIn n 3).updInp n (fun i => { i with inWin := false, q := i.raw, hold0 := i.hold0 && !false })).updInp n
    (fun i => { i with crossed := false }) = v
  have seen : v.inp n = { (s.raiseIn n 3).inp n with inWin := false, q := ((s.raiseIn n 3).inp n).raw, hold0 := ((s.raiseIn n 3).inp n).hold0 && !false, crossed := false } := by
    rw [← hv, inp_updInp_same, inp_updInp_same]
  have pv : Plant s v := by
    rw [← hv]
    exact (m.plant.trans (plant_updInp _ n _)).trans (plant_updInp _ n _)
  have pairs : v.pairs = s.pairs := by
    rw [← hv]
    exact raiseIn_pairs s n 3 0 0 false
  have code' : (v.inp n).code = 3 := by rw [seen]; exact code
  have stands := held_stands pv pairs code' hd (by decide) (by decide) (by decide) (by decide)
  rw [stands.code, (marks_afterQual v n).inp n, seen]
  exact ⟨code, rfl, m.raw n⟩

theorem foreignWindowEnd_cross {k : Fin 8} {d a b : Nat} (h2 : (s.inRec n).kind = 2) (hs : (s.inRec n).src ≠ k.val) (hda : (s.inp n).dropAt = some d)
    (hf : s.foreignWindow n (8 * (n / 32) + k) = some (a, b)) (ha : a ≤ d) (hb : d < b) (hr : (s.inp n).raw = true) :
    Gives (exec (.foreignWindowEnd n k) s) (fun t => (t.inp n).code = 4) := by
  show Gives (execForeignWindowEnd n k s) _
  unfold execForeignWindowEnd
  extract_lets r i t inside u
  have hin : inside = true := by
    simp only [inside, i, t, hda, hf, ha, hb, decide_true, Bool.and_self]
  rw [if_pos (by simp [r, h2, hs, hin])]
  refine gives_settled ?_
  simp only [settle_inp]
  have ur : i.raw = true := hr
  rw [ur]
  exact raised_plain _ 0 false hk hd (by decide) (by decide) (by decide) (by decide)

theorem wireBreak_third (hw : (s.inRec n).wb = true) (hi : (s.inp n).inWin = false) (ho : s.inputOut n = false) (hr : (s.inp n).raw = false)
    (hl : (s.inp n).wbLow = 2) (hdue : (s.inp n).wbAt = none ∨ ∃ a, (s.inp n).wbAt = some a ∧ s.past a 1000000 = true) :
    Gives (exec (.wireBreakMeasurement n true) s) (fun t => (t.inp n).code = 5 ∧ (t.inp n).wbLow = 3) := by
  show Gives (execWireBreakMeasurement n true s) _
  unfold execWireBreakMeasurement
  extract_lets i due t u v
  have hdue' : due = true := by
    rcases hdue with h | ⟨a, h, hp⟩
    · simp only [due, i, h]
    · simp only [due, i, h]
      exact hp
  rw [if_pos (by simp [i, hw, hi, hr, ho, hdue'])]
  refine gives_settled ?_
  simp only [settle_inp]
  have counts : (t.inp n).wbLow = 3 ∧ (t.inp n).wbHigh = 0 := by
    simp only [t, inp_updInp_same, if_true, hl]
    exact ⟨by decide, trivial⟩
  have hu : u = t.raiseIn n 5 := by simp only [u, counts.1]; rfl
  have mu : Marks t u := by rw [hu]; exact marks_raiseIn t 0 0 false (by decide)
  have hv : v = u := by
    have high : (u.inp n).wbHigh = 0 := by rw [mu.inp n]; exact counts.2
    simp only [v, high]
    simp [State.when]
  rw [hv]
  refine ⟨?_, ?_⟩
  · rw [hu]
    exact raised_plain 0 0 false hk hd (by decide) (by decide) (by decide) (by decide)
  · rw [(mu.trans (marks_afterQual u n)).inp n]
    exact counts.1

theorem sinkProbe_fails (hp : s.past (s.inp n).edgeAt (secs 10) = true) : Gives (exec (.sinkProbe n false) s) (fun t => (t.inp n).code = 9) := by
  show Gives (execSinkProbe n false s) _
  unfold execSinkProbe
  extract_lets i retest t
  rw [if_neg (by simp [i, hp])]
  refine gives_settled ?_
  simp only [settle_inp]
  exact raised_plain 0 0 false hk hd (by decide) (by decide) (by decide) (by decide)

omit hk in
theorem sinkProbe_failsAgain (hc : (s.inp n).code = 9) (ha : (s.inp n).armClr = true) :
    Gives (exec (.sinkProbe n false) s) (fun t => (t.inp n).code = 9 ∧ (t.inp n).armClr = false) := by
  show Gives (execSinkProbe n false s) _
  unfold execSinkProbe
  extract_lets i retest t
  rw [if_neg (by simp [retest, i, hc, ha])]
  refine gives_settled ?_
  simp only [settle_inp]
  have code : ((t.updInp n (fun i => { i with armClr := false })).inp n).code = 9 := by
    simp only [t, inp_updInp_same]
    exact hc
  have held : (t.updInp n (fun i => { i with armClr := false })).raiseIn n 9 = t.updInp n (fun i => { i with armClr := false }) := by
    unfold State.raiseIn
    rw [code]
    rfl
  rw [held]
  have stands := held_stands (s := s) (n := n) ((plant_updInp s n _).trans (plant_updInp t n (fun i => { i with armClr := false }))) rfl
    code hd (by decide) (by decide) (by decide) (by decide)
  refine ⟨stands.code.trans code, (stands.arm (by rw [code]; decide) (by rw [code]; decide)).trans ?_⟩
  rw [inp_updInp_same]

omit hk in
theorem sinkProbe_clears (hc : (s.inp n).code = 9) (ha : (s.inp n).armClr = true) (hr : (s.inp n).raw = false) (hw : (s.inp n).inWin = false)
    (ho : (s.inp n).ossd = none) : Gives (exec (.sinkProbe n true) s) (fun t => (t.inp n).code = 0) := by
  show Gives (execSinkProbe n true s) _
  unfold execSinkProbe
  extract_lets i retest t
  have again : retest = true := by simp [retest, i, hc, ha]
  rw [again]
  refine gives_settled ?_
  simp only [settle_inp]
  generalize hu : (t.clearIn n).putBack (siteInput n) = u
  have pu : Plant s u := by
    rw [← hu]
    exact ((plant_updInp s n _).trans (plant_clearIn t n)).trans (plant_putBack _ _)
  have quiet : (u.inp n).raw = false ∧ (u.inp n).inWin = false ∧ (u.inp n).ossd = none ∧ (u.inp n).code = 0 := by
    have seen : u.inp n = { t.inp n with code := 0, armClr := false } := by
      rw [← hu]
      exact inp_updInp_same t n (fun i => { i with code := 0, armClr := false })
    rw [seen]
    simp only [t, inp_updInp_same]
    exact ⟨hr, hw, ho, trivial⟩
  obtain ⟨hr', hw', ho', hc'⟩ := quiet
  have calm := calm_rawEdge (u.inp n).line hr' hw' ho'
  have pairs : (u.rawEdge n (u.inp n).line false).pairs = s.pairs := calm.pairs.trans (by rw [← hu]; rfl)
  have code := calm.code.trans hc'
  exact (held_stands (pu.trans calm.plant) pairs code hd (by decide) (by decide) (by decide) (by decide)).code.trans code

end

theorem wettingEnd_serves {h : Fin 8} {n m a : Nat} {rest : List Nat} {s : State} (hq : (s.wetQ h) = { now := some n, at_ := a, waiting := m :: rest })
    (hm : m ≠ n) (hp : s.past a 1900000 = true) : Gives (exec (.wettingEnd h true) s) (fun t =>
      t.wetQ h = { now := some m, at_ := s.now, waiting := rest } ∧ (t.inp m).wet = true ∧ (t.inp n).wet = (s.inRec n).sink) := by
  show Gives (execWettingEnd h true s) _
  unfold execWettingEnd
  simp only [hq, hp, if_true, Bool.not_true, when_false, wetQ_updInp]
  refine gives_settled ?_
  simp only [settle_inp]
  refine ⟨?_, ?_, ?_⟩
  · show Tab.get {} (State.settle _).wets h = _
    rw [settle_wets]
    exact get_upd_same ({} : Wetting) s.wets h (fun _ => { now := some m, at_ := s.now, waiting := rest })
  · rw [inp_updInp_same]
  · rw [inp_updInp, if_neg (Ne.symm hm)]
    exact congrArg Input.wet (inp_updInp_same s n (fun i => { i with wet := (s.inRec n).sink }))

/-- Settles O29. -/
theorem inputTestsFindFaults : Obligations.InputTestsFindFaults :=
  ⟨laneStatusWord_good, fun _ _ hk hd => ⟨laneWordMissing_second hk hd, tpWindowEnd_missing hk hd, fun _ _ _ _ => foreignWindowEnd_cross hk hd,
    wireBreak_third hk hd, sinkProbe_fails hk hd, fun hc ha => ⟨sinkProbe_failsAgain hd hc ha, sinkProbe_clears hd hc ha⟩⟩,
    fun _ _ _ _ _ _ hq hm hp => wettingEnd_serves hq hm hp⟩

/-! ### The timers -/

theorem updInp_congr (s : State) (n : Nat) (f g : Input → Input) (h : f (s.inp n) = g (s.inp n)) : s.updInp n f = s.updInp n g := by
  simp only [State.updInp, Tab.upd]
  rw [show f (Tab.get {} s.ins n) = g (Tab.get {} s.ins n) from h]

theorem plant_loadInput (s : State) (n : Nat) : Plant s (s.loadInput n) := by
  unfold State.loadInput
  extract_lets r level fixed t
  have h : Plant s t := plant_updInp s n _
  generalize (if n % 2 = 0 then AB.a else AB.b) = x
  repeat' split
  · exact h.trans (plant_raiseIn _ _ _ _ _ _)
  · exact h.trans (plant_raiseIn _ _ _ _ _ _)
  · exact h.trans (plant_raiseIn _ _ _ _ _ _)
  · exact h

/-- The records of a pair that take effect are those of the configuration (R137). -/
theorem putInputs_plant (s : State) (p : Nat) (e o : InRec) :
    Plant { s with cfg := { s.cfg with ins := Tab.put {} (Tab.put {} s.cfg.ins (2 * p) e) (2 * p + 1) o } } (s.putInputs p e o) := by
  unfold State.putInputs
  extract_lets _ fresh t
  have loads : Plant t (fresh.foldl (fun s n => if (s.inRec n).kind = 0 then s else s.loadInput n) t) :=
    plant_foldl _ (fun s n => by
      split
      · exact Plant.refl s
      · exact plant_loadInput s n) _ t
  exact loads.trans (plant_afterQual _ _)

/-- Settles O30. -/
theorem inputTimers : Obligations.InputTimers := by
  refine ⟨fun n s => ⟨fun w hw hi => ?_, fun h => ?_⟩, fun n b s hf hk => ⟨fun hp => ?_, fun hp => ?_⟩,
    fun n b s ho => ⟨fun hp => ?_, fun hp => ?_⟩, fun n b s hk hm hq hs hb => ⟨fun hp hl => ?_, fun hp => ?_⟩,
    fun m d6 s hk => code_raiseIn 0 d6 false hk, fun n b s hb hk hh hr => ⟨fun hp => ?_, fun hp => ?_⟩,
    fun p e o c s hd => ⟨fun hs => ?_, fun hs => ?_⟩, fun p e o s => ?_⟩
  · show doneSettled ((s.startWindow n).afterQual n) = _
    rw [startWindow_begins hw hi]
    rfl
  · show doneSettled ((s.startWindow n).afterQual n) = _
    rcases h with h | h
    · rw [startWindow_none h]
      rfl
    · rw [startWindow_within h]
      rfl
  · show execFilterExpiry n s = _
    unfold execFilterExpiry
    simp only [hf, hk, hp, Bool.and_self, if_true]
    rfl
  · show execFilterExpiry n s = _
    unfold execFilterExpiry
    simp only [hf, hk, hp, Bool.and_false, Bool.false_eq_true, if_false]
    rfl
  · show execOssdHoldExpiry n s = _
    unfold execOssdHoldExpiry State.ossdDue
    simp only [ho, hp, if_true]
    rfl
  · show execOssdHoldExpiry n s = _
    unfold execOssdHoldExpiry State.ossdDue
    simp only [ho, hp, Bool.false_eq_true, if_false]
    rfl
  · show execOssdNoTest n s = _
    unfold execOssdNoTest
    extract_lets r i due
    have hdue : due = true := by
      simp only [due, i, r, hb, hp, Bool.true_and]
      rcases hl with h | ⟨l, h, hp'⟩
      · rw [h]
      · rw [h]
        exact hp'
    rw [if_pos (by simp [r, i, hk, hm, hq, hdue, hs])]
    rfl
  · show execOssdNoTest n s = _
    unfold execOssdNoTest
    extract_lets r i due
    have hdue : due = false := by simp only [due, i, r, hb, hp, Bool.false_and]
    rw [if_neg (by simp [hdue])]
    rfl
  · show execOssdStartHoldExpiry n s = _
    unfold execOssdStartHoldExpiry
    simp only [hb, hk, hh, hr, hp, Bool.and_self, if_true]
    have level : s.updInp n (fun i => { i with hold0 := false, q := i.raw }) = s.updInp n (fun i => { i with hold0 := false, q := true }) :=
      updInp_congr s n _ _ (by rw [hr])
    rw [level]
    rfl
  · show execOssdStartHoldExpiry n s = _
    unfold execOssdStartHoldExpiry
    simp only [hb, hk, hh, hr, hp, Bool.and_false, Bool.false_eq_true, if_false]
    rfl
  · show execInputApplied p s = _
    unfold execInputApplied
    simp only [hd, hs, if_true]
    have addr : ((s.updPair p (fun r => { r with deferred := none })).putInputs p e o).modAddr = s.modAddr := by
      rw [putInputs_plant (s.updPair p (fun r => { r with deferred := none })) p e o]
      rfl
    rw [addr]
    rfl
  · show execInputApplied p s = _
    unfold execInputApplied
    simp only [hd, if_neg hs]
    rfl
  · rw [(putInputs_plant s p e o).cfg]
    constructor
    · rw [get_put, if_neg (by omega), get_put_same]
    · exact get_put_same _ _ _ _

/-! ### Encoders -/

theorem direct_count (r : Encoder) (d : Int) : (r.direct d).count = r.count ∧ (r.direct d).a = r.a ∧ (r.direct d).b = r.b := by
  unfold Encoder.direct
  extract_lets down
  repeat' split
  all_goals exact ⟨rfl, rfl, rfl⟩

theorem time_count (r : Encoder) (d : Int) (k now : Nat) : (r.time d k now).count = r.count := by
  unfold Encoder.time
  split
  · split <;> rfl
  · rfl

/-- The count and the levels of interface e are as before. -/
def SameCount (e : Nat) (s t : State) : Prop :=
  (t.enc e).count = (s.enc e).count ∧ (t.enc e).a = (s.enc e).a ∧ (t.enc e).b = (s.enc e).b

theorem SameCount.trans {e : Nat} {s t u : State} (h : SameCount e s t) (k : SameCount e t u) : SameCount e s u :=
  ⟨k.1.trans h.1, k.2.1.trans h.2.1, k.2.2.trans h.2.2⟩

theorem sameCount_when {e : Nat} {s : State} {c : Bool} {f : State → State} (h : SameCount e s (f s)) : SameCount e s (s.when c f) := by
  cases c
  · exact ⟨rfl, rfl, rfl⟩
  · exact h

theorem sameCount_raiseIn (s : State) (e n code related : Nat) (d6 : Word) (quiet : Bool) :
    SameCount e s (s.raiseIn n code related d6 quiet) := by
  have encs : (s.raiseIn n code related d6 quiet).encs = s.encs := by
    unfold State.raiseIn
    split
    · rfl
    · extract_lets t src u v
      have h3 : v.encs = u.encs := by
        simp only [v, State.when]
        split <;> rfl
      have h4 : ∀ (b : Bool) a, (v.when b (fun s => s.record a)).encs = v.encs := fun b a => by
        unfold State.when
        split
        · show (v.record a).encs = v.encs
          rw [record_frame]
        · rfl
      rw [h4, h3]
      rfl
  unfold SameCount State.enc
  rw [encs]
  exact ⟨rfl, rfl, rfl⟩

theorem sameCount_updEnc {s : State} {e : Nat} {f : Encoder → Encoder} (hc : (f (s.enc e)).count = (s.enc e).count)
    (ha : (f (s.enc e)).a = (s.enc e).a) (hb : (f (s.enc e)).b = (s.enc e).b) : SameCount e s (s.updEnc e f) := by
  unfold SameCount
  rw [enc_updEnc_same]
  exact ⟨hc, ha, hb⟩

theorem sameCount_mark (s : State) (e reg i : Nat) : SameCount e s (s.mark reg i) := ⟨rfl, rfl, rfl⟩

theorem sameCount_capture (s : State) (e kind : Nat) : SameCount e s (s.capture e kind) := by
  unfold State.capture
  extract_lets r
  split
  · exact sameCount_updEnc rfl rfl rfl
  · have h1 : SameCount e s (s.updEnc e (fun r => { r with evt := setBit r.evt 3 true })) := sameCount_updEnc rfl rfl rfl
    exact (h1.trans (sameCount_mark _ e _ _)).trans (sameCount_raiseIn _ e _ _ _ _ _)

theorem sameCount_encFault (s : State) (e b n : Nat) : SameCount e s (s.encFault e b n) := by
  unfold State.encFault
  extract_lets t
  have h1 : SameCount e s t := sameCount_updEnc rfl rfl rfl
  exact (h1.trans (sameCount_mark _ e _ _)).trans (sameCount_raiseIn _ e _ _ _ _ _)

/-- An edge of one signal of an active interface moves the count by the quadrature of its levels (R138). -/
theorem encoderEdge_counts {e : Fin 8} {a b : Bool} {s : State} (hact : s.encActive e = true)
    (hoA : s.inputOut (encInputA e) = false) (hoB : s.inputOut (encInputA e + 1) = false)
    (hone : ((s.enc e).a != a) = !((s.enc e).b != b)) :
    Gives (exec (.encoderEdge e a b) s) (fun t =>
      (t.enc e).count = (s.enc e).count + BitVec.ofInt 32 (quadrature (s.enc e).a (s.enc e).b a b) ∧ (t.enc e).a = a ∧
      (t.enc e).b = b) := by
  show Gives (execEncoderEdge e a b s) _
  unfold execEncoderEdge
  extract_lets a' b' lines r da db inA together plaus rate d k counted noted cfg c1 c2 f1 f2
  have ha : a' = a := by simp only [a', hoA, Bool.not_false, Bool.and_true]
  have hb : b' = b := by simp only [b', hoB, Bool.not_false, Bool.and_true]
  have hr : r = s.enc e := rfl
  have hdb : db = !da := by
    simp only [da, db, hr, ha, hb, hone, Bool.not_not]
  have apart : together = false := by simp only [together, hdb, Bool.and_not_self]
  have moved : (!lines.encActive e || (!da && !db)) = false := by
    rw [show lines.encActive e = true from hact, hdb]
    simp
  rw [if_neg (by rw [moved]; decide)]
  refine gives_settled ?_
  simp only [settle_enc]
  have count : (noted.enc e).count = (s.enc e).count + BitVec.ofInt 32 (quadrature (s.enc e).a (s.enc e).b a b) ∧
      (noted.enc e).a = a ∧ (noted.enc e).b = b := by
    simp only [noted, enc_updEnc_same]
    refine ⟨?_, ha, hb⟩
    simp only [counted, apart, Bool.false_eq_true, if_false, enc_updEnc_same, d]
    rw [hr, ha, hb]
    split
    · exact (time_count _ _ _ _).trans (direct_count _ _).1
    · exact (time_count _ _ _ _).trans (direct_count _ _).1
  have rest : SameCount e noted f2 :=
    (((sameCount_when (sameCount_capture noted e _)).trans (sameCount_when (sameCount_capture c1 e _))).trans
      (sameCount_when (sameCount_encFault c2 e 0 _))).trans (sameCount_when (sameCount_encFault f1 e 1 _))
  obtain ⟨h1, h2, h3⟩ := rest
  rw [h1, h2, h3]
  exact count

/-- A step of the count up or down (R138). -/
theorem add_step (c : Word) (b : Bool) : c + BitVec.ofInt 32 (if b = true then 1 else -1) = if b = true then c + 1 else c - 1 := by
  cases b
  · have minus : BitVec.ofInt 32 (-1) = -1#32 := by decide
    simp only [Bool.false_eq_true, if_false, minus, BitVec.sub_eq_add_neg]
    rfl
  · have plus : BitVec.ofInt 32 1 = 1#32 := by decide
    simp only [if_true, plus]
    rfl

/-- Settles O32. -/
theorem encoderCounts : Obligations.EncoderCounts := by
  intro e s hact _ _ _ hoA hoB
  constructor
  · obtain ⟨t, ht, hc, ha, hb⟩ := encoderEdge_counts (a := !(s.enc e).a) (b := (s.enc e).b) hact hoA hoB (by simp)
    refine ⟨t, ht, hc.trans ?_, ha, hb⟩
    rw [show quadrature (s.enc e).a (s.enc e).b (!(s.enc e).a) (s.enc e).b = if (!(s.enc e).a) != (s.enc e).b then 1 else -1 by
      simp [quadrature], add_step]
  · obtain ⟨t, ht, hc, ha, hb⟩ := encoderEdge_counts (a := (s.enc e).a) (b := !(s.enc e).b) hact hoA hoB (by simp)
    refine ⟨t, ht, hc.trans ?_, hb, ha⟩
    rw [show quadrature (s.enc e).a (s.enc e).b (s.enc e).a (!(s.enc e).b) = if (!(s.enc e).b) == (s.enc e).a then 1 else -1 by
      simp [quadrature], add_step]

end Sys2Proof.Laws
end

section
/-! What the field side's operations touch of each other: the outputs as a state settles, what the inputs leave of the outputs and
halves, and how a code is raised on an output or a source. -/

namespace Sys2Proof.Laws

open Sys2Proof Sys2Proof.Machine Sys2Proof.Safety

/-! ### The outputs of a settled state -/

theorem noteTrip_outs (s : State) (o : Nat) (a d : Bool) : (s.noteTrip o a d).outs = s.outs := by
  unfold State.noteTrip
  extract_lets
  rfl

theorem record_outs (s : State) (a : RecArg) : (s.record a).outs = s.outs := by rw [record_frame]

theorem when_outs {s : State} {c : Bool} {f : State → State} (h : (f s).outs = s.outs) : (s.when c f).outs = s.outs := by
  cases c
  · rfl
  · exact h

theorem each_outs (n : Nat) (f : State → Nat → State) (h : ∀ s o, (f s o).outs = s.outs) (s : State) : (s.each n f).outs = s.outs := by
  unfold State.each
  generalize List.range n = l
  induction l generalizing s with
  | nil => rfl
  | cons b l ih => exact (ih _).trans (h s b)

theorem lidFaulty_outs (s : State) (x : AB) : (s.lidFaulty x).outs = s.outs := by
  unfold State.lidFaulty
  extract_lets left t lid src u
  have h1 : t.outs = s.outs := by
    show (if _ then _ else _ : State).outs = _
    split
    · rfl
    · exact each_outs _ _ (fun s o => when_outs (noteTrip_outs s o _ _)) s
  exact (record_outs _ _).trans h1

theorem disagree_outs (s : State) (o : Nat) : (s.disagree o).outs = s.outs := by
  unfold State.disagree
  extract_lets w c recent lid src t u v
  have h2 : u.outs = t.outs := when_outs (noteTrip_outs t _ _ _)
  have h3 : v.outs = u.outs := record_outs u _
  exact (when_outs ((lidFaulty_outs _ _).trans (lidFaulty_outs _ _))).trans (h3.trans h2)

theorem lidTick_outs (s : State) : s.lidTick.outs = s.outs := by
  unfold State.lidTick
  extract_lets permA permB hitA hitB l one armA relA armB relB leftA leftB t u dis
  have h2 : u.outs = t.outs := by
    show (if _ then _ else _ : State).outs = _
    split
    · rfl
    · exact each_outs _ _ (fun s o => when_outs (noteTrip_outs s o _ _)) t
  split
  · exact h2
  · exact (each_outs _ _ (fun s o => when_outs (disagree_outs s o)) u).trans h2

/-- A settled state is that of the Lids' pass, then the elements', then the pins'. -/
theorem settle_passes (s : State) : ∃ u : State, s.settle = u.obeyAll.pins ∧ Fabric s u ∧ u.outs = s.outs := by
  unfold State.settle
  split
  · exact ⟨s.lidTick, rfl, fabric_lidTick s, lidTick_outs s⟩
  · exact ⟨s, rfl, Fabric.refl s, rfl⟩

/-- Every output of a settled state is one that was there, following its commands. -/
theorem settled_output {s : State} {e : Nat × Output} (he : e ∈ s.settle.outs) : ∃ u r, s.settle = u.obeyAll.pins ∧ Fabric s u ∧
    (e.1, r) ∈ s.outs ∧ e.2 = u.obeyOut e.1 r := by
  obtain ⟨u, hu, hf, ho⟩ := settle_passes s
  rw [hu, pins_outs, obeyAll_outs, Tab.mapKV, List.mem_filter, List.mem_map, ho] at he
  obtain ⟨⟨r, hr, rfl⟩, _⟩ := he
  exact ⟨u, r.2, hu, hf, hr, rfl⟩

theorem get_mapKV {α : Type} [DecidableEq α] (d : α) (f : Nat → α → α) (i : Nat) : ∀ t : Tab α, Tab.get d t i ≠ d →
    f i (Tab.get d t i) ≠ d → Tab.get d (Tab.mapKV d f t) i = f i (Tab.get d t i) := by
  intro t
  induction t with
  | nil => intro h; exact absurd rfl h
  | cons e t ih =>
    obtain ⟨k, v⟩ := e
    intro h hf
    by_cases hk : k = i
    · subst hk
      simp only [Tab.get, if_true] at h hf ⊢
      rw [Tab.mapKV, List.map_cons, List.filter_cons_of_pos (by simpa using hf)]
      simp only [Tab.get, if_true]
    · simp only [Tab.get, if_neg hk] at h hf ⊢
      rw [Tab.mapKV, List.map_cons, List.filter_cons]
      split
      · simp only [Tab.get, if_neg hk]
        exact ih h hf
      · exact ih h hf

theorem get_of_all {α : Type} {d : α} {P : α → Prop} (i : Nat) (hd : P d) : ∀ t : Tab α, (∀ e ∈ t, e.1 = i → P e.2) → P (Tab.get d t i) := by
  intro t
  induction t with
  | nil => intro _; exact hd
  | cons e t ih =>
    obtain ⟨k, v⟩ := e
    intro h
    by_cases hk : k = i
    · simp only [Tab.get, if_pos hk]
      exact h (k, v) List.mem_cons_self hk
    · simp only [Tab.get, if_neg hk]
      exact ih fun e he => h e (List.mem_cons_of_mem _ he)

/-- An output with something latched shows as it follows its commands. -/
theorem settle_out {s : State} {o : Nat} (h : s.out o ≠ {}) (hf : ∀ u : State, u.obeyOut o (s.out o) ≠ {}) :
    ∃ u : State, s.settle.out o = u.obeyOut o (s.out o) := by
  obtain ⟨u, hu, _, ho⟩ := settle_passes s
  refine ⟨u, ?_⟩
  unfold State.out at *
  rw [hu, pins_outs, obeyAll_outs, ho]
  exact get_mapKV {} (fun o r => u.obeyOut o r) o s.outs h (hf u)

@[simp] theorem obeyOut_code (s : State) (o : Nat) (r : Output) : (s.obeyOut o r).code = r.code := rfl

/-- A code that an output holds stays as the state settles. -/
theorem settle_out_code {s : State} {o : Nat} {c : Byte} (h : (s.out o).code = c) (hc : c ≠ 0) : (s.settle.out o).code = c := by
  have shows : s.out o ≠ {} := fun e => hc (by rw [← h, e])
  obtain ⟨u, hu⟩ := settle_out shows (fun u e => hc (by rw [← h, ← obeyOut_code u o, e]))
  rw [hu, obeyOut_code, h]

/-- An output of which no entry holds a code shows none as the state settles. -/
theorem settle_out_clear {s : State} {o : Nat} (h : ∀ e ∈ s.outs, e.1 = o → e.2.code = 0) : (s.settle.out o).code = 0 := by
  refine get_of_all (P := fun r : Output => r.code = 0) o rfl s.settle.outs fun e he hk => ?_
  obtain ⟨u, r, _, _, hr, hx⟩ := settled_output he
  rw [hx, obeyOut_code]
  exact h _ hr hk

theorem mem_drop {α : Type} {i : Nat} {e : Nat × α} : ∀ {t : Tab α}, e ∈ Tab.drop t i → e ∈ t ∧ e.1 ≠ i := by
  intro t
  induction t with
  | nil => intro h; exact absurd h List.not_mem_nil
  | cons x t ih =>
    obtain ⟨k, v⟩ := x
    intro h
    by_cases hk : k = i
    · rw [Tab.drop, if_pos hk] at h
      exact ⟨List.mem_cons_of_mem _ (ih h).1, (ih h).2⟩
    · rw [Tab.drop, if_neg hk] at h
      rcases List.mem_cons.mp h with rfl | h
      · exact ⟨List.mem_cons_self, hk⟩
      · exact ⟨List.mem_cons_of_mem _ (ih h).1, (ih h).2⟩

theorem mem_ins {α : Type} {i : Nat} {x : α} {e : Nat × α} : ∀ {t : Tab α}, e ∈ Tab.ins t i x → e = (i, x) ∨ e ∈ t := by
  intro t
  induction t with
  | nil => intro h; exact .inl (List.mem_singleton.mp h)
  | cons y t ih =>
    obtain ⟨k, v⟩ := y
    intro h
    by_cases hk : i < k
    · rw [Tab.ins, if_pos hk] at h
      exact List.mem_cons.mp h
    · rw [Tab.ins, if_neg hk] at h
      rcases List.mem_cons.mp h with rfl | h
      · exact .inr List.mem_cons_self
      · exact (ih h).imp_right (List.mem_cons_of_mem _)

/-- An entry of a table after a write is the one written, or an old one under another key. -/
theorem mem_put {α : Type} [DecidableEq α] {d x : α} {i : Nat} {e : Nat × α} {t : Tab α} (h : e ∈ Tab.put d t i x) :
    e = (i, x) ∨ (e ∈ t ∧ e.1 ≠ i) := by
  unfold Tab.put at h
  split at h
  · exact .inr (mem_drop h)
  · exact (mem_ins h).imp_right mem_drop

/-- Under output o no entry holds a code. -/
def NoCode (o : Nat) (s : State) : Prop := ∀ e ∈ s.outs, e.1 = o → e.2.code = 0

theorem noCode_updOut {s : State} {o : Nat} {f : Output → Output} (h : (f (s.out o)).code = 0) : NoCode o (s.updOut o f) := by
  intro e he hk
  rcases mem_put he with rfl | ⟨_, hne⟩
  · exact h
  · exact absurd hk hne

theorem NoCode.updOut {s : State} {o p : Nat} {f : Output → Output} (h : NoCode o s) (hp : p ≠ o) : NoCode o (s.updOut p f) := by
  intro e he hk
  rcases mem_put he with rfl | ⟨hm, _⟩
  · exact absurd hk hp
  · exact h e hm hk

/-! ### Inputs leave the outputs -/

/-- `t` is `s` but for inputs, pairs, encoders, wetting and what they report; no unit comes back into service and no event of a pair is lost. -/
structure InSide (s t : State) : Prop where
  same : t = { s with
    ins := t.ins
    pairs := t.pairs
    encs := t.encs
    wets := t.wets
    units := t.units
    regs := t.regs
    hif := { s.hif with evt := t.hif.evt, pend := t.hif.pend }
    recs := t.recs
    recSeq := t.recSeq
    port := t.port
    setNow := t.setNow }
  grows : Grows s t
  evts : ∀ i, bit s.regs.pairEvt i = true → bit t.regs.pairEvt i = true

theorem InSide.refl (s : State) : InSide s s := ⟨rfl, Grows.refl s, fun _ h => h⟩

theorem InSide.trans {s t u : State} (h : InSide s t) (k : InSide t u) : InSide s u := by
  obtain ⟨h, g, e⟩ := h
  obtain ⟨k, g', e'⟩ := k
  exact ⟨by rw [k, h], g.trans g', fun i b => e' i (e i b)⟩

theorem inSide_when {s : State} {c : Bool} {f : State → State} (h : InSide s (f s)) : InSide s (s.when c f) := by
  cases c
  · exact InSide.refl s
  · exact h

theorem inSide_foldl {β : Type} (f : State → β → State) (h : ∀ s b, InSide s (f s b)) (l : List β) : ∀ s, InSide s (l.foldl f s) := by
  induction l with
  | nil => exact InSide.refl
  | cons b l ih => intro s; exact (h s b).trans (ih (f s b))

theorem inSide_record (s : State) (a : RecArg) : InSide s (s.record a) := ⟨by rw [record_frame], grows_record s a, fun _ h => by rw [record_frame]; exact h⟩
theorem inSide_mark (s : State) (reg i : Nat) : InSide s (s.mark reg i) := ⟨rfl, Grows.same rfl ⟨rfl, rfl⟩, fun _ h => h⟩
theorem inSide_updInp (s : State) (n : Nat) (f : Input → Input) : InSide s (s.updInp n f) := ⟨rfl, Grows.same rfl ⟨rfl, rfl⟩, fun _ h => h⟩
theorem inSide_updPair (s : State) (n : Nat) (f : InPair → InPair) : InSide s (s.updPair n f) := ⟨rfl, Grows.same rfl ⟨rfl, rfl⟩, fun _ h => h⟩
theorem inSide_updEnc (s : State) (n : Nat) (f : Encoder → Encoder) : InSide s (s.updEnc n f) := ⟨rfl, Grows.same rfl ⟨rfl, rfl⟩, fun _ h => h⟩
theorem inSide_regs (s : State) (r : Regs) (h : r.pairEvt = s.regs.pairEvt := by rfl) : InSide s { s with regs := r } :=
  ⟨rfl, Grows.same rfl ⟨rfl, rfl⟩, fun i b => by
    show bit r.pairEvt i = true
    rw [h, b]⟩
theorem inSide_takeOut (s : State) (site code : Nat) : InSide s (s.takeOut site code) := ⟨rfl, grows_takeOut s site code, fun _ h => h⟩

theorem inSide_raiseIn (s : State) (n code related : Nat) (d6 : Word) (quiet : Bool) : InSide s (s.raiseIn n code related d6 quiet) := by
  unfold State.raiseIn
  split
  · exact InSide.refl s
  · extract_lets t src u v
    have h1 : InSide s t := inSide_updInp s n _
    have h2 : InSide t u := (inSide_regs t _).trans (inSide_mark _ _ _)
    have h3 : InSide u v := inSide_when ((inSide_takeOut u _ _).trans (inSide_updInp _ n _))
    exact ((h1.trans h2).trans h3).trans (inSide_when (inSide_record v _))

theorem inSide_clearIn (s : State) (n : Nat) : InSide s (s.clearIn n) := (inSide_updInp s n _).trans (inSide_regs _ _)

theorem inSide_clearScan (s : State) (n : Nat) : InSide s (s.clearScan n) := by
  unfold State.clearScan
  extract_lets i b h safe low
  repeat' split
  · exact inSide_when (inSide_clearIn s n)
  · exact inSide_when (inSide_clearIn s n)
  · exact inSide_when (inSide_clearIn s n)
  · exact inSide_when (inSide_updInp s n _)
  · exact inSide_when (inSide_updInp s n _)
  · exact InSide.refl s

theorem inSide_clearPairCode (s : State) (p : Nat) : InSide s (s.clearPairCode p) := by
  unfold State.clearPairCode
  exact inSide_when (inSide_clearIn s _)

theorem inSide_pairFault (s : State) (p code : Nat) : InSide s (s.pairFault p code) :=
  (inSide_updPair s p _).trans (inSide_raiseIn _ _ _ _ _ _)

theorem inSide_evalPair (s : State) (p : Nat) : InSide s (s.evalPair p) := by
  unfold State.evalPair
  extract_lets a b r go mine other t
  have goes : ∀ st start first, InSide s (go st start first) := fun _ _ _ => inSide_updPair s p _
  split
  · exact InSide.refl s
  · split
    · repeat' split
      · exact goes _ _ _
      · exact goes _ _ _
      · exact goes _ _ _
      · exact InSide.refl s
    · repeat' split
      · exact inSide_pairFault s p 1
      · exact goes _ _ _
      · exact InSide.refl s
      · exact goes _ _ _
      · exact goes _ _ _
    · repeat' split
      · exact InSide.refl s
      · exact goes _ _ _
      · exact goes _ _ _
    · repeat' split
      · exact inSide_pairFault s p 2
      · exact goes _ _ _
      · exact InSide.refl s
    · split
      · exact (inSide_updPair s p _).trans (inSide_when (inSide_clearIn _ _))
      · exact InSide.refl s

theorem inSide_encFault (s : State) (e b n : Nat) : InSide s (s.encFault e b n) :=
  ((inSide_updEnc s e _).trans (inSide_mark _ _ _)).trans (inSide_raiseIn _ _ _ _ _ _)

theorem inSide_supplyCheck (s : State) (n : Nat) : InSide s (s.supplyCheck n) := by
  unfold State.supplyCheck
  split
  · exact InSide.refl s
  · exact inSide_foldl _ (fun s e => inSide_when (inSide_encFault s e 2 _)) _ s

/-- A look at a channel touches inputs alone. -/
theorem inSide_afterQual (s : State) (n : Nat) : InSide s (s.afterQual n) := by
  unfold State.afterQual State.requalify
  extract_lets t u
  have h1 : InSide s t := (inSide_clearScan s _).trans (inSide_clearScan _ _)
  have h2 : InSide t u := inSide_when (inSide_clearPairCode t _)
  exact ((h1.trans h2).trans (inSide_evalPair u _)).trans (inSide_supplyCheck _ n)

theorem inSide_capture (s : State) (e kind : Nat) : InSide s (s.capture e kind) := by
  unfold State.capture
  extract_lets r
  split
  · exact inSide_updEnc s e _
  · exact ((inSide_updEnc s e _).trans (inSide_mark _ _ _)).trans (inSide_raiseIn _ _ _ _ _ _)

theorem inSide_latchCapture (s : State) (n : Nat) (level : Bool) : InSide s (s.latchCapture n level) := by
  unfold State.latchCapture
  split
  · exact InSide.refl s
  · exact inSide_foldl _ (fun s e => inSide_when (inSide_capture s e 4)) _ s

theorem inSide_fedRelease (s : State) (n : Nat) : InSide s (s.fedRelease n) := by
  unfold State.fedRelease
  extract_lets r i
  repeat' split
  all_goals exact ⟨rfl, Grows.same rfl ⟨rfl, rfl⟩, fun _ h => h⟩

theorem inSide_endWindow (s : State) (n : Nat) : InSide s (s.endWindow n) := by
  unfold State.endWindow
  extract_lets i r missing correct t u c v
  split
  · exact InSide.refl s
  · have h1 : InSide s t := inSide_when (inSide_raiseIn s n 3 0 0 false)
    have h2 : InSide t u := inSide_updInp t n _
    have h3 : InSide u v := inSide_when (inSide_clearIn u n)
    have h4 : InSide v (v.updInp n (fun i => { i with crossed := false })) := inSide_updInp v n _
    exact (((h1.trans h2).trans h3).trans h4).trans (inSide_fedRelease _ n)

theorem inSide_startWindow (s : State) (n : Nat) : InSide s (s.startWindow n) := by
  unfold State.startWindow
  repeat' split
  all_goals exact ⟨rfl, Grows.same rfl ⟨rfl, rfl⟩, fun _ h => h⟩

theorem inSide_edged (s : State) (n : Nat) (level : Bool) : InSide s (edged s n level) := by
  have wet : ∀ u : State, InSide u (u.wettingEdge n) := fun u => by
    unfold State.wettingEdge
    extract_lets r hf q
    repeat' split
    all_goals exact ⟨rfl, Grows.same rfl ⟨rfl, rfl⟩, fun _ h => h⟩
  exact ((inSide_updInp s n _).trans (wet _)).trans (inSide_latchCapture _ n level)

theorem inSide_filterEdge (s : State) (n : Nat) (level : Bool) : InSide s (s.filterEdge n level) := by
  unfold State.filterEdge
  extract_lets i
  repeat' split
  all_goals exact ⟨rfl, Grows.same rfl ⟨rfl, rfl⟩, fun _ h => h⟩

theorem inSide_ossdOn (s : State) (n : Nat) : InSide s (s.ossdOn n) := by
  unfold State.ossdOn
  extract_lets m
  repeat' split
  · exact ((inSide_updInp s n _).trans (inSide_afterQual (s.ossdOff n) n)).trans (inSide_updInp _ n _)
  · exact inSide_updInp s n _
  · exact inSide_updInp s n _
  · exact (inSide_updInp s n _).trans (inSide_updInp _ m _)
  · exact inSide_updInp s n _

theorem inSide_ossdDrop (s : State) (n m : Nat) (both : Bool) : InSide s (s.ossdDrop n m both) := by
  have hold : ∀ u : State, InSide u (u.ossdHold n) := fun u => by
    unfold State.ossdHold
    split <;> exact ⟨rfl, Grows.same rfl ⟨rfl, rfl⟩, fun _ h => h⟩
  unfold State.ossdDrop
  split
  · exact InSide.refl s
  · extract_lets soon t
    have h1 : InSide s t := by
      simp only [t]
      repeat' split
      · exact (inSide_updInp s n _).trans (inSide_when (inSide_updInp (s.ossdOff n) m _))
      · exact hold s
      · exact hold s
      · exact inSide_updInp s n _
    exact h1.trans (inSide_when (inSide_raiseIn t _ _ _ _ _))

/-- An edge touches inputs alone. -/
theorem inSide_rawEdge (s : State) (n : Nat) (level both : Bool) : InSide s (s.rawEdge n level both) := by
  unfold State.rawEdge
  extract_lets t r u v w m
  have h1 : InSide s t := inSide_updInp s n _
  split
  · exact h1
  · have h2 : InSide t u := by
      simp only [u]
      split
      · exact (inSide_endWindow t n).trans (inSide_startWindow _ n)
      · exact InSide.refl t
    have h3 : InSide s w := (h1.trans h2).trans (inSide_edged u n level)
    repeat' split
    · exact h3.trans (inSide_filterEdge w n level)
    · exact h3.trans (inSide_updInp w n _)
    · exact h3.trans (inSide_ossdOn w n)
    · exact h3.trans (inSide_ossdDrop w n m both)
    · exact h3

theorem inSide_resumeInput (s : State) (n : Nat) : InSide s (s.resumeInput n) := (inSide_rawEdge s n _ _).trans (inSide_afterQual _ n)

/-! ### Raising a code -/

/-- `t` is `s` but for units out of service, records and events; no unit comes back into service and no event of a pair is lost. -/
structure Noted (s t : State) : Prop where
  same : t = { s with
    units := t.units
    regs := t.regs
    hif := { s.hif with evt := t.hif.evt, pend := t.hif.pend }
    recs := t.recs
    recSeq := t.recSeq
    port := t.port
    setNow := t.setNow }
  grows : Grows s t
  evts : ∀ i, bit s.regs.pairEvt i = true → bit t.regs.pairEvt i = true

theorem Noted.refl (s : State) : Noted s s := ⟨rfl, Grows.refl s, fun _ h => h⟩

theorem Noted.trans {s t u : State} (h : Noted s t) (k : Noted t u) : Noted s u := by
  obtain ⟨h, g, e⟩ := h
  obtain ⟨k, g', e'⟩ := k
  exact ⟨by rw [k, h], g.trans g', fun i b => e' i (e i b)⟩

theorem noted_when {s : State} {c : Bool} {f : State → State} (h : Noted s (f s)) : Noted s (s.when c f) := by
  cases c
  · exact Noted.refl s
  · exact h

theorem noted_record (s : State) (a : RecArg) : Noted s (s.record a) := ⟨by rw [record_frame], grows_record s a, fun _ h => by rw [record_frame]; exact h⟩
theorem noted_regs (s : State) (r : Regs) (h : r.pairEvt = s.regs.pairEvt := by rfl) : Noted s { s with regs := r } :=
  ⟨rfl, Grows.same rfl ⟨rfl, rfl⟩, fun i b => by
    show bit r.pairEvt i = true
    rw [h, b]⟩
theorem noted_mark (s : State) (reg i : Nat) : Noted s (s.mark reg i) := ⟨rfl, Grows.same rfl ⟨rfl, rfl⟩, fun _ h => h⟩
theorem noted_takeOut (s : State) (site code : Nat) : Noted s (s.takeOut site code) := ⟨rfl, grows_takeOut s site code, fun _ h => h⟩

theorem noted_takeOuts (o code : Nat) (l : List AB) : ∀ s : State, Noted s (l.foldl (fun s y => s.takeOut (siteElement o y) code) s) := by
  induction l with
  | nil => exact Noted.refl
  | cons y l ih => intro s; exact (noted_takeOut s _ _).trans (ih _)

/-- What an output that takes a code shows (R169). -/
def taking (code : Nat) (r : Output) : Output :=
  { r with code := BitVec.ofNat 8 code, count := satInc r.count, verA := none, verB := none, lowAt := if code = 5 ∨ code = 6 then none else r.lowAt }

theorem raiseOut_refused {s : State} {o code : Nat} (x : AB) (related : Nat) (startup quiet : Bool)
    (h : codeRefused (s.out o).code.toNat code = true) : s.raiseOut o code x related startup quiet = s := by
  unfold State.raiseOut
  extract_lets r
  exact if_pos h

/-- A code that an output takes changes the output, and is noted. -/
theorem raiseOut_taken {s : State} {o code : Nat} (x : AB) (related : Nat) (startup quiet : Bool)
    (h : codeRefused (s.out o).code.toNat code = false) :
    Noted (s.updOut o (taking code)) (s.raiseOut o code x related startup quiet) := by
  unfold State.raiseOut
  extract_lets r inRecovery t src u site v
  rw [if_neg (by rw [show r.code.toNat = (s.out o).code.toNat from rfl, h]; decide)]
  have h1 : Noted (s.updOut o (taking code)) u := (noted_regs t _).trans (noted_mark _ _ _)
  have h2 : Noted u v := noted_when (noted_record u _)
  exact (h1.trans h2).trans (noted_takeOuts o code _ v)

theorem Noted.out {s t : State} (h : Noted s t) (o : Nat) : t.out o = s.out o := by rw [h.same]; rfl

/-- An output ends with the code raised on it, but for the codes it keeps over it (R169). -/
theorem raiseOut_code {s : State} {o code : Nat} (x : AB) (related : Nat) (startup quiet : Bool)
    (h : codeRefused (s.out o).code.toNat code = false ∨ (s.out o).code = BitVec.ofNat 8 code) :
    ((s.raiseOut o code x related startup quiet).out o).code = BitVec.ofNat 8 code := by
  cases hr : codeRefused (s.out o).code.toNat code with
  | false => rw [(raiseOut_taken x related startup quiet hr).out, out_updOut_same]; rfl
  | true =>
    rw [raiseOut_refused x related startup quiet hr]
    exact h.resolve_left (by rw [hr]; decide)

theorem raiseOut_out_other (s : State) {o p : Nat} (code : Nat) (x : AB) (related : Nat) (startup quiet : Bool) (h : p ≠ o) :
    (s.raiseOut o code x related startup quiet).out p = s.out p := by
  cases hr : codeRefused (s.out o).code.toNat code with
  | false => rw [(raiseOut_taken x related startup quiet hr).out, out_updOut, if_neg h]
  | true => rw [raiseOut_refused x related startup quiet hr]

/-- What a source that takes a code shows (R159). -/
def takingTp (s : State) (code : Nat) (r : Source) : Source :=
  { r with code := BitVec.ofNat 8 code, count := satInc r.count, lowAt := none, armClr := false, limAt := none, retryAt := if code = 3 then s.now else r.retryAt }

theorem Noted.inSide {s t : State} (h : Noted s t) : InSide s t := ⟨by rw [h.same], h.grows, h.evts⟩

/-- A code that a source takes changes the source, and the inputs that it feeds. -/
theorem raiseTp_taken {s : State} {t code : Nat} (related : Nat) (startup quiet : Bool) (h : (s.tp t).code.toNat ≠ code) :
    InSide (s.updTp t (takingTp s code)) (s.raiseTp t code related startup quiet) := by
  unfold State.raiseTp
  extract_lets r inRecovery u src v w x
  rw [if_neg h]
  have h1 : Noted (s.updTp t (takingTp s code)) v := (noted_regs u _).trans (noted_mark _ _ _)
  have h2 : Noted v w := noted_when (noted_record v _)
  have h3 : Noted w x := noted_when (noted_takeOut w _ _)
  refine ((h1.trans h2).trans h3).inSide.trans (inSide_foldl _ (fun s n => ?_) _ x)
  exact inSide_when ((inSide_raiseIn s n 3 _ 0 quiet).trans (inSide_afterQual _ n))

theorem raiseTp_refused {s : State} {t code : Nat} (related : Nat) (startup quiet : Bool) (h : (s.tp t).code.toNat = code) :
    s.raiseTp t code related startup quiet = s := by
  unfold State.raiseTp
  extract_lets r
  exact if_pos h

theorem InSide.tp {s t : State} (h : InSide s t) (n : Nat) : t.tp n = s.tp n := by rw [h.same]; rfl
theorem InSide.out {s t : State} (h : InSide s t) (o : Nat) : t.out o = s.out o := by rw [h.same]; rfl

theorem raiseTp_code (s : State) (t : Nat) {code : Nat} (related : Nat) (startup quiet : Bool) :
    ((s.raiseTp t code related startup quiet).tp t).code = BitVec.ofNat 8 code := by
  by_cases h : (s.tp t).code.toNat = code
  · rw [raiseTp_refused related startup quiet h, ← h, BitVec.ofNat_toNat, BitVec.setWidth_eq]
  · rw [(raiseTp_taken related startup quiet h).tp, tp_updTp_same]
    rfl

theorem tp_updTp_other (s : State) {t u : Nat} (f : Source → Source) (h : u ≠ t) : (s.updTp t f).tp u = s.tp u := by
  simp only [State.tp, State.updTp, get_upd, if_neg h]

theorem raiseTp_tp_other (s : State) {t u : Nat} (code related : Nat) (startup quiet : Bool) (h : u ≠ t) :
    (s.raiseTp t code related startup quiet).tp u = s.tp u := by
  by_cases hc : (s.tp t).code.toNat = code
  · rw [raiseTp_refused related startup quiet hc]
  · rw [(raiseTp_taken related startup quiet hc).tp, tp_updTp_other s _ h]

end Sys2Proof.Laws
end

section
/-! Turn-on, turn-off and the codes of outputs (R149 to R152, R169 to R174, R455). -/

namespace Sys2Proof.Laws

open Sys2Proof Sys2Proof.Machine Sys2Proof.Safety

/-! ### Turning off and on -/

theorem obey_off {e : Element} {now : Nat} : (e.obey false now).on = false ∧ (e.obey false now).waiting = false := ⟨rfl, rfl⟩

theorem obeyOut_off {s : State} {o : Nat} {r : Output} {x : AB} (h : s.stays o x = false) :
    ((s.obeyOut o r).el x).on = false ∧ ((s.obeyOut o r).el x).waiting = false := by
  unfold State.obeyOut
  cases x
  · rw [h]
    exact obey_off
  · rw [h]
    exact obey_off

theorem fabric_coreUp {s t : State} (h : Fabric s t) : t.coreUp = s.coreUp := by
  rw [h]
  rfl

/-- With the core side up, an element that may not conduct neither conducts nor waits in a settled state (R149). -/
theorem settled_dark {s : State} {e : Nat × Output} {x : AB} (hc : s.coreUp = true) (he : e ∈ s.settle.outs)
    (hm : mayConduct s.settle e.1 x = false) : (e.2.el x).on = false ∧ (e.2.el x).waiting = false := by
  obtain ⟨u, r, hu, hf, _, hx⟩ := settled_output he
  rw [hu, pins_mayConduct, obeyAll_mayConduct] at hm
  rw [hx]
  refine obeyOut_off ?_
  cases hs : u.stays e.1 x with
  | false => rfl
  | true => exact absurd (mayConduct_of_stays ((fabric_coreUp hf).trans hc) hs) (by rw [hm]; decide)

theorem when_coreUp {s : State} {c : Bool} {f : State → State} (h : (f s).coreUp = s.coreUp) : (s.when c f).coreUp = s.coreUp := by
  cases c
  · rfl
  · exact h

theorem bucket_setBucket (s : State) (d : Nat) (b : Bucket) : (s.setBucket d b).bucket d = b := by
  unfold State.setBucket State.bucket
  by_cases h : d = 0
  · simp only [if_pos h]
  · simp only [if_neg h, get_put_same]

theorem setBucket_out (s : State) (d : Nat) (b : Bucket) (o : Nat) : (s.setBucket d b).out o = s.out o := by
  unfold State.setBucket
  split <;> rfl

theorem request_granted {s : State} {d site cost : Nat} (hq : (s.bucket d).queue = []) (hl : (cost : Int) ≤ (s.bucket d).level) :
    s.request d site cost = (true, s.setBucket d ((s.bucket d).grant { site := site, cost := cost, at_ := s.now })) := by
  unfold State.request
  extract_lets b t
  rw [if_pos (.inr ⟨hq, hl⟩)]

theorem request_waits {s : State} {d site cost : Nat} (hc : 0 < cost) (hl : (s.bucket d).level < cost) :
    s.request d site cost = (false, s.setBucket d ((s.bucket d).enqueue { site := site, cost := cost, at_ := s.now })) := by
  unfold State.request
  extract_lets b t
  rw [if_neg]
  rintro (h | ⟨_, h⟩)
  · omega
  · simp only [b] at h
    omega

theorem el_updEl_same (s : State) (o : Nat) (x : AB) (f : Element → Element) : ((s.updEl o x f).out o).el x = f ((s.out o).el x) := by
  unfold State.updEl
  rw [out_updOut_same]
  cases x <;> rfl

theorem startOn_on (s : State) (o : Nat) (x : AB) : (((s.startOn o x).out o).el x).on = true := by
  unfold State.startOn
  extract_lets t
  have on : ((t.out o).el x).on = true := by simp only [t, el_updEl_same]
  rw [out_updOut_same]
  split
  · cases x
    · exact on
    · exact on
  · exact on

theorem turnOnEl_asks {s : State} {o : Nat} {x : AB} (hc : s.coreUp = true) (he : s.elCmd o x = true) (hn : (s.out o).el x = {}) :
    s.turnOnEl o x = (let r := s.request (o / 16 + 1) (siteElement o x) (s.turnOnCost o x)
      if r.1 then r.2.startOn o x else r.2.updEl o x (fun e => { e with waiting := true })) := by
  unfold State.turnOnEl
  rw [hc, he, hn]
  rfl

/-- Settles O33. -/
theorem outputsTurnOnAndOff : Obligations.OutputsTurnOnAndOff := by
  refine ⟨?_, fun o s => rfl, fun o x s hc he hn => ⟨fun hq hl => ?_, fun hp hl => ?_⟩, fun o a s hc ha => ⟨fun hp => ?_, fun hp => ?_⟩,
    fun b h ma temp vf s u ho hu => ⟨fun hm => ?_, fun hm => ?_⟩⟩
  · intro o s hc
    show Gives (execOutputTurnOff o s) _
    unfold execOutputTurnOff
    extract_lets t r u v
    refine gives_settled ?_
    intro e he hk x hx
    rw [← hk] at hx
    have h1 : u.coreUp = t.coreUp := when_coreUp rfl
    have h2 : v.coreUp = u.coreUp := when_coreUp rfl
    exact settled_dark (h2.trans (h1.trans ((fabric_coreUp (fabric_settle s)).trans hc))) he hx
  · rw [turnOnEl_asks hc he hn, request_granted hq hl]
    refine ⟨startOn_on _ o x, ?_⟩
    show (((s.setBucket _ _).bucket (o / 16 + 1))).level = _
    rw [bucket_setBucket]
    rfl
  · rw [turnOnEl_asks hc he hn, request_waits hp hl]
    simp only [Bool.false_eq_true, if_false]
    rw [el_updEl_same, setBucket_out, hn]
    refine ⟨rfl, rfl, ?_⟩
    show ((s.setBucket _ _).bucket (o / 16 + 1)).level = _
    rw [bucket_setBucket]
    rfl
  · show execCurrentLimitExpiry o s = _
    unfold execCurrentLimitExpiry
    simp only [ha, hc, hp, Bool.and_self, if_true]
    rfl
  · show execCurrentLimitExpiry o s = _
    unfold execCurrentLimitExpiry
    simp only [ha, hp, Bool.and_false, Bool.false_eq_true, if_false]
    rfl
  · show execBankCurrentAverage b h ⟨ma, temp, vf⟩ s = _
    unfold execBankCurrentAverage
    simp only [ho, Bool.false_eq_true, if_false, decide_eq_true hm]
    rw [hu]
    rfl
  · show execBankCurrentAverage b h ⟨ma, temp, vf⟩ s = _
    unfold execBankCurrentAverage
    simp only [ho, Bool.false_eq_true, if_false, decide_eq_false (Nat.not_lt.mpr hm)]
    rw [hu]
    rfl

/-! ### Codes -/

theorem isOut_takeOut (s : State) (site code : Nat) : (s.takeOut site code).isOut site = true := by
  simp only [State.isOut, State.unit, State.takeOut, State.updUnit, get_upd_same]

/-- The elements that a code names go out of service (R169). -/
theorem takeOuts_out {o code : Nat} {y : AB} : ∀ (l : List AB) (s : State), y ∈ l →
    (l.foldl (fun s y => s.takeOut (siteElement o y) code) s).isOut (siteElement o y) = true := by
  intro l
  induction l with
  | nil => intro s h; exact absurd h List.not_mem_nil
  | cons z l ih =>
    intro s h
    rcases List.mem_cons.mp h with rfl | h
    · exact (grows_foldl l _ (fun s y => grows_takeOut s _ code) _).1 _ (isOut_takeOut s _ code)
    · exact ih _ h

theorem raiseOut_takesOut {s : State} {o code : Nat} {x y : AB} (h : codeRefused (s.out o).code.toNat code = false)
    (hy : y ∈ codeElements code x) : (s.raiseOut o code x).elOut o y = true := by
  unfold State.raiseOut
  extract_lets r inRecovery t src u site v
  rw [if_neg (by rw [show r.code.toNat = (s.out o).code.toNat from rfl, h]; decide)]
  exact takeOuts_out _ v hy

theorem raiseOut_news {s : State} {o code : Nat} (x : AB) (h : codeRefused (s.out o).code.toNat code = false) (ho : o < 64) :
    bit (s.raiseOut o code x).regs.outNew o = true := by
  unfold State.raiseOut
  extract_lets r inRecovery t src u site v
  rw [if_neg (by rw [show r.code.toNat = (s.out o).code.toNat from rfl, h]; decide)]
  have folds : ∀ (l : List AB) (w : State), (l.foldl (fun s y => s.takeOut (siteElement o y) code) w).regs = w.regs := by
    intro l
    induction l with
    | nil => intro w; rfl
    | cons y l ih => intro w; exact (ih _).trans rfl
  rw [folds]
  have h2 : v.regs = u.regs := by
    simp only [v, State.when]
    split
    · exact record_regs u _
    · rfl
  rw [h2]
  show bit (setBit s.regs.outNew o true) o = true
  rw [bit_setBit_true]
  simp [ho]

theorem el_updEl_other (s : State) (o : Nat) (x : AB) (f : Element → Element) : ((s.updEl o x f).out o).el x.other = (s.out o).el x.other := by
  unfold State.updEl
  rw [out_updOut_same]
  cases x <;> rfl

theorem updEl_out_code (s : State) (o : Nat) (x : AB) (f : Element → Element) : ((s.updEl o x f).out o).code = (s.out o).code := by
  unfold State.updEl
  rw [out_updOut_same]
  cases x <;> rfl

/-! ### Codes that clear -/

/-- EXT_HIGH and CROSS_SHORT clear once the ball has been low for 1 s (R169). -/
theorem outputCodeClear_low {o : Fin 64} {a : Nat} {s : State} (ha : (s.out o).lowAt = some a) (hp : s.past a 1000000000 = true)
    (hd : (s.out o).dark = true) (hc : (s.out o).code = 5 ∨ (s.out o).code = 6 ∧ s.partnerLow (s.out o).partner = true) :
    exec (.outputCodeClear o) s = .next (s.clearOut o).settle := by
  show execOutputCodeClear o s = _
  unfold execOutputCodeClear
  extract_lets r low want' ok
  have hl : low = true := by
    simp only [low, r, ha]
    exact hp
  have hr : r.dark = true := hd
  have hok : ok = true := by
    rcases hc with h | ⟨h, hq⟩
    · simp only [ok, r, h]
      show (r.dark && low) = true
      rw [hr, hl]
      rfl
    · simp only [ok, r, h]
      show (r.dark && low && s.partnerLow r.partner) = true
      rw [hr, hl, show s.partnerLow r.partner = true from hq]
      rfl
  rw [if_pos hok, if_neg]
  · rfl
  · rcases hc with h | ⟨h, _⟩
    · simp only [r, h]
      decide
    · simp only [r, h]
      decide

/-- OVERLOAD clears 100 ms after the output has gone off (R169). -/
theorem outputCodeClear_overload {o : Fin 64} {s : State} (hc : (s.out o).code = 7) (hd : (s.out o).conducts = false)
    (hp : s.past (s.out o).offAt 100000000 = true) : exec (.outputCodeClear o) s = .next (s.clearOut o).settle := by
  show execOutputCodeClear o s = _
  unfold execOutputCodeClear
  extract_lets r low want' ok
  have hok : ok = true := by
    simp only [ok, r, hc]
    show (!r.conducts && s.past r.offAt 100000000) = true
    rw [show r.conducts = false from hd, show s.past r.offAt 100000000 = true from hp]
    rfl
  rw [if_pos hok, if_neg]
  · rfl
  · simp only [r, hc]
    decide

/-- STD_MISMATCH clears once both halves read the level wanted (R183). -/
theorem outputCodeClear_mismatch {o : Fin 64} {want : Lvl} {s : State} (hw : want = (if (s.out o).conducts then Lvl.high else Lvl.low))
    (hc : (s.out o).code = 16) (ha : (s.out o).rbA = want) (hb : (s.out o).rbB = want) :
    exec (.outputCodeClear o) s = .next (s.updOut o (fun r => { r with code := 0 })).settle := by
  show execOutputCodeClear o s = _
  unfold execOutputCodeClear
  extract_lets r low want' ok
  have hok : ok = true := by
    simp only [ok, r, hc]
    show (r.rbA == (if r.conducts then Lvl.high else Lvl.low) && r.rbB == (if r.conducts then Lvl.high else Lvl.low)) = true
    rw [show (if r.conducts = true then Lvl.high else Lvl.low) = want from hw.symm, show r.rbA = want from ha,
      show r.rbB = want from hb]
    simp
  rw [if_pos hok, if_pos hc]
  rfl

/-- Settles O34. -/
theorem outputCodesLatch : Obligations.OutputCodesLatch := by
  refine ⟨fun o code x s => ⟨fun h => raiseOut_refused x 0 false false h, fun h => ⟨?_, ?_, fun ho => raiseOut_news x h ho, ?_, ?_, ?_,
      fun p hp => raiseOut_out_other s code x 0 false false hp⟩⟩,
    fun o x s => ⟨rfl, fun hc hh => ?_, fun hh => ?_⟩, fun o s => ⟨?_, fun hm => ?_, fun hm hc => ?_⟩, fun o a s ha hp hd hc => outputCodeClear_low ha hp hd hc,
    fun o s hc hd hp => outputCodeClear_overload hc hd hp, fun o ball s hm => ⟨fun hb h1 h2 => ?_, fun hb => ?_⟩, fun o want s hw hc ha hb => outputCodeClear_mismatch hw hc ha hb⟩
  · rw [(raiseOut_taken x 0 false false h).out, out_updOut_same]
    rfl
  · rw [(raiseOut_taken x 0 false false h).out, out_updOut_same]
    rfl
  · rintro (rfl | rfl | rfl)
    · exact raiseOut_takesOut h (by simp [codeElements])
    · exact raiseOut_takesOut h (by simp [codeElements])
    · exact raiseOut_takesOut h (by simp [codeElements])
  · rintro (rfl | rfl | rfl)
    · exact raiseOut_takesOut h (by simp [codeElements])
    · exact raiseOut_takesOut h (by simp [codeElements])
    · exact raiseOut_takesOut h (by simp [codeElements])
  · rintro rfl
    exact raiseOut_takesOut h (by simp [codeElements])
  · show execThermalRelease (.elem o x) s = _
    unfold execThermalRelease
    simp only [updEl_out_code, el_updEl_other, hc, hh]
    rfl
  · show execThermalRelease (.elem o x) s = _
    unfold execThermalRelease
    simp only [el_updEl_other, hh, Bool.not_true, Bool.and_false]
    rfl
  · unfold State.clearOut
    rw [out_updOut_same]
  · unfold State.clearOut
    rw [out_updOut_same]
    simp [hm]
  · unfold State.clearOut
    rw [out_updOut_same]
    simp only [hm, beq_self_eq_true, if_true, bne_iff_ne, ne_eq, hc, not_false_eq_true, Bool.or_eq_true, or_true, true_or]
  · show execStdMismatch ⟨o, ball⟩ s = _
    unfold execStdMismatch
    extract_lets o' c y want
    rw [if_pos ⟨hm, hb, h1, h2⟩]
    rfl
  · show execStdMismatch ⟨o, ball⟩ s = _
    unfold execStdMismatch
    extract_lets o' c y want
    rw [if_neg (fun h => h.2.1 hb)]
    rfl

end Sys2Proof.Laws
end

section
/-! The verdicts of output tests, and reports and lanes (R160 to R170, R176, R181). -/

namespace Sys2Proof.Laws

open Sys2Proof Sys2Proof.Machine Sys2Proof.Safety

/-! ### Pulses, off-checks and probes -/

theorem noteReadings_tb (s : State) (o : Nat) (ra rb : Reading) : (s.noteReadings o ra rb).tb = s.tb := rfl

theorem updEl_tb (s : State) (o : Nat) (x : AB) (f : Element → Element) : (s.updEl o x f).tb = s.tb := rfl

/-- The element under test brought out of its pulse. -/
def pulseEnded (s : State) (o : Nat) (x : AB) : State := s.updEl o x (fun e => { e with test := .none, cutAt := none })

/-- The readings of a pulse kept, with the instant of its end. -/
def pulseRead (s : State) (o : Nat) (x : AB) (fa fb : Reading) : State :=
  (((pulseEnded s o x).noteReadings o fa fb).updEl o x (fun e => { e with discard := 0 })).updOut o (fun r => { r with pulseAt := s.now })

/-- The end of a pulse at its time: a dip discards it, otherwise both halves' verdicts judge it (R162, R163, R181). -/
theorem pulseVerdict_ends {o : Fin 64} {x : AB} {ra rb : List Reading} {fallen : BitVec 16} {s : State} (hp : s.pulsed o = some x)
    (ht : ((s.out o).el x).test = .pulse → s.past ((s.out o).el x).testAt ((s.outRec o).opw + 100) = true) :
    exec (.pulseVerdict o ⟨ra, rb⟩ fallen) s =
      if s.dipped (o / 16) .a || s.dipped (o / 16) .b then doneSettled (((pulseEnded s o x).discardTest o x).returnEl o x)
      else
        let u := pulseRead s o x (foldReadings ra) (foldReadings rb)
        doneSettled ((if pulsePass x (foldReadings ra) && pulsePass x (foldReadings rb) then u.returnEl o x
          else if pulsePass x (foldReadings ra) != pulsePass x (foldReadings rb) then u.raiseOut o 10
          else u.updOut o (fun r => { r with
            a := { r.a with on := false, barred := true }, b := { r.b with on := false, barred := true },
            failX := some (x, foldReadings ra, foldReadings rb), offAt := s.now })).crossRefine (o / 16) o fallen) := by
  show execPulseVerdict o ⟨ra, rb⟩ fallen s = _
  unfold execPulseVerdict
  rw [hp]
  show (if _ then _ else _) = _
  rw [if_neg]
  · extract_lets t fa fb pa pb u v w
    have dip : ∀ h, t.dipped (o / 16) h = s.dipped (o / 16) h := fun _ => rfl
    have clock : u.now = s.now := by
      unfold State.now
      rw [show u.tb = s.tb from (updEl_tb _ _ _ _).trans ((noteReadings_tb t o fa fb).trans (updEl_tb _ _ _ _))]
    have clock' : v.now = s.now := by
      unfold State.now
      rw [show v.tb = u.tb from updOut_tb _ _ _]
      exact clock
    have hv : v = pulseRead s o x fa fb := by
      simp only [v, clock]
      rfl
    rw [dip, dip]
    simp only [w, clock']
    clear_value v
    subst hv
    rfl
  · rintro ⟨h1, h2⟩
    rw [ht h1] at h2
    cases h2

/-- An off-check at its time judges both halves' readings (R163). -/
theorem offCheck_judges {o : Fin 64} {x : AB} {ra rb fa fb : Reading} {s : State} (hx : (s.out o).failX = some (x, fa, fb))
    (hp : s.past (s.out o).offAt 20000 = true) (hA : s.dipped (o / 16) .a = false) (hB : s.dipped (o / 16) .b = false) :
    exec (.offCheck o ra rb) s =
      .next (((s.noteReadings o ra rb).updOut o (fun v => { v with failX := none })).verdict o (offCode x fa ra) (offCode x fb rb) x).settle := by
  show execOffCheck o ra rb s = _
  unfold execOffCheck
  rw [hx]
  show (if _ then _ else _) = _
  rw [if_pos]
  · rfl
  · rw [hA, hB, show s.past (s.out o).offAt (us 20) = true from hp]
    rfl

/-- Both halves that name one code latch it (R167). -/
theorem verdict_agreed {s : State} {o c : Nat} (x : AB) (hc : c ≠ 0) : s.verdict o c c x = s.raiseOut o c x := by
  unfold State.verdict
  rw [if_pos rfl]
  simp [State.when, hc]

theorem verdict_passes (s : State) (o : Nat) (x : AB) : s.verdict o 0 0 x = s := by
  unfold State.verdict
  rw [if_pos rfl]
  rfl

/-- The end of a probe at its time, in no dip and with no turn-on waiting, judges both readings (R165). -/
theorem darkTestProbe_judges {o : Fin 64} {x : AB} {r : Reading} {fallen : BitVec 16} {s : State} (ht : ((s.out o).el x).test = .probe)
    (hl : ((s.out o).el x).late = false) (hp : s.past ((s.out o).el x).testAt 20000 = true) (hA : s.dipped (o / 16) .a = false)
    (hB : s.dipped (o / 16) .b = false) :
    exec (.darkTestProbe o x (some (r, r)) fallen) s =
      .next ((((s.updEl o x (fun e => { e with test := .none, late := false })).updEl o x (fun e => { e with discard := 0 })).verdict o
        (probeCode x r) (probeCode x r) x).crossRefine (o / 16) o fallen).settle := by
  show execDarkTestProbe o x (some (r, r)) fallen s = _
  unfold execDarkTestProbe
  show (if _ then (if _ then _ else if _ then _ else _) else _) = _
  rw [if_pos, if_neg, if_neg]
  · rfl
  · rw [show State.dipped (s.updEl o x _) (o / 16) .a = false from hA, show State.dipped (s.updEl o x _) (o / 16) .b = false from hB]
    decide
  · rw [hl]
    decide
  · exact ⟨ht, by rw [show s.past ((s.out o).el x).testAt (us 20) = true from hp]; rfl⟩

theorem continuousCode_idle {s : State} {o : Nat} {r : Reading} (lim : Bool) (hm : (s.outRec o).mode = 1) (ho : s.out o = {})
    (hn : r.n ≠ .low) : s.continuousCode o r lim = 1 := by
  unfold State.continuousCode
  extract_lets u c opw quiet
  have hu : u = {} := ho
  have hq : quiet = true := by simp only [quiet, hu]; decide
  have hc : c.mode = 1 := hm
  rw [if_neg (by rw [hc]; decide), if_pos]
  rw [hq, hu]
  simp [hn]

theorem updHalf_congr (s : State) (b : Nat) (h : AB) (f g : FieldHalf → FieldHalf) (he : f (s.half b h) = g (s.half b h)) :
    s.updHalf b h f = s.updHalf b h g := by
  simp only [State.updHalf, Tab.upd]
  rw [show f (Tab.get {} s.halves (2 * b + h.n)) = g (Tab.get {} s.halves (2 * b + h.n)) from he]

theorem cvuItem_none {s : State} (src bank lane area : Nat) (key : Word) (bytes : List Byte) (h : s.cvus = []) :
    s.cvuItem src bank lane area key bytes = s := by
  unfold State.cvuItem
  rw [if_pos h]

/-- A second bad or missing word of an element's lane in a row switches the element off (R170). -/
theorem elLaneBad_second {s : State} {o : Nat} {x : AB} (h : ((s.out o).el x).laneBad = 1) :
    s.elLaneBad o x = ((s.updEl o x (fun e => { e with laneBad := min 2 (e.laneBad + 1), laneGood := 0 })).updEl o x
      (fun e => { e with laneOff := true })).raiseOut o 11 x := by
  unfold State.elLaneBad
  extract_lets t
  have bad : ((t.out o).el x).laneBad = 2 := by simp only [t, el_updEl_same, h]; decide
  rw [bad]
  rfl

/-- An element's lane stays bad as the state settles. -/
theorem settle_laneOff {s : State} {o : Nat} {x : AB} (h : ((s.out o).el x).laneOff = true) :
    ((s.settle.out o).el x).laneOff = true := by
  have keeps : ∀ u : State, ((u.obeyOut o (s.out o)).el x).laneOff = true := fun u => by
    rw [← h]
    unfold State.obeyOut Element.obey
    cases x
    · show (if _ then _ else _ : Element).laneOff = _
      split <;> rfl
    · show (if _ then _ else _ : Element).laneOff = _
      split <;> rfl
  have bare : ∀ r : Output, (r.el x).laneOff = true → r ≠ {} := by
    rintro r hr rfl
    cases x <;> cases hr
  obtain ⟨u, hu⟩ := settle_out (bare _ h) (fun u => bare _ (keeps u))
  rw [hu]
  exact keeps u

theorem raiseOut_el (s : State) (o code : Nat) (x y : AB) : ((s.raiseOut o code x).out o).el y = (s.out o).el y := by
  cases hr : codeRefused (s.out o).code.toNat code with
  | false =>
    rw [(raiseOut_taken x 0 false false hr).out, out_updOut_same]
    cases y <;> rfl
  | true => rw [raiseOut_refused x 0 false false hr]

/-- Settles O35. -/
theorem outputTestsAndLanesJudge : Obligations.OutputTestsAndLanesJudge := by
  refine ⟨⟨fun o x s hm hd hc hs => ?_, fun o x ra rb fallen s c u hp ht hc hu => ⟨fun h => ?_, fun hA hB => ⟨fun h1 h2 => ?_, fun h => ?_, fun h1 h2 => ?_⟩⟩,
      fun o x r f s u hx hp hA hB hu => ⟨fun h => ?_, fun h1 h2 => ?_, fun h1 h2 h3 h4 => ?_, fun h1 h2 h3 h4 h5 => ?_⟩,
      fun o x fallen s h => ?_, fun o x r fallen s u ht hl hp hA hB hu => ⟨fun h1 h2 h3 => ?_, fun h1 h2 => ?_, fun h1 h2 => ?_⟩,
      fun o h r lim s u hd hu => ⟨fun hc => ?_, fun hm ho hn => ?_⟩⟩,
    fun o h v raw s ho => ⟨fun hb hl => ?_, fun hb hl => ?_, fun hb => ?_⟩, fun o v w raw s hc hv hw => ?_,
    fun o x w s hc hl => ⟨?_, ?_⟩, fun o x w s hc h0 => ?_⟩
  · show execElementOffPulse o x s = _
    unfold execElementOffPulse
    rw [if_pos ⟨hm, hd, hc, hs⟩]
    rfl
  · rw [pulseVerdict_ends hp ht, if_pos (by rcases h with h | h <;> simp [h]), hc]
    rfl
  · rw [pulseVerdict_ends hp ht, if_neg (by simp [hA, hB]), h1, h2, hu, hc]
    rfl
  · rw [pulseVerdict_ends hp ht, if_neg (by simp [hA, hB])]
    extract_lets w
    rw [if_neg, if_pos (by simpa using h), hu, hc]
    · rfl
    · intro both
      rw [Bool.and_eq_true] at both
      exact h (both.1.trans both.2.symm)
  · rw [pulseVerdict_ends hp ht, if_neg (by simp [hA, hB]), h1, h2, hu, hc]
    rfl
  · have code : offCode x f r = 5 := by unfold offCode; rw [h]
    rw [offCheck_judges hx hp hA hB, code, verdict_agreed x (by decide), hu]
  · have code : offCode x f r = 1 := by unfold offCode; rw [h1, h2]
    rw [offCheck_judges hx hp hA hB, code, verdict_agreed x (by decide), hu]
  · have code : offCode x f r = 2 := by unfold offCode; rw [h1, h2, h3]; simp [h4]
    rw [offCheck_judges hx hp hA hB, code, verdict_agreed x (by decide), hu]
  · have code : offCode x f r = 3 := by unfold offCode; rw [h1, h2, h3]; simp [h4, h5]
    rw [offCheck_judges hx hp hA hB, code, verdict_agreed x (by decide), hu]
  · show execDarkTestProbe o x none fallen s = _
    unfold execDarkTestProbe
    simp only [h, if_true]
    rfl
  · have code : probeCode x r = 0 := by rw [h1]; simp [probeCode, h2, h3]
    rw [darkTestProbe_judges ht hl hp hA hB, code, verdict_passes, hu]
  · have code : probeCode x r = 2 := by rw [h1]; simp [probeCode, h2]
    rw [darkTestProbe_judges ht hl hp hA hB, code, verdict_agreed x (by decide), hu]
  · have code : probeCode x r = 1 := by rw [h1]; simp [probeCode, h2]
    rw [darkTestProbe_judges ht hl hp hA hB, code, verdict_agreed x (by decide), hu]
  · show execContinuousOutputCheck o h r lim s = _
    unfold execContinuousOutputCheck
    simp only [hd, Bool.false_eq_true, if_false, hc]
    rw [hu]
    rfl
  · show execContinuousOutputCheck o h r lim s = _
    unfold execContinuousOutputCheck
    simp only [hd, Bool.false_eq_true, if_false, continuousCode_idle lim hm ho hn]
    rw [hu]
    rfl
  · show execControlLaneReport o h v raw s = _
    unfold execControlLaneReport
    simp only [ho, Bool.false_eq_true, if_false, hb, if_true]
    show doneSettled _ = doneSettled _
    refine congrArg doneSettled (updHalf_congr _ _ _ _ _ ?_)
    exact if_pos hl
  · show execControlLaneReport o h v raw s = _
    unfold execControlLaneReport
    simp only [ho, Bool.false_eq_true, if_false, hb, if_true]
    show doneSettled _ = doneSettled _
    refine congrArg doneSettled (updHalf_congr _ _ _ _ _ ?_)
    exact if_neg (by omega)
  · show execControlLaneReport o h v raw s = _
    unfold execControlLaneReport
    simp only [ho, Bool.false_eq_true, if_false, hb]
    rfl
  · unfold State.laneReport
    simp only [cvuItem_none _ _ _ _ _ _ hc, out_updOut_same, hv, State.when, bne_iff_ne.mpr hw, if_true]
  · show doneSettled (State.elLaneBad (s.cvuItem _ _ _ _ _ _) o x) = doneSettled (s.elLaneBad o x)
    rw [cvuItem_none _ _ _ _ _ _ hc]
  · show Gives (doneSettled (s.elLaneBad o x)) _
    rw [elLaneBad_second hl]
    refine gives_settled ⟨settle_laneOff ?_, fun hr => settle_out_code (raiseOut_code x 0 false false (.inl ?_)) (by decide)⟩
    · rw [raiseOut_el, el_updEl_same]
    · rw [updEl_out_code, updEl_out_code]
      exact hr
  · show doneSettled (State.elLaneGood (s.cvuItem _ _ _ _ _ _) o x) = _
    rw [cvuItem_none _ _ _ _ _ _ hc]
    unfold State.elLaneGood
    simp only [updEl_out_code, h0]
    rfl

end Sys2Proof.Laws
end

section
/-! Whole banks and halves of the field side: what each bank-wide act leaves, and the codes it ends with (R175 to R186). -/

namespace Sys2Proof.Laws

open Sys2Proof Sys2Proof.Machine Sys2Proof.Safety

/-! ### Halves and banks stay -/

/-- Halves and banks are as they were, and no unit comes back into service. -/
structure Housed (s t : State) : Prop where
  halves : t.halves = s.halves
  banks : t.banks = s.banks
  grows : Grows s t

theorem Housed.refl (s : State) : Housed s s := ⟨rfl, rfl, Grows.refl s⟩

theorem Housed.trans {s t u : State} (h : Housed s t) (k : Housed t u) : Housed s u :=
  ⟨k.halves.trans h.halves, k.banks.trans h.banks, h.grows.trans k.grows⟩

theorem Housed.half {s t : State} (h : Housed s t) (b : Nat) (x : AB) : t.half b x = s.half b x := by
  unfold State.half
  rw [h.halves]

theorem Housed.bank {s t : State} (h : Housed s t) (b : Nat) : t.bank b = s.bank b := by
  unfold State.bank
  rw [h.banks]

theorem housed_when {s : State} {c : Bool} {f : State → State} (h : Housed s (f s)) : Housed s (s.when c f) := by
  cases c
  · exact Housed.refl s
  · exact h

theorem housed_foldl {β : Type} (f : State → β → State) (h : ∀ s b, Housed s (f s b)) (l : List β) : ∀ s, Housed s (l.foldl f s) := by
  induction l with
  | nil => exact Housed.refl
  | cons b l ih => intro s; exact (h s b).trans (ih _)

theorem InSide.housed {s t : State} (h : InSide s t) : Housed s t := ⟨by rw [h.same], by rw [h.same], h.grows⟩

theorem Books.housed {s t : State} (h : Books s t) : Housed s t :=
  ⟨by rw [h], by rw [h], Grows.same (by rw [h]) (by rw [h]; exact ⟨rfl, rfl⟩)⟩

theorem housed_updOut (s : State) (o : Nat) (f : Output → Output) : Housed s (s.updOut o f) := ⟨rfl, rfl, Grows.same rfl ⟨rfl, rfl⟩⟩
theorem housed_updEl (s : State) (o : Nat) (x : AB) (f : Element → Element) : Housed s (s.updEl o x f) := housed_updOut s o _
theorem housed_updTp (s : State) (t : Nat) (f : Source → Source) : Housed s (s.updTp t f) := ⟨rfl, rfl, Grows.same rfl ⟨rfl, rfl⟩⟩

theorem housed_raiseOut (s : State) (o code : Nat) (x : AB) (related : Nat) (startup quiet : Bool) :
    Housed s (s.raiseOut o code x related startup quiet) := by
  cases h : codeRefused (s.out o).code.toNat code with
  | false => exact (housed_updOut s o _).trans (raiseOut_taken x related startup quiet h).inSide.housed
  | true =>
    rw [raiseOut_refused x related startup quiet h]
    exact Housed.refl s

theorem housed_raiseTp (s : State) (t code related : Nat) (startup quiet : Bool) : Housed s (s.raiseTp t code related startup quiet) := by
  by_cases h : (s.tp t).code.toNat = code
  · rw [raiseTp_refused related startup quiet h]
    exact Housed.refl s
  · exact (housed_updTp s t _).trans (raiseTp_taken related startup quiet h).housed

theorem housed_clearOut (s : State) (o : Nat) : Housed s (s.clearOut o) := housed_updOut s o _
theorem housed_recover (s : State) (o : Nat) : Housed s (s.recover o) := housed_updOut s o _
theorem housed_resumeTp (s : State) (t : Nat) : Housed s (s.resumeTp t) := (housed_updTp s t _).trans (housed_updTp _ t _)

theorem housed_laneReport (s : State) (o : Nat) (h : AB) (verdict : Byte) (raw : List Byte) :
    Housed s (s.laneReport o h verdict raw) := by
  unfold State.laneReport
  extract_lets b lane t u
  have h1 : Housed s u := (books_cvuItem s _ _ _ _ _ _).housed.trans (housed_updOut t o _)
  split
  · exact (h1.trans (housed_updOut u o _)).trans (housed_when (housed_raiseOut _ o 10 _ _ _ _))
  · exact h1

/-! ### The Ladle apart -/

/-- `t` is `s` but for the Ladle. -/
def Ladled (s t : State) : Prop := t = { s with ladle := t.ladle }

theorem Ladled.trans {s t u : State} (h : Ladled s t) (k : Ladled t u) : Ladled s u := by
  unfold Ladled at *
  rw [k, h]

theorem ladled_setBucket (s : State) (d : Nat) (b : Bucket) : Ladled s (s.setBucket d b) := by
  unfold State.setBucket
  split <;> rfl

theorem ladled_gives (d : Nat) (l : List Tok) : ∀ s : State, Ladled s (l.foldl (fun s t => s.giveBack d t.site) s) := by
  induction l with
  | nil => exact fun _ => rfl
  | cons t l ih => intro s; exact (ladled_setBucket s d _).trans (ih _)

theorem ladled_releaseHalf (s : State) (b : Nat) (h : AB) : Ladled s (s.releaseHalf b h) := by
  unfold State.releaseHalf
  extract_lets mine k t
  exact (ladled_setBucket s _ _).trans (ladled_gives _ _ t)

theorem Ladled.housed {s t : State} (h : Ladled s t) : Housed s t :=
  ⟨by rw [h], by rw [h], Grows.same (by rw [h]) (by rw [h]; exact ⟨rfl, rfl⟩)⟩

theorem books_cvuSourceLost (s : State) (f : Nat → Nat → Bool) : Books s (s.cvuSourceLost f) := by
  unfold State.cvuSourceLost
  split
  · exact Books.refl s
  · exact books_each _ _ (fun s n => books_when (books_cvuDo s n _)) s

/-! ### Bank-wide acts -/

theorem housed_stopTests (s : State) (b : Nat) (h : AB) : Housed s (s.stopTests b h) := housed_foldl _ (fun s o => housed_updEl s o h _) _ s

theorem housed_raiseBankOut (s : State) (b code : Nat) (quiet : Bool) : Housed s (s.raiseBankOut b code quiet) :=
  housed_foldl _ (fun s o => housed_raiseOut s o code _ _ _ _) _ s

theorem housed_raiseBankTp (s : State) (b code : Nat) (pick : Nat → Bool) (quiet : Bool) : Housed s (s.raiseBankTp b code pick quiet) :=
  housed_foldl _ (fun s t => housed_when (housed_raiseTp s t code _ _ _)) _ s

theorem inSide_raiseBankIn (s : State) (b code : Nat) (pick : Nat → Bool) (quiet : Bool) : InSide s (s.raiseBankIn b code pick quiet) := by
  refine inSide_foldl _ (fun s n => ?_) _ s
  exact inSide_when ((inSide_raiseIn s n code _ _ _).trans (inSide_afterQual _ n))

theorem housed_clearBankOut (s : State) (b code : Nat) : Housed s (s.clearBankOut b code) := by
  refine housed_foldl _ (fun s o => ?_) _ s
  exact housed_when ((housed_clearOut s o).trans (housed_recover _ o))

theorem housed_clearBankTp (s : State) (b code : Nat) (pick : Nat → Bool) : Housed s (s.clearBankTp b code pick) :=
  housed_foldl _ (fun s t => housed_when (housed_resumeTp s t)) _ s

theorem inSide_requalifyBank (s : State) (b : Nat) : InSide s (s.requalifyBank b) := inSide_foldl _ inSide_afterQual _ s

theorem inSide_cutInput (s : State) (n : Nat) : InSide s (s.cutInput n) := inSide_updInp s n _

/-! ### The outputs stay as sources and inputs change -/

theorem foldl_outs {β : Type} (f : State → β → State) (h : ∀ s b, (f s b).outs = s.outs) (l : List β) : ∀ s, (l.foldl f s).outs = s.outs := by
  induction l with
  | nil => exact fun _ => rfl
  | cons b l ih => intro s; exact (ih _).trans (h s b)

theorem raiseTp_outs (s : State) (t code related : Nat) (startup quiet : Bool) : (s.raiseTp t code related startup quiet).outs = s.outs := by
  by_cases h : (s.tp t).code.toNat = code
  · rw [raiseTp_refused related startup quiet h]
  · rw [(raiseTp_taken related startup quiet h).same]
    rfl

theorem raiseBankTp_outs (s : State) (b code : Nat) (pick : Nat → Bool) (quiet : Bool) : (s.raiseBankTp b code pick quiet).outs = s.outs :=
  foldl_outs _ (fun s t => when_outs (raiseTp_outs s t code _ _ _)) _ s

theorem clearBankTp_outs (s : State) (b code : Nat) (pick : Nat → Bool) : (s.clearBankTp b code pick).outs = s.outs := by
  refine foldl_outs _ (fun s t => ?_) _ s
  exact when_outs rfl

theorem InSide.outs {s t : State} (h : InSide s t) : t.outs = s.outs := by rw [h.same]

theorem InSide.tps {s t : State} (h : InSide s t) : t.tps = s.tps := by rw [h.same]

/-! ### A code on every output or source of a bank -/

/-- What each step of a fold brings about for its own member, and every step keeps, holds of every member at the end. -/
theorem foldl_reaches {P Q : Nat → State → Prop} {f : State → Nat → State} (own : ∀ s o, Q o s → P o (f s o))
    (wait : ∀ s o p, p ≠ o → Q o s → Q o (f s p)) (keep : ∀ s o p, P o s → P o (f s p)) (l : List Nat) (s : State) (o : Nat)
    (ho : o ∈ l) (hq : Q o s) : P o (l.foldl f s) := by
  induction l generalizing s with
  | nil => cases ho
  | cons p l ih =>
    by_cases hp : p = o
    · subst hp
      exact List.foldlRecOn (motive := P p) l f (own s p hq) fun u hu q _ => keep u p q hu
    · exact ih _ ((List.mem_cons.mp ho).resolve_left (Ne.symm hp)) (wait s o p hp hq)

theorem codeRefused_plain {old code : Nat} (h5 : code ≠ 5) (h16 : code ≠ 16) : codeRefused old code = decide (old = code) := by
  unfold codeRefused
  simp [h5, h16, Bool.beq_eq_decide_eq]

/-- A code of no rank ends on the output whatever it held. -/
theorem raiseOut_plain (s : State) {o code : Nat} (x : AB) (related : Nat) (startup quiet : Bool) (h5 : code ≠ 5) (h16 : code ≠ 16) :
    ((s.raiseOut o code x related startup quiet).out o).code = BitVec.ofNat 8 code := by
  refine raiseOut_code x related startup quiet ?_
  by_cases h : (s.out o).code.toNat = code
  · exact .inr (by rw [← h, BitVec.ofNat_toNat, BitVec.setWidth_eq])
  · exact .inl (by rw [codeRefused_plain h5 h16, decide_eq_false h])

theorem raiseOut_keepsCode (s : State) {o p code : Nat} (x : AB) (related : Nat) (startup quiet : Bool) (h5 : code ≠ 5) (h16 : code ≠ 16)
    (h : (s.out o).code = BitVec.ofNat 8 code) : ((s.raiseOut p code x related startup quiet).out o).code = BitVec.ofNat 8 code := by
  by_cases hp : o = p
  · subst hp
    exact raiseOut_plain s x related startup quiet h5 h16
  · rw [raiseOut_out_other s code x related startup quiet hp, h]

theorem mem_bankSources (b : Nat) (j : Fin 8) : 8 * b + j.val ∈ bankSources b := by
  unfold bankSources
  simp only [List.mem_map, List.mem_range]
  exact ⟨j, j.isLt, rfl⟩

theorem mem_bankOutputs (b : Nat) (i : Fin 16) : 16 * b + i.val ∈ bankOutputs b := by
  unfold bankOutputs
  simp only [List.mem_map, List.mem_range]
  exact ⟨i, i.isLt, rfl⟩

theorem raiseBankOut_code (s : State) {b code : Nat} (quiet : Bool) (h5 : code ≠ 5) (h16 : code ≠ 16) (i : Fin 16) :
    ((s.raiseBankOut b code quiet).out (16 * b + i)).code = BitVec.ofNat 8 code := by
  refine foldl_reaches (P := fun o s => (s.out o).code = BitVec.ofNat 8 code) (Q := fun _ _ => True)
    (fun s o _ => raiseOut_plain s _ _ _ _ h5 h16) (fun _ _ _ _ _ => trivial) (fun s o p h => raiseOut_keepsCode s _ _ _ _ h5 h16 h)
    (bankOutputs b) s _ (mem_bankOutputs b i) trivial

theorem raiseTp_keepsCode (s : State) {t u code : Nat} (related : Nat) (startup quiet : Bool) (h : (s.tp t).code = BitVec.ofNat 8 code) :
    ((s.raiseTp u code related startup quiet).tp t).code = BitVec.ofNat 8 code := by
  by_cases hu : t = u
  · subst hu
    exact raiseTp_code s t related startup quiet
  · rw [raiseTp_tp_other s code related startup quiet hu, h]

theorem raiseBankTp_code (s : State) (b code : Nat) (quiet : Bool) (j : Fin 8) :
    ((s.raiseBankTp b code (fun _ => true) quiet).tp (8 * b + j)).code = BitVec.ofNat 8 code :=
  foldl_reaches (P := fun t s => (s.tp t).code = BitVec.ofNat 8 code) (Q := fun _ _ => True)
    (fun s t _ => raiseTp_code s t _ _ _) (fun _ _ _ _ _ => trivial) (fun s _ _ h => raiseTp_keepsCode s _ _ _ h)
    (bankSources b) s _ (mem_bankSources b j) trivial

/-! ### A code that clears on every output or source of a bank -/

theorem noCode_clearOut (s : State) (o : Nat) : NoCode o ((s.clearOut o).recover o) := by
  unfold State.recover
  refine noCode_updOut ?_
  show ((s.clearOut o).out o).code = 0
  unfold State.clearOut
  rw [out_updOut_same]

theorem clearBankOut_noCode {s : State} {b code : Nat} (i : Fin 16) (h : (s.out (16 * b + i)).code.toNat = code) :
    NoCode (16 * b + i) (s.clearBankOut b code) := by
  refine foldl_reaches (P := NoCode) (Q := fun o s => (s.out o).code.toNat = code) (fun s o hq => ?_) (fun s o p hp hq => ?_)
    (fun s o p h => ?_) (bankOutputs b) s _ (mem_bankOutputs b i) h
  · rw [hq, State.when, beq_self_eq_true, if_pos rfl]
    exact noCode_clearOut s o
  · unfold State.when
    split
    · show (((s.updOut p _).updOut p _).out o).code.toNat = code
      rw [out_updOut, if_neg (Ne.symm hp), out_updOut, if_neg (Ne.symm hp), hq]
    · exact hq
  · unfold State.when
    split
    · by_cases hp : p = o
      · subst hp
        exact noCode_clearOut s p
      · exact (h.updOut hp).updOut hp
    · exact h

theorem clearBankOut_keepsNoCode {s : State} {b o : Nat} (code : Nat) (h : NoCode o s) : NoCode o (s.clearBankOut b code) := by
  refine List.foldlRecOn (motive := NoCode o) (bankOutputs b) _ h fun u hu p _ => ?_
  unfold State.when
  split
  · by_cases hp : p = o
    · subst hp
      exact noCode_clearOut u p
    · exact (hu.updOut hp).updOut hp
  · exact hu

/-- An output that holds another code keeps it as a code clears on its bank. -/
theorem clearBankOut_other {s : State} {b code o : Nat} {c : Byte} (h : (s.out o).code = c) (hc : c.toNat ≠ code) :
    ((s.clearBankOut b code).out o).code = c := by
  refine List.foldlRecOn (motive := fun u : State => (u.out o).code = c) (bankOutputs b) _ h fun u hu p _ => ?_
  unfold State.when
  split
  next hp =>
    have other : o ≠ p := by
      rintro rfl
      rw [hu] at hp
      exact hc (by simpa using hp)
    show (((u.updOut p _).updOut p _).out o).code = c
    rw [out_updOut, if_neg other, out_updOut, if_neg other, hu]
  · exact hu

theorem resumeTp_tp_other (s : State) {t u : Nat} (h : u ≠ t) : (s.resumeTp t).tp u = s.tp u := by
  unfold State.resumeTp State.clearTp
  extract_lets c at_
  rw [tp_updTp_other _ _ h, tp_updTp_other _ _ h]

theorem resumeTp_code (s : State) (t : Nat) : ((s.resumeTp t).tp t).code = 0 := by
  unfold State.resumeTp State.clearTp
  extract_lets c at_
  rw [tp_updTp_same, tp_updTp_same]

theorem clearBankTp_code {s : State} {b code : Nat} (j : Fin 8) (h : (s.tp (8 * b + j)).code.toNat = code) :
    ((s.clearBankTp b code (fun _ => true)).tp (8 * b + j)).code = 0 := by
  refine foldl_reaches (P := fun t s => (s.tp t).code = 0) (Q := fun t s => (s.tp t).code.toNat = code) (fun s t hq => ?_)
    (fun s t u hu hq => ?_) (fun s t u h => ?_) (bankSources b) s _ (mem_bankSources b j) h
  · simp only [hq, State.when, beq_self_eq_true, Bool.and_self, if_true]
    exact resumeTp_code s t
  · unfold State.when
    split
    · rw [resumeTp_tp_other s (Ne.symm hu), hq]
    · exact hq
  · unfold State.when
    split
    · by_cases hu : t = u
      · subst hu
        exact resumeTp_code s t
      · rw [resumeTp_tp_other s hu, h]
    · exact h

theorem clearBankTp_other {s : State} {b code t : Nat} {c : Byte} (pick : Nat → Bool) (h : (s.tp t).code = c) (hc : c.toNat ≠ code) :
    ((s.clearBankTp b code pick).tp t).code = c := by
  refine List.foldlRecOn (motive := fun u : State => (u.tp t).code = c) (bankSources b) _ h fun u hu p _ => ?_
  unfold State.when
  split
  next hp =>
    have other : t ≠ p := by
      rintro rfl
      rw [hu] at hp
      rw [Bool.and_eq_true] at hp
      exact hc (eq_of_beq hp.1)
    rw [resumeTp_tp_other u other, hu]
  · exact hu

end Sys2Proof.Laws
end

section
/-! Heartbeats, silence, VF and brown-out of a field half (R175 to R186). -/

namespace Sys2Proof.Laws

open Sys2Proof Sys2Proof.Machine Sys2Proof.Safety

theorem half_updHalf_same (s : State) (b : Nat) (h : AB) (f : FieldHalf → FieldHalf) : (s.updHalf b h f).half b h = f (s.half b h) := by
  simp only [State.half, State.updHalf, get_upd, if_true]

theorem half_updHalf_other (s : State) (b : Nat) (h : AB) (f : FieldHalf → FieldHalf) :
    (s.updHalf b h f).half b h.other = s.half b h.other := by
  have ne : 2 * b + h.other.n ≠ 2 * b + h.n := by cases h <;> simp [AB.other, AB.n]
  simp only [State.half, State.updHalf, get_upd, if_neg ne]

theorem updHalf_out (s : State) (b : Nat) (h : AB) (f : FieldHalf → FieldHalf) (o : Nat) : (s.updHalf b h f).out o = s.out o := rfl

theorem out_of_outs {s t : State} (h : t.outs = s.outs) (o : Nat) : t.out o = s.out o := by
  unfold State.out
  rw [h]

/-! ### Heartbeats -/

/-- What the core side sends changes no more than its own count. -/
theorem sendHb_half (s : State) (b : Nat) (h : AB) : ∃ q a, (s.sendHb b h).half b h = { s.half b h with sent := q, sentAt := a } := by
  unfold State.sendHb
  split
  · exact ⟨_, _, half_updHalf_same s b h _⟩
  · exact ⟨_, _, rfl⟩

theorem sendHb_halfOut (s : State) (b : Nat) (h : AB) : (s.sendHb b h).halfOut b h = s.halfOut b h := by
  unfold State.sendHb
  split <;> rfl

theorem sendHb_now (s : State) (b : Nat) (h : AB) : (s.sendHb b h).now = s.now := by
  unfold State.sendHb
  split <;> rfl

theorem updHalf_now (s : State) (b : Nat) (h : AB) (f : FieldHalf → FieldHalf) : (s.updHalf b h f).now = s.now := rfl

/-- The reports that a half sends leave its buffer empty and nothing else of it changed. -/
theorem sendReports_housed (s : State) (b : Nat) (h : AB) :
    Housed (s.updHalf b h (fun f => { f with buffered := [] })) (s.sendReports b h) :=
  housed_foldl (fun s (r : Report) => s.laneReport r.o h r.verdict r.raw) (fun s r => housed_laneReport s r.o h _ _) (s.half b h).buffered _

theorem sendReports_half (s : State) (b : Nat) (h : AB) : (s.sendReports b h).half b h = { s.half b h with buffered := [] } :=
  ((sendReports_housed s b h).half b h).trans (half_updHalf_same s b h _)

theorem bankEvt_bank (s : State) (b i : Nat) : (s.bankEvt b i).bank b = { s.bank b with evt := setBit (s.bank b).evt i true } :=
  bank_updBank_same s b (fun r => { r with evt := setBit r.evt i true })

theorem bankEvt_half (s : State) (b i c : Nat) (h : AB) : (s.bankEvt b i).half c h = s.half c h := rfl
theorem bankEvt_out (s : State) (b i o : Nat) : (s.bankEvt b i).out o = s.out o := rfl

theorem bankEvt_sets (s : State) (b : Nat) {i : Nat} (hi : i < 5) : bit ((s.bankEvt b i).bank b).evt i = true := by
  rw [bankEvt_bank, show FBank.evt _ = setBit (s.bank b).evt i true from rfl, bit_setBit_true]
  simp [hi]

/-- A heartbeat at a half in service: what it is judged by, and what it leads to (R175, R176, R178). -/
theorem heartbeat_judged {b : Fin 4} {h : AB} {q : Byte} {tb : Word} {s : State} (ho : s.halfOut b h = false) :
    exec (.heartbeat b h ⟨q, tb⟩ false) s = .next ((s.sendHb b h).updHalf b h (fun f => { f with run := 0 })).settle ∧
    exec (.heartbeat b h ⟨q, tb⟩ true) s =
      let v := (s.half b h).ref == some (q - 1)
      let t := ((s.sendHb b h).updHalf b h (fun f => { f with ref := some q, hbTb := tb, run := if v then min 8 (f.run + 1) else 0 })).when v
        (fun s => s.validHb b h)
      .next (t.when ((s.half b h).silent && decide ((t.half b h).run ≥ 8)) (fun s => s.resync b h)).settle := by
  obtain ⟨c, a, hh⟩ := sendHb_half s b h
  have out : (s.sendHb b h).halfOut b h = false := by rw [sendHb_halfOut, ho]
  constructor
  · show (if _ then _ else if _ then _ else _) = _
    rw [if_neg (by rw [out]; decide), if_pos (by decide)]
    rfl
  · show (if _ then _ else if _ then _ else _) = _
    rw [if_neg (by rw [out]; decide), if_neg (by decide), hh]
    rfl

/-- A valid heartbeat keeps of its half all but its instant, while the half is silent. -/
theorem validHb_half {s : State} {b : Nat} {h : AB} (hs : (s.half b h).silent = true) :
    (s.validHb b h).half b h = { s.half b h with lastHb := some s.now } := by
  unfold State.validHb
  extract_lets t u
  have hu : u.half b h = { s.half b h with lastHb := some s.now } := by
    have step : Housed t u := housed_foldl _ (fun s o => housed_when (housed_updEl s o h _)) (bankOutputs b) t
    exact (step.half b h).trans (half_updHalf_same s b h _)
  have silent : (u.half b h).silent = true := by
    rw [hu]
    exact hs
  rw [silent]
  exact hu

/-- A half that resynchronises is no longer silent, and its buffer is empty (R178). -/
theorem resync_half (s : State) (b : Nat) (h : AB) :
    (s.resync b h).half b h = { s.half b h with silent := false, sched := (s.bank b).sched, buffered := [] } := by
  unfold State.resync
  extract_lets t u v
  have clears : Housed u v := housed_when (housed_clearBankOut u b 12)
  have hv : v.half b h = u.half b h := clears.half b h
  have hu : u.half b h = { t.half b h with buffered := [] } := sendReports_half t b h
  rw [bankEvt_half, hv, hu, half_updHalf_same]

theorem resync_sets (s : State) (b : Nat) (h : AB) : bit ((s.resync b h).bank b).evt 4 = true := bankEvt_sets _ b (by decide)

/-! ### Silence -/

/-- An output of which a half has expired shows SIL_EXPIRED (R177). -/
theorem expireOut_code (s : State) (o : Nat) (h : AB) : ((s.expireOut o h).out o).code = 12 :=
  raiseOut_plain _ .a 0 false false (by decide) (by decide)

theorem expireOut_keeps {s : State} {o p : Nat} (h : AB) (hc : (s.out o).code = 12) : ((s.expireOut p h).out o).code = 12 := by
  by_cases hp : o = p
  · subst hp
    exact expireOut_code s o h
  · unfold State.expireOut
    refine (congrArg Output.code (raiseOut_out_other _ 12 .a 0 false false hp)).trans ?_
    unfold State.when State.updEl
    split
    · simp only [out_updOut, if_neg hp]
      exact hc
    · exact hc

theorem stopTests_code (s : State) (b o : Nat) (h : AB) : ((s.stopTests b h).out o).code = (s.out o).code := by
  refine List.foldlRecOn (motive := fun u : State => (u.out o).code = (s.out o).code) (bankOutputs b) _ rfl fun u hu p _ => ?_
  by_cases hp : o = p
  · subst hp
    rw [updEl_out_code, hu]
  · unfold State.updEl
    rw [out_updOut, if_neg hp, hu]

theorem Ladled.out {s t : State} (h : Ladled s t) (o : Nat) : t.out o = s.out o := by
  rw [h]
  rfl

/-! ### A supply condition -/

theorem supplyFault_housed (s : State) (b : Nat) (h : AB) (c : Nat) : Housed ((s.stopTests b h).bankEvt b 0) (s.supplyFault b h c) := by
  unfold State.supplyFault
  extract_lets t u v
  have h1 : Housed t u := housed_raiseBankOut t b c false
  have h2 : Housed u v := housed_raiseBankTp u b 6 _ false
  have h3 : InSide v (v.raiseBankIn b 11 (fun _ => true)) := inSide_raiseBankIn v b 11 (fun _ => true) false
  exact (h1.trans h2).trans h3.housed

theorem supplyFault_codes (s : State) {b c : Nat} (h : AB) (h5 : c ≠ 5) (h16 : c ≠ 16) :
    (∀ i : Fin 16, ((s.supplyFault b h c).out (16 * b + i)).code = BitVec.ofNat 8 c) ∧
      ∀ j : Fin 8, ((s.supplyFault b h c).tp (8 * b + j)).code = 6 := by
  unfold State.supplyFault
  extract_lets t u v
  have last : InSide v (v.raiseBankIn b 11 (fun _ => true)) := inSide_raiseBankIn v b 11 (fun _ => true) false
  constructor
  · intro i
    have outs : v.outs = u.outs := raiseBankTp_outs u b 6 (fun _ => true) false
    have codes : (u.out (16 * b + i)).code = BitVec.ofNat 8 c := raiseBankOut_code t false h5 h16 i
    have same : (v.raiseBankIn b 11 (fun _ => true)).out (16 * b + i) = u.out (16 * b + i) :=
      (last.out (16 * b + i)).trans (out_of_outs outs _)
    exact (congrArg Output.code same).trans codes
  · intro j
    have codes := raiseBankTp_code u b 6 false j
    have same : (v.raiseBankIn b 11 (fun _ => true)).tp (8 * b + j) = v.tp (8 * b + j) := last.tp (8 * b + j)
    exact (congrArg Source.code same).trans codes

/-- An element whose half sees no good supply is off in a settled state. -/
theorem settled_unsupplied {s : State} {e : Nat × Output} {h : AB} (he : e ∈ s.settle.outs)
    (hf : (s.half (e.1 / 16) h).vfLow = true ∨ (s.half (e.1 / 16) h).vfHigh = true) : (e.2.el h).on = false := by
  obtain ⟨v, r, _, hfab, _, hx⟩ := settled_output he
  rw [hx]
  refine (obeyOut_off ?_).1
  have mark : v.half (e.1 / 16) h = s.half (e.1 / 16) h := by
    rw [hfab]
    rfl
  have undriven : v.drives e.1 h = false := by
    unfold State.drives
    rw [mark]
    rcases hf with hf | hf <;> simp [hf]
  unfold State.stays State.elCmd State.localOn
  simp [undriven]

/-- A half that has seen its supply out of the window, settled: its mark, the codes of its bank, its elements off (R180). -/
theorem supplyFault_settles {u : State} {b : Nat} {h : AB} {c : Nat} (h5 : c ≠ 5) (h16 : c ≠ 16) (hc : BitVec.ofNat 8 c ≠ 0)
    (hf : (u.half b h).vfLow = true ∨ (u.half b h).vfHigh = true) :
    (u.supplyFault b h c).settle.half b h = u.half b h ∧ bit ((u.supplyFault b h c).settle.bank b).evt 0 = true ∧
      (∀ i : Fin 16, ((u.supplyFault b h c).settle.out (16 * b + i)).code = BitVec.ofNat 8 c) ∧
      (∀ j : Fin 8, ((u.supplyFault b h c).settle.tp (8 * b + j)).code = 6) ∧
      ∀ e ∈ (u.supplyFault b h c).settle.outs, e.1 / 16 = b → (e.2.el h).on = false := by
  have keeps := supplyFault_housed u b h c
  obtain ⟨outs, tps⟩ := supplyFault_codes u h h5 h16 (b := b)
  have half : (u.supplyFault b h c).half b h = u.half b h := by
    rw [keeps.half, bankEvt_half, (housed_stopTests u b h).half]
  refine ⟨by rw [settle_half, half], ?_, fun i => settle_out_code (outs i) hc, fun j => by rw [settle_tp, tps j], fun e he hb => ?_⟩
  · rw [settle_bank, keeps.bank]
    exact bankEvt_sets _ b (by decide)
  · refine settled_unsupplied he ?_
    rw [hb, half]
    exact hf

/-! ### Recovery and brown-out -/

theorem when_tps {s : State} {c : Bool} {f : State → State} (h : (f s).tps = s.tps) : (s.when c f).tps = s.tps := by
  cases c
  · rfl
  · exact h

theorem foldl_tps {β : Type} (f : State → β → State) (h : ∀ s b, (f s b).tps = s.tps) (l : List β) : ∀ s, (l.foldl f s).tps = s.tps := by
  induction l with
  | nil => exact fun _ => rfl
  | cons b l ih => intro s; exact (ih _).trans (h s b)

theorem halfBack_outs_code {s : State} {b : Nat} {h : AB} {o : Nat} {c : Byte} (hc : (s.out o).code = c) (hn : c ≠ 15) :
    ((s.halfBack b h).out o).code = c := by
  unfold State.halfBack
  extract_lets t u v w
  have ht : (t.out o).code = c := hc
  have hu : (u.out o).code = c := by
    simp only [u, State.when]
    split
    · exact clearBankOut_other ht (by bv_omega)
    · exact ht
  have hv : v.outs = u.outs := clearBankTp_outs u b 7 _
  have hw : InSide v w := by
    refine inSide_foldl _ (fun s n => ?_) _ v
    exact inSide_when (inSide_resumeInput s n)
  have stays : (w.requalifyBank b).outs = u.outs := (inSide_requalifyBank w b).outs.trans (hw.outs.trans hv)
  rw [out_of_outs stays, hu]

theorem halfBack_tp_code {s : State} {b t : Nat} {h : AB} {c : Byte} (hc : (s.tp t).code = c) (hn : c ≠ 7) :
    ((s.halfBack b h).tp t).code = c := by
  unfold State.halfBack
  extract_lets t' u v w
  have hu : (u.tp t).code = c := by
    have same : u.tps = s.tps := by
      simp only [u, State.when]
      split
      · exact foldl_tps _ (fun s o => when_tps rfl) _ t'
      · rfl
    unfold State.tp at hc ⊢
    rw [same, hc]
  have hv : (v.tp t).code = c := clearBankTp_other _ hu (by bv_omega)
  have hw : InSide v w := by
    refine inSide_foldl _ (fun s n => ?_) _ v
    exact inSide_when (inSide_resumeInput s n)
  rw [((hw.trans (inSide_requalifyBank w b)).tp t), hv]

/-- A half that is back keeps all but its schedule. -/
theorem halfBack_half (s : State) (b : Nat) (h : AB) :
    (∀ x, ((s.halfBack b h).half b x).vfLow = (s.half b x).vfLow ∧ ((s.halfBack b h).half b x).vfHigh = (s.half b x).vfHigh) ∧
      (s.halfBack b h).bank b = s.bank b := by
  unfold State.halfBack
  extract_lets t u v w
  have h1 : Housed t u := housed_when (housed_clearBankOut t b 15)
  have h2 : Housed u v := housed_clearBankTp u b 7 _
  have h3 : InSide v w := by
    refine inSide_foldl _ (fun s n => ?_) _ v
    exact inSide_when (inSide_resumeInput s n)
  have all : Housed t (w.requalifyBank b) := ((h1.trans h2).trans h3.housed).trans (inSide_requalifyBank w b).housed
  refine ⟨fun x => ?_, all.bank b⟩
  rw [all.half]
  simp only [t, State.half, State.updHalf, get_upd]
  split
  next same => rw [same]; exact ⟨rfl, rfl⟩
  next => exact ⟨rfl, rfl⟩

/-- A recovery of one half, which comes back where its supply had reset it (R182, R184). -/
def supplyBack (b : Nat) (h : AB) (s : State) : State :=
  (s.updHalf b h (fun f => { f with vfLow := false, vfHigh := false })).when (s.halfOut b h && (s.half b h).vfLow) (fun s => s.halfBack b h)

theorem supplyBack_marks (s : State) (b : Nat) (h : AB) :
    (supplyBack b h s).bank b = s.bank b ∧ ((supplyBack b h s).half b h).vfLow = false ∧ ((supplyBack b h s).half b h).vfHigh = false ∧
      ((supplyBack b h s).half b h.other).vfLow = (s.half b h.other).vfLow ∧
      ((supplyBack b h s).half b h.other).vfHigh = (s.half b h.other).vfHigh := by
  have own : (s.updHalf b h (fun f => { f with vfLow := false, vfHigh := false })).half b h = _ := half_updHalf_same s b h _
  have other : (s.updHalf b h (fun f => { f with vfLow := false, vfHigh := false })).half b h.other = _ := half_updHalf_other s b h _
  unfold supplyBack State.when
  split
  · obtain ⟨marks, bank⟩ := halfBack_half (s.updHalf b h (fun f => { f with vfLow := false, vfHigh := false })) b h
    rw [(marks h).1, (marks h).2, (marks h.other).1, (marks h.other).2, bank, own, other]
    exact ⟨rfl, rfl, rfl, rfl, rfl⟩
  · rw [own, other]
    exact ⟨rfl, rfl, rfl, rfl, rfl⟩

theorem supplyBack_out {s : State} {b o : Nat} {h : AB} {c : Byte} (hc : (s.out o).code = c) (hn : c ≠ 15) :
    ((supplyBack b h s).out o).code = c := by
  unfold supplyBack State.when
  split
  · exact halfBack_outs_code hc hn
  · exact hc

theorem supplyBack_tp {s : State} {b t : Nat} {h : AB} {c : Byte} (hc : (s.tp t).code = c) (hn : c ≠ 7) :
    ((supplyBack b h s).tp t).code = c := by
  unfold supplyBack State.when
  split
  · exact halfBack_tp_code hc hn
  · exact hc

/-- The bank up again, both halves recovered, the codes of its supply cleared and its inputs judged again (R180, R182). -/
def recovered (s : State) (b : Nat) : State :=
  (((((supplyBack b .b (supplyBack b .a (s.updBank b (fun k => { k with vf := true })))).clearBankOut b 13).clearBankOut b 14).clearBankTp
    b 6 (fun _ => true)).requalifyBank b)

theorem vfRecovery_recovers {b : Fin 4} (els : List ElTest) (tps : List TpTest) {s : State} (h : (s.bank b).vf = true) :
    exec (.vfRecovery ⟨b, els, tps⟩) s = doneSettled (recovered s b) := by
  show execVfRecovery ⟨b, els, tps⟩ s = _
  unfold execVfRecovery
  simp only [h]
  rfl

theorem recovered_clears (s : State) (b : Nat) :
    ((recovered s b).bank b).vf = true ∧ (∀ h, ((recovered s b).half b h).vfLow = false ∧ ((recovered s b).half b h).vfHigh = false) ∧
      (∀ i : Fin 16, ((s.out (16 * b + i)).code = 13 ∨ (s.out (16 * b + i)).code = 14) → NoCode (16 * b + i) (recovered s b)) ∧
      ∀ j : Fin 8, (s.tp (8 * b + j)).code = 6 → ((recovered s b).tp (8 * b + j)).code = 0 := by
  unfold recovered
  generalize hu : s.updBank b (fun k => { k with vf := true }) = u
  generalize hv : supplyBack b .b (supplyBack b .a u) = v
  have uvf : (u.bank b).vf = true := by rw [← hu, bank_updBank_same]
  have uout : ∀ o, u.out o = s.out o := fun o => by rw [← hu]; rfl
  have utp : ∀ t, u.tp t = s.tp t := fun t => by rw [← hu]; rfl
  obtain ⟨bankA, lowA, highA, _, _⟩ := supplyBack_marks u b .a
  obtain ⟨bankB, lowB, highB, lowO, highO⟩ := supplyBack_marks (supplyBack b .a u) b .b
  rw [hv] at bankB lowB highB lowO highO
  have outs : ∀ {o c}, (s.out o).code = c → c ≠ 15 → (v.out o).code = c := fun hc hn => by
    rw [← hv]
    exact supplyBack_out (supplyBack_out (by rw [uout, hc]) hn) hn
  have tps : ∀ {t c}, (s.tp t).code = c → c ≠ 7 → (v.tp t).code = c := fun hc hn => by
    rw [← hv]
    exact supplyBack_tp (supplyBack_tp (by rw [utp, hc]) hn) hn
  generalize hw : (v.clearBankOut b 13).clearBankOut b 14 = w
  have vw : Housed v w := by
    rw [← hw]
    exact (housed_clearBankOut v b 13).trans (housed_clearBankOut _ b 14)
  have wx : Housed w ((w.clearBankTp b 6 (fun _ => true)).requalifyBank b) :=
    (housed_clearBankTp w b 6 _).trans (inSide_requalifyBank _ b).housed
  have vx := vw.trans wx
  refine ⟨?_, fun h => ?_, fun i hc => ?_, fun j hc => ?_⟩
  · rw [vx.bank, bankB, bankA, uvf]
  · rw [vx.half]
    cases h
    · exact ⟨lowO.trans lowA, highO.trans highA⟩
    · exact ⟨lowB, highB⟩
  · have clear : NoCode (16 * b + i) w := by
      rw [← hw]
      rcases hc with hc | hc
      · exact clearBankOut_keepsNoCode 14 (clearBankOut_noCode i (by rw [outs hc (by decide)]; rfl))
      · exact clearBankOut_noCode i (by rw [clearBankOut_other (outs hc (by decide)) (by decide)]; rfl)
    unfold NoCode
    rw [(inSide_requalifyBank _ b).outs, clearBankTp_outs]
    exact clear
  · have same : w.tps = v.tps := by
      rw [← hw]
      exact (foldl_tps _ (fun s o => when_tps rfl) _ _).trans (foldl_tps _ (fun s o => when_tps rfl) _ v)
    have code : (w.tp (8 * b + j)).code.toNat = 6 := by
      unfold State.tp
      rw [same]
      exact congrArg BitVec.toNat (tps hc (by decide))
    rw [(inSide_requalifyBank _ b).tp]
    exact clearBankTp_code j code

theorem halfOut_takeOut (s : State) (b : Nat) (h : AB) (code : Nat) : (s.takeOut (siteBank b h.n 3 3) code).halfOut b h = true :=
  isOut_takeOut s _ code

theorem settle_halfOut {s : State} {b : Nat} {h : AB} (ho : s.halfOut b h = true) : s.settle.halfOut b h = true :=
  (grows_settle s).1 _ ho

/-- A half that goes down is out of service without its references, its bank under HALF_DOWN (R183). -/
theorem halfDown_leaves (s : State) (b : Nat) (h : AB) :
    (s.halfDown b h).halfOut b h = true ∧
      (s.halfDown b h).half b h = { s.half b h with ref := none, run := 0, buffered := [], lastHb := none, sched := none } ∧
      (s.halfDown b h).bank b = s.bank b ∧ ∀ i : Fin 16, ((s.halfDown b h).out (16 * b + i)).code = 15 := by
  unfold State.halfDown
  extract_lets t u v w x y z a _
  have uv : Housed u v := (housed_stopTests u b h).trans (ladled_releaseHalf _ b h).housed
  have vw : Housed v w := housed_raiseBankOut v b 15 true
  have wx : Housed w x := housed_raiseBankTp w b 7 _ true
  have xy : InSide x y := inSide_raiseBankIn x b 10 _ true
  have yz : InSide y z := by
    refine inSide_foldl _ (fun s n => ?_) _ y
    exact inSide_when ((inSide_cutInput s n).trans (inSide_afterQual _ n))
  have za : InSide z a := inSide_when (inSide_record z _)
  have last : Books a (a.when (!a.bankStreams b) (fun s => s.cvuSourceLost (fun src bk => decide (src ≤ 2) && bk == b))) :=
    books_when (books_cvuSourceLost a _)
  have all : Housed u _ := ((uv.trans vw).trans wx).trans (((xy.trans yz).trans za).housed.trans last.housed)
  refine ⟨all.grows.1 _ (halfOut_takeOut s b h 15), ?_, all.bank b, fun i => ?_⟩
  · rw [all.half]
    exact half_updHalf_same t b h _
  · have codes : (w.out (16 * b + i)).code = 15 := raiseBankOut_code v true (by decide) (by decide) i
    have outs : x.outs = w.outs := raiseBankTp_outs w b 7 _ true
    rw [out_of_outs (show State.outs _ = a.outs by rw [last]), out_of_outs ((xy.trans yz).trans za).outs, out_of_outs outs, codes]

/-- A half whose silence timer is due is silent with SIL_EXPIRED on its bank (R177). -/
theorem silExpired_expires {b : Fin 4} {h : AB} {s : State} (hs : (s.half b h).silent = false) (hq : (s.half b h).quiet = false)
    (ho : s.halfOut b h = false) (hd : s.silDue b h = true) : ∃ u : State, exec (.silExpired b h) s = doneSettled u ∧
      (u.half b h).silent = true ∧ (u.half b h).run = 0 ∧ bit (u.bank b).evt 2 = true ∧ ∀ i : Fin 16, (u.out (16 * b + i)).code = 12 := by
  let v := (bankOutputs b).foldl (fun s o => s.expireOut o h) s
  let w := v.updHalf b h (fun f => { f with silent := true, run := 0 })
  let x := w.stopTests b h
  have wx : Housed w x := housed_stopTests w b h
  have xy : Ladled x (x.releaseHalf b h) := ladled_releaseHalf x b h
  have half : (x.releaseHalf b h).half b h = { v.half b h with silent := true, run := 0 } := by
    rw [xy.housed.half, wx.half]
    exact half_updHalf_same v b h _
  refine ⟨(x.releaseHalf b h).bankEvt b 2, ?_, by rw [bankEvt_half, half], by rw [bankEvt_half, half], bankEvt_sets _ b (by decide), fun i => ?_⟩
  · show (if _ then _ else _) = _
    rw [if_neg (by rw [hs, hq, ho, hd]; decide)]
  · have codes : (v.out (16 * b + i)).code = 12 :=
      foldl_reaches (P := fun o s => (s.out o).code = 12) (Q := fun _ _ => True) (fun s o _ => expireOut_code s o h)
        (fun _ _ _ _ _ => trivial) (fun _ _ _ hc => expireOut_keeps h hc) (bankOutputs b) s _ (mem_bankOutputs b i) trivial
    rw [bankEvt_out, xy.out, stopTests_code]
    exact (congrArg Output.code (updHalf_out v b h _ _)).trans codes

theorem silExpired_waits {b : Fin 4} {h : AB} {s : State} (hd : s.silDue b h = false) : exec (.silExpired b h) s = .next s.settle := by
  show (if _ then _ else _) = _
  rw [if_pos (by simp [hd])]
  rfl

theorem halfBrownOut_leaves (b : Fin 4) (h : AB) (s : State) : ∃ u : State, exec (.halfBrownOut b h) s = doneSettled u ∧
    u.halfOut b h = true ∧ (∀ i : Fin 16, (u.out (16 * b + i)).code = 15) ∧
    u.half b h = { dropped := (s.half b h).dropped, vfLow := true, silent := (s.half b h).silent, temp := (s.half b h).temp, sent := (s.half b h).sent, sentAt := (s.half b h).sentAt } ∧
    ((s.half b h).vfLow = false → (s.half b h).vfHigh = false → bit (u.bank b).evt 0 = true) := by
  let v := s.when (!(s.half b h).vfLow && !(s.half b h).vfHigh) (fun s => s.bankEvt b 0)
  let w := v.updHalf b h (fun f =>
    { dropped := f.dropped, vfLow := true, silent := f.silent, temp := f.temp, sent := f.sent, sentAt := f.sentAt })
  have kept : v.half b h = s.half b h := by
    simp only [v, State.when]
    split <;> rfl
  obtain ⟨out, half, bank, codes⟩ := halfDown_leaves w b h
  refine ⟨w.halfDown b h, rfl, out, codes, ?_, fun hl hh => ?_⟩
  · rw [half, half_updHalf_same, kept]
  · rw [bank]
    show bit (v.bank b).evt 0 = true
    simp only [v, hl, hh]
    exact bankEvt_sets s b (by decide)

/-- The third discarded test in a row is TEST_FAIL; an earlier one only counts (R181). -/
theorem discardTest_counts (o : Nat) (x : AB) (s : State) :
    (((s.out o).el x).discard = 2 → (s.out o).code = 0 →
      ((s.discardTest o x).out o).code = 9 ∧ (((s.discardTest o x).out o).el x).discard = 0) ∧
    (((s.out o).el x).discard < 2 → s.discardTest o x = s.updEl o x (fun e => { e with discard := e.discard + 1 })) := by
  constructor
  · intro hd hc
    unfold State.discardTest
    extract_lets t
    have third : (((t.out o).el x).discard ≥ 3) := by
      simp only [t, el_updEl_same, hd]
      decide
    rw [decide_eq_true third]
    refine ⟨raiseOut_plain _ x 0 false false (by decide) (by decide), ?_⟩
    show (((State.raiseOut _ o 9 x).out o).el x).discard = 0
    rw [raiseOut_el, el_updEl_same]
  · intro hd
    unfold State.discardTest
    extract_lets t
    have few : ¬ (((t.out o).el x).discard ≥ 3) := by
      simp only [t, el_updEl_same]
      omega
    rw [decide_eq_false few]
    rfl

/-- The eighth valid heartbeat in a row ends a half's silence (R178). -/
theorem heartbeat_resyncs {b : Fin 4} {h : AB} {q : Byte} {tb : Word} {s : State} (ho : s.halfOut b h = false)
    (hs : (s.half b h).silent = true) (hr : (s.half b h).ref = some (q - 1)) (hn : (s.half b h).run = 7) :
    ∃ u : State, exec (.heartbeat b h ⟨q, tb⟩ true) s = doneSettled u ∧ (u.half b h).silent = false ∧ (u.half b h).ref = some q ∧
      (u.half b h).buffered = [] ∧ (u.half b h).lastHb = some s.now ∧ bit (u.bank b).evt 4 = true := by
  obtain ⟨c, a, hh⟩ := sendHb_half s b h
  let v := (s.sendHb b h).updHalf b h (fun f => { f with ref := some q, hbTb := tb, run := min 8 (f.run + 1) })
  have half : v.half b h = { (s.sendHb b h).half b h with ref := some q, hbTb := tb, run := min 8 (((s.sendHb b h).half b h).run + 1) } :=
    half_updHalf_same _ b h _
  have silent : (v.half b h).silent = true := by
    rw [half, hh]
    exact hs
  have valid := validHb_half silent
  have eight : decide (((v.validHb b h).half b h).run ≥ 8) = true := by
    rw [valid, half, hh]
    simp only [hn]
    decide
  have now : v.now = s.now := (updHalf_now _ b h _).trans (sendHb_now s b h)
  refine ⟨(v.validHb b h).resync b h, ?_, ?_⟩
  · rw [(heartbeat_judged ho).2]
    simp only [hr, hs, beq_self_eq_true, if_true, State.when, Bool.true_and]
    rw [if_pos eight]
    rfl
  · rw [resync_half]
    exact ⟨rfl, by rw [valid, half], rfl, by rw [valid, now], resync_sets _ b h⟩

/-- Settles O36. -/
theorem fieldSupplyAndSilence : Obligations.FieldSupplyAndSilence := by
  refine ⟨fun b h q tb s ho => ⟨?_, fun hr => ?_, fun hs hr => ?_, fun hs hr hn => ?_⟩, fun b h s hs hq ho => ⟨fun hd => ?_, silExpired_waits⟩,
    fun b h s ho => ⟨?_, ?_, ?_⟩, discardTest_counts, fun b els tps s hv => ?_, fun b h s => ?_⟩
  · exact (heartbeat_judged ho (q := q) (tb := tb)).1
  · rw [(heartbeat_judged ho).2]
    have apart : decide ((((s.sendHb b h).updHalf b h (fun f => { f with ref := some q, hbTb := tb, run := 0 })).half b h).run ≥ 8) = false := by
      rw [half_updHalf_same]
      rfl
    simp only [beq_eq_false_iff_ne.mpr hr, Bool.false_eq_true, if_false, State.when, apart, Bool.and_false]
  · rw [(heartbeat_judged ho).2]
    simp only [hr, hs, beq_self_eq_true, if_true, State.when, Bool.false_and, Bool.false_eq_true, if_false]
  · obtain ⟨u, run, silent, ref, buffered, last, evt⟩ := heartbeat_resyncs (tb := tb) ho hs hr hn
    rw [run]
    exact gives_settled ⟨by rw [settle_half, silent], by rw [settle_half, ref], by rw [settle_half, buffered], by rw [settle_half, last],
      by rw [settle_bank, evt]⟩
  · obtain ⟨u, run, silent, count, evt, codes⟩ := silExpired_expires hs hq ho hd
    rw [run]
    exact gives_settled ⟨by rw [settle_half, silent], by rw [settle_half, count], by rw [settle_bank, evt],
      fun i => settle_out_code (codes i) (by decide)⟩
  · have run : exec (.vfLow b h) s = doneSettled ((s.updHalf b h (fun f => { f with vfLow := true })).supplyFault b h 13) := if_neg (by rw [ho]; decide)
    have half : ((s.updHalf b h (fun f => { f with vfLow := true })).half b h).vfLow = true := by rw [half_updHalf_same]
    obtain ⟨same, rest⟩ := supplyFault_settles (c := 13) (by decide) (by decide) (by decide) (.inl half)
    rw [run]
    exact ⟨_, rfl, by rw [same, half], rest⟩
  · have run : exec (.vfHigh b h) s = doneSettled ((s.updHalf b h (fun f => { f with vfHigh := true })).supplyFault b h 14) := if_neg (by rw [ho]; decide)
    have half : ((s.updHalf b h (fun f => { f with vfHigh := true })).half b h).vfHigh = true := by rw [half_updHalf_same]
    obtain ⟨same, rest⟩ := supplyFault_settles (c := 14) (by decide) (by decide) (by decide) (.inr half)
    rw [run]
    exact ⟨_, rfl, by rw [same, half], rest⟩
  · exact if_neg (by rw [ho]; decide)
  · obtain ⟨vf, marks, outs, tps'⟩ := recovered_clears s b
    rw [vfRecovery_recovers els tps hv]
    exact gives_settled ⟨by rw [settle_bank, vf], fun h => by rw [settle_half]; exact marks h, fun i hc => settle_out_clear (outs i hc),
      fun j hc => by rw [settle_tp, tps' j hc]⟩
  · obtain ⟨u, run, out, codes, half, evt⟩ := halfBrownOut_leaves b h s
    rw [run]
    exact gives_settled ⟨settle_halfOut out, by rw [settle_half, half], fun hl hh => by rw [settle_bank, evt hl hh],
      fun i => settle_out_code (codes i) (by decide)⟩

end Sys2Proof.Laws
end

section
/-! Test-pulse sources (R156 to R159). -/

namespace Sys2Proof.Laws

open Sys2Proof Sys2Proof.Machine Sys2Proof.Safety

/-- What a reading of a source's ball leaves on the source, before it is judged (R159). -/
def ballRead (s : State) (t : Nat) (ball : Lvl) : State :=
  s.updTp t (fun r => { r with high := ball == Lvl.high, lowAt := if ball = .low && !s.tpOn t then some (r.lowAt.getD s.now) else none })

/-- A reading of a dip or too early in an off-pulse apart, a source's ball is judged by what the source is doing (R159). -/
theorem tpSourceReadback_judges {t : Fin 32} {x : TpReading} {s : State} (hd : s.dipped (t / 8) (sourceHalf t) = false)
    (he : (s.tp t).pulse = true → s.past (s.tp t).pulseAt ((s.tpRec t).tpw + 100 - us 5) = true) :
    ((s.tp t).pulse = true → exec (.tpSourceReadback t x) s = doneSettled ((ballRead s t x.ball).tpPulseRead t x.ball x.fallen)) ∧
    ((s.tp t).pulse = false → s.tpOn t = true →
      exec (.tpSourceReadback t x) s = doneSettled ((ballRead s t x.ball).tpOnRead t x.ball x.limiting)) := by
  have timely : ¬ (s.dipped (t / 8) (sourceHalf t) || ((s.tp t).pulse && !s.past (s.tp t).pulseAt ((s.tpRec t).tpw + 100 - us 5))) = true := by
    rw [hd]
    cases hp : (s.tp t).pulse with
    | false => simp
    | true => simp [he hp]
  constructor
  · intro hp
    show execTpSourceReadback t x s = _
    unfold execTpSourceReadback
    show (if _ then _ else if _ then _ else _) = _
    rw [if_neg timely, if_pos hp]
    rfl
  · intro hp ho
    show execTpSourceReadback t x s = _
    unfold execTpSourceReadback
    show (if _ then _ else if _ then _ else if _ then _ else _) = _
    rw [if_neg timely, if_neg (by rw [hp]; decide), if_pos ho]
    rfl

/-- Where a pulsed source's schedule runs, its off-pulse starts at its place or, silent, at once, and ends after TPW (R157, R177). -/
theorem tpSourceOffPulse_moves {t : Fin 32} {a : Nat} {s : State} (hm : (s.tpRec t).mode = 1)
    (ha : (s.half (t / 8) (sourceHalf t)).sched = some a) :
    ((s.tp t).pulse = false → exec (.tpSourceOffPulse t true) s =
      if (s.half (t / 8) (sourceHalf t)).silent || edgeDue (s.phaseOf (some a) (s.tpRec t).ofs (s.tpRec t).tpp) 0 then
        doneSettled (s.updTp t (fun r => { r with
          pulse := true, pulseAt := if (s.half (t / 8) (sourceHalf t)).silent then s.now
            else s.now - (s.phaseOf (some a) (s.tpRec t).ofs (s.tpRec t).tpp).getD 0 }))
      else doneSettled s) ∧
    ((s.tp t).pulse = true → exec (.tpSourceOffPulse t false) s =
      if s.past (s.tp t).pulseAt ((s.tpRec t).tpw + 100) then doneSettled (s.updTp t (fun r => { r with pulse := false }))
      else doneSettled s) := by
  constructor
  · intro hp
    show (if _ then _ else _) = _
    rw [if_neg (by rw [hm, ha, hp]; simp), ha]
    rfl
  · intro hp
    show (if _ then _ else _) = _
    rw [if_neg (by rw [hm, ha, hp]; simp)]
    rfl

theorem ballRead_tp (s : State) (t : Nat) (ball : Lvl) : ((ballRead s t ball).tp t).code = (s.tp t).code := by
  unfold ballRead
  rw [tp_updTp_same]

/-- A source without a code is judged by its ball while it is on (R159). -/
theorem tpOnRead_judges {s : State} {t : Nat} {ball : Lvl} {lim : Bool} (hc : (s.tp t).code = 0) :
    s.tpOnRead t ball lim = (s.updTp t (fun r => { r with limAt := if lim then some (r.limAt.getD s.now) else none })).when
      (ball != .high && !lim) (fun s => s.raiseTp t 2) := by
  unfold State.tpOnRead
  extract_lets u
  refine if_neg ?_
  simp only [u, tp_updTp_same, hc]
  decide

/-- The source on its way to another try (R156). -/
theorem tpSourceRetry_tries {t : Fin 32} {s : State} (good : Bool) (hc : (s.tp t).code = 3) (hw : (s.tp t).waiting = false) :
    ((s.tp t).retrying = true → exec (.tpSourceRetry t good) s =
      doneSettled ((s.updTp t (fun r => { r with retrying := false })).when good (fun s => s.clearTp t))) ∧
    ((s.tp t).retrying = false → s.past (s.tp t).retryAt (secs 1) = true → ∀ ok u,
      (s.updTp t (fun r => { r with retryAt := s.now })).request (t / 8 + 1) (siteSource t) s.tpCost = (ok, u) →
      exec (.tpSourceRetry t good) s = if ok then doneSettled ((u.updTp t (fun r => { r with retrying := false })).when good (fun s => s.clearTp t))
        else doneSettled (u.updTp t (fun r => { r with waiting := true }))) := by
  constructor
  · intro hr
    show execTpSourceRetry t good s = _
    unfold execTpSourceRetry
    simp only [hc, hw, hr]
    rfl
  · intro hr hp ok u hq
    show execTpSourceRetry t good s = _
    unfold execTpSourceRetry
    simp only [hc, hw, hr, hp, hq]
    rfl

/-- Settles O37. -/
theorem testPulseSources : Obligations.TestPulseSources := by
  refine ⟨fun t a ph s hm ha hph => ⟨fun hp hs hd => ?_, fun hp hs => ?_, fun hp hd => ?_⟩,
    fun t ball lim fallen s u hd hu => ⟨fun hp hw hb => ?_, fun hp ho hc => ⟨fun hb hl => ?_, fun hbl => ?_⟩⟩,
    fun t a s ho hl => ⟨fun hp => ?_, fun hp => ?_⟩, fun t s => ⟨?_, fun hc => ?_⟩, fun t code s hc => ⟨?_, ?_⟩,
    fun t s hc hw => ⟨fun hr hp good => ?_, fun u hr hp => ⟨fun hq => ?_, fun hq good => ?_⟩, fun hr => ⟨?_, ?_⟩⟩⟩
  · rw [(tpSourceOffPulse_moves hm ha).1 hp, hs, ← hph, hd]
    rfl
  · rw [(tpSourceOffPulse_moves hm ha).1 hp, hs]
    rfl
  · rw [(tpSourceOffPulse_moves hm ha).2 hp, hd]
    rfl
  · have code : u = ballRead s t ball := hu
    rw [(tpSourceReadback_judges hd (fun _ => hw)).1 hp, code]
    unfold State.tpPulseRead
    extract_lets r v
    have judged : v = (ballRead s t ball).raiseTp t 1 := if_pos hb
    rw [judged]
    rfl
  · have code : u = ballRead s t ball := hu
    rw [(tpSourceReadback_judges hd (by rw [hp]; exact fun h => nomatch h)).2 hp ho, code, tpOnRead_judges (ballRead_tp s t ball ▸ hc)]
    simp only [hl, bne_iff_ne.mpr hb]
    rfl
  · have code : u = ballRead s t ball := hu
    rw [(tpSourceReadback_judges hd (by rw [hp]; exact fun h => nomatch h)).2 hp ho, code, tpOnRead_judges (ballRead_tp s t ball ▸ hc)]
    have good : (ball != .high && !lim) = false := by rcases hbl with rfl | rfl <;> simp
    rw [good]
    rfl
  · show execTpOverload t s = _
    unfold execTpOverload
    rw [hl, ho]
    simp only [ms, hp]
    rfl
  · show execTpOverload t s = _
    unfold execTpOverload
    rw [hl, ho]
    simp only [ms, hp]
    rfl
  · rfl
  · exact if_pos hc
  · exact raiseTp_code s t 0 false false
  · rw [(raiseTp_taken 0 false false hc).tp, tp_updTp_same]
    rfl
  · show (if _ then _ else _) = _
    rw [if_pos (by simp [hr, hp])]
    rfl
  · rw [(tpSourceRetry_tries true hc hw).2 hr hp _ u hq]
    rfl
  · rw [(tpSourceRetry_tries good hc hw).2 hr hp _ u hq]
    rfl
  · rw [(tpSourceRetry_tries true hc hw).1 hr]
    rfl
  · rw [(tpSourceRetry_tries false hc hw).1 hr]
    rfl

end Sys2Proof.Laws
end

section
/-! What settling keeps of the events of the Lids and the system and of the Ladle's books; the Lids' latches (R192 to R202). -/

namespace Sys2Proof.Laws

open Sys2Proof Sys2Proof.Machine Sys2Proof.Safety

/-! ### What trips leave -/

/-- Ladle, field side and system registers are as before, and no event of the Lids or of the host interface is lost. -/
structure Tripped (s t : State) : Prop where
  ladle : t.ladle = s.ladle
  sys : t.sys = s.sys
  evt : ∀ i, bit s.lid.evt i = true → bit t.lid.evt i = true
  told : ∀ i, bit s.hif.evt i = true → bit t.hif.evt i = true

theorem Tripped.refl (s : State) : Tripped s s := ⟨rfl, rfl, fun _ h => h, fun _ h => h⟩

theorem Tripped.trans {s t u : State} (h : Tripped s t) (k : Tripped t u) : Tripped s u :=
  ⟨k.ladle.trans h.ladle, k.sys.trans h.sys, fun i b => k.evt i (h.evt i b), fun i b => k.told i (h.told i b)⟩

theorem tripped_when {s : State} {c : Bool} {f : State → State} (h : Tripped s (f s)) : Tripped s (s.when c f) := by
  cases c
  · exact Tripped.refl s
  · exact h

theorem tripped_each (n : Nat) (f : State → Nat → State) (h : ∀ s o, Tripped s (f s o)) (s : State) : Tripped s (s.each n f) := by
  unfold State.each
  generalize List.range n = l
  induction l generalizing s with
  | nil => exact Tripped.refl s
  | cons b l ih => exact (h s b).trans (ih _)

theorem bit_setBit_keeps {w : Nat} {v : BitVec w} {i : Nat} (o : Nat) (h : bit v i = true) : bit (setBit v o true) i = true := by
  rw [bit_setBit_true, h, Bool.true_or]

theorem bit_setBit_self {w : Nat} (v : BitVec w) {i : Nat} (h : i < w) : bit (setBit v i true) i = true := by
  rw [bit_setBit_true]
  simp [h]

theorem tripped_lidEvt (s : State) (i : Nat) : Tripped s (s.lidEvt i) := ⟨rfl, rfl, fun _ h => bit_setBit_keeps i h, fun _ h => h⟩

theorem tripped_lid (s : State) (l : LidS) (h : l.evt = s.lid.evt) : Tripped s { s with lid := l } := ⟨rfl, rfl, fun i b => by rw [h]; exact b, fun _ h => h⟩

theorem tripped_noteTrip (s : State) (o : Nat) (a d : Bool) : Tripped s (s.noteTrip o a d) := by
  unfold State.noteTrip
  extract_lets m c again t c' src u
  have h1 : Tripped s u := tripped_lid s _ rfl
  have h2 : Tripped u (u.mark (0x2860 + 4 * (o / 32)) (o % 32)) := ⟨rfl, rfl, fun _ h => h, fun _ h => h⟩
  exact (h1.trans h2).trans (tripped_lidEvt _ 2)

theorem hifEvt_keeps {s : State} {i : Nat} (n : Nat) (h : bit s.hif.evt i = true) : bit (s.hifEvt n).hif.evt i = true := by
  unfold State.hifEvt
  extract_lets was src t
  have set_ : bit t.hif.evt i = true := bit_setBit_keeps n h
  unfold State.when
  split
  · show bit (t.raise 0).hif.evt i = true
    rw [raise_frame]
    exact set_
  · exact set_

theorem record_keeps {s : State} {i : Nat} (a : RecArg) (h : bit s.hif.evt i = true) : bit (s.record a).hif.evt i = true := by
  unfold State.record
  extract_lets site r
  exact hifEvt_keeps 0 h

theorem tripped_record (s : State) (a : RecArg) : Tripped s (s.record a) :=
  ⟨by rw [record_frame], by rw [record_frame], fun i h => by rw [record_frame]; exact h, fun _ h => record_keeps a h⟩

theorem tripped_lidFaulty (s : State) (x : AB) : Tripped s (s.lidFaulty x) := by
  unfold State.lidFaulty
  extract_lets left t lid src u
  have h1 : Tripped s t := by
    show Tripped s (if _ then _ else _)
    split
    · exact Tripped.refl s
    · exact tripped_each _ _ (fun s o => tripped_when (tripped_noteTrip s o _ _)) s
  have h2 : Tripped t u := by cases x <;> exact ⟨rfl, rfl, fun _ h => h, fun _ h => h⟩
  exact (h1.trans h2).trans (tripped_record u _)

theorem tripped_disagree (s : State) (o : Nat) : Tripped s (s.disagree o) := by
  unfold State.disagree
  extract_lets w c recent lid src t u v
  have h1 : Tripped s t := (tripped_lid s src rfl).trans (tripped_lidEvt { s with lid := src } 0)
  have h2 : Tripped t u := tripped_when (tripped_noteTrip t _ _ _)
  have h3 : Tripped u v := tripped_record u _
  exact ((h1.trans h2).trans h3).trans (tripped_when ((tripped_lidFaulty _ _).trans (tripped_lidFaulty _ _)))

theorem tripped_lidTick (s : State) : Tripped s s.lidTick := by
  unfold State.lidTick
  extract_lets permA permB hitA hitB l one armA relA armB relB leftA leftB t u dis
  have h1 : Tripped s t := tripped_lid s _ rfl
  have h2 : Tripped t u := by
    show Tripped t (if _ then _ else _)
    split
    · exact Tripped.refl t
    · exact tripped_each _ _ (fun s o => tripped_when (tripped_noteTrip s o _ _)) t
  refine (h1.trans h2).trans ?_
  split
  · exact Tripped.refl u
  · exact tripped_each _ _ (fun s o => tripped_when (tripped_disagree s o)) u

/-! ### Settling keeps events -/

theorem settle_trips (s : State) : ∃ u : State, s.settle = u.obeyAll.pins ∧ Tripped s u := by
  unfold State.settle
  split
  · exact ⟨_, rfl, tripped_lidTick s⟩
  · exact ⟨_, rfl, Tripped.refl s⟩

theorem pins_sys_evt {s : State} {i : Nat} (h : bit s.sys.evt i = true) : bit s.pins.sys.evt i = true := by
  unfold State.pins
  extract_lets ok f src t u
  have h1 : bit u.sys.evt i = true := by
    simp only [u, State.when]
    split
    · exact bit_setBit_keeps 0 h
    · exact h
  unfold State.when
  split
  · exact bit_setBit_keeps 1 h1
  · exact h1

/-- An event of the system registers stays as the state settles. -/
theorem settle_sys_evt {s : State} {i : Nat} (h : bit s.sys.evt i = true) : bit s.settle.sys.evt i = true := by
  obtain ⟨u, hu, ht⟩ := settle_trips s
  obtain ⟨l, ho⟩ := obeyAll_frame u
  rw [hu]
  refine pins_sys_evt ?_
  rw [ho]
  show bit u.sys.evt i = true
  rw [ht.sys, h]

/-- An event of the Lids stays as the state settles. -/
theorem settle_lid_evt {s : State} {i : Nat} (h : bit s.lid.evt i = true) : bit s.settle.lid.evt i = true := by
  obtain ⟨u, hu, ht⟩ := settle_trips s
  rw [hu, pins_lid, obeyAll_lid]
  exact ht.evt i h

/-- An event of the host interface stays as the state settles. -/
theorem settle_hif_evt {s : State} {i : Nat} (h : bit s.hif.evt i = true) : bit s.settle.hif.evt i = true := by
  obtain ⟨u, hu, ht⟩ := settle_trips s
  obtain ⟨l, ho⟩ := obeyAll_frame u
  rw [hu, pins_frame, ho]
  exact ht.told i h

theorem settle_ladle (s : State) : s.settle.ladle = { s.ladle with vf := s.settle.ladle.vf } := by
  obtain ⟨u, hu, hf, _⟩ := settle_passes s
  have all : Fabric s s.settle := by
    rw [hu]
    exact (hf.trans (fabric_obeyAll u)).trans (fabric_pins _)
  rw [all]

/-! ### The Lids -/

theorem nextArmed_bit (arm rel permit hit : BitVec 64) {o : Nat} (h : o < 64) :
    bit (nextArmed arm rel permit hit) o = ((bit arm o || bit rel o && bit permit o) && !bit hit o) := by
  unfold nextArmed bit
  simp [h]

theorem nextReleasable_bit (arm permit hit : BitVec 64) {o : Nat} (h : o < 64) :
    bit (nextReleasable arm permit hit) o = (!bit arm o && !bit permit o && !bit hit o) := by
  unfold nextReleasable bit
  simp [h]

/-- A faulty Lid's latches, with none ARMED or RELEASABLE, stay so as the state settles (R196). -/
theorem settle_latches {s : State} :
    (s.lid.faultA = true → s.lid.armA = 0 → s.lid.relA = 0 → s.settle.lid.armA = 0 ∧ s.settle.lid.relA = 0) ∧
    (s.lid.faultB = true → s.lid.armB = 0 → s.lid.relB = 0 → s.settle.lid.armB = 0 ∧ s.settle.lid.relB = 0) := by
  have grown := grows_settle s
  unfold State.settle at grown ⊢
  split
  next up =>
    rw [if_pos up, Grows, pins_lid, obeyAll_lid] at grown
    obtain ⟨_, growA, growB⟩ := grown
    obtain ⟨_, _, _, _, downA, downB⟩ := latchesSound_lidTick s
    rw [pins_lid, obeyAll_lid]
    exact ⟨fun h _ _ => downA (growA h), fun h _ _ => downB (growB h)⟩
  next =>
    rw [pins_lid, obeyAll_lid]
    exact ⟨fun _ a r => ⟨a, r⟩, fun _ a r => ⟨a, r⟩⟩

theorem settle_unsafe {s : State} (h : s.lid.faultA = true ∨ s.lid.faultB = true) : s.settle.sys.safeOk = false := by
  obtain ⟨_, growA, growB⟩ := grows_settle s
  rw [(pinsFollow_settle s).1]
  unfold State.safeOkNow
  rcases h with h | h
  · simp [growA h]
  · simp [growB h]

theorem lidFaulty_latches (s : State) : ((s.lidFaulty .a).lid.faultA = true ∧ (s.lidFaulty .a).lid.armA = 0 ∧ (s.lidFaulty .a).lid.relA = 0) ∧
    (s.lidFaulty .b).lid.faultB = true ∧ (s.lidFaulty .b).lid.armB = 0 ∧ (s.lidFaulty .b).lid.relB = 0 := by
  have keeps : ∀ (u : State) (a : RecArg), (u.record a).lid = u.lid := fun u a => by rw [record_frame]
  unfold State.lidFaulty
  constructor
  · rw [keeps]
    exact ⟨rfl, rfl, rfl⟩
  · rw [keeps]
    exact ⟨rfl, rfl, rfl⟩

/-- A mask that fails its check makes its Lid faulty, whose latches have then fallen where it was sound (R201, R202). -/
theorem lidMaskCheck_faults (o : Fin 64) (s : State) :
    (∃ u : State, exec (.lidMaskCheck .a o) s = doneSettled u ∧ u.lid.faultA = true ∧ bit u.lid.evt 1 = true ∧
      (s.lid.faultA = false → u.lid.armA = 0 ∧ u.lid.relA = 0)) ∧
    ∃ u : State, exec (.lidMaskCheck .b o) s = doneSettled u ∧ u.lid.faultB = true ∧ bit u.lid.evt 1 = true ∧
      (s.lid.faultB = false → u.lid.armB = 0 ∧ u.lid.relB = 0) := by
  have noted : ∀ a : RecArg, ((s.lidEvt 1).record a).lid = { s.lid with evt := setBit s.lid.evt 1 true } := fun a => by
    rw [record_frame]
    rfl
  have shown : ∀ a : RecArg, bit ((s.lidEvt 1).record a).lid.evt 1 = true := fun a => by
    rw [noted a]
    exact bit_setBit_self _ (by decide)
  constructor
  · refine ⟨_, rfl, ?_⟩
    generalize hv : (s.lidEvt 1).record _ = v
    have vlid := hv ▸ noted _
    have vevt := hv ▸ shown _
    cases hf : v.lid.faultA with
    | true =>
      have was : s.lid.faultA = true := by rw [vlid] at hf; exact hf
      exact ⟨hf, vevt, fun h => absurd (was.symm.trans h) (by decide)⟩
    | false =>
      obtain ⟨fault, arm, rel⟩ := (lidFaulty_latches v).1
      exact ⟨fault, (tripped_lidFaulty v .a).evt 1 vevt, fun _ => ⟨arm, rel⟩⟩
  · refine ⟨_, rfl, ?_⟩
    generalize hv : (s.lidEvt 1).record _ = v
    have vlid := hv ▸ noted _
    have vevt := hv ▸ shown _
    cases hf : v.lid.faultB with
    | true =>
      have was : s.lid.faultB = true := by rw [vlid] at hf; exact hf
      exact ⟨hf, vevt, fun h => absurd (was.symm.trans h) (by decide)⟩
    | false =>
      obtain ⟨fault, arm, rel⟩ := (lidFaulty_latches v).2
      exact ⟨fault, (tripped_lidFaulty v .b).evt 1 vevt, fun _ => ⟨arm, rel⟩⟩

/-- Settles O40. -/
theorem lidLatchesAndMasks : Obligations.LidLatchesAndMasks := by
  refine ⟨fun arm rel permit hit o h => ⟨nextArmed_bit arm rel permit hit h, nextReleasable_bit arm permit hit h⟩, fun o s => ⟨?_, ?_⟩⟩
  · obtain ⟨u, run, fault, evt, fell⟩ := (lidMaskCheck_faults o s).1
    rw [run]
    refine gives_settled ⟨(grows_settle u).2.1 fault, settle_lid_evt evt, settle_unsafe (.inl fault), fun hf => ?_⟩
    exact settle_latches.1 fault (fell hf).1 (fell hf).2
  · obtain ⟨u, run, fault, evt, fell⟩ := (lidMaskCheck_faults o s).2
    rw [run]
    refine gives_settled ⟨(grows_settle u).2.2 fault, settle_lid_evt evt, settle_unsafe (.inr fault), fun hf => ?_⟩
    exact settle_latches.2 fault (fell hf).1 (fell hf).2

end Sys2Proof.Laws
end

section
/-! The Ladle: what grants, returns, refill and the audit do, and that they keep the books (R453 to R462). -/

namespace Sys2Proof.Laws

open Sys2Proof Sys2Proof.Machine Sys2Proof.Safety

/-! ### Buckets -/

theorem bucket_setBucket_other (s : State) {d e : Nat} (b : Bucket) (h : e ≠ d) : (s.setBucket d b).bucket e = s.bucket e := by
  unfold State.bucket State.setBucket
  by_cases hd : d = 0
  · rw [if_pos hd, if_neg (fun he => h (he.trans hd.symm)), if_neg (fun he => h (he.trans hd.symm))]
  · rw [if_neg hd]
    by_cases he : e = 0
    · rw [if_pos he, if_pos he]
    · rw [if_neg he, if_neg he]
      exact get_put _ _ _ _ _ |>.trans (if_neg (by omega))

theorem bucket_of_ladle {s t : State} (h : t.ladle.vsys = s.ladle.vsys) (hv : t.ladle.vf = s.ladle.vf) (d : Nat) : t.bucket d = s.bucket d := by
  unfold State.bucket
  rw [h, hv]

/-- The books of every domain balance (R453). -/
def Balanced (s : State) : Prop := ∀ d, (s.bucket d).balanced = true

theorem balanced_iff (b : Bucket) : b.balanced = true ↔ b.level + b.held + b.spent = b.size := decide_eq_true_iff

theorem balanced_same {s t : State} (h : t.ladle.vsys = s.ladle.vsys) (hv : t.ladle.vf = s.ladle.vf) (k : Balanced s) : Balanced t :=
  fun d => by rw [bucket_of_ladle h hv]; exact k d

theorem balanced_setBucket {s : State} {d : Nat} {b : Bucket} (h : Balanced s) (hb : b.balanced = true) : Balanced (s.setBucket d b) := by
  intro e
  by_cases he : e = d
  · rw [he, bucket_setBucket, hb]
  · rw [bucket_setBucket_other s b he]
    exact h e

theorem balanced_when {s : State} {c : Bool} {f : State → State} (h : Balanced s) (hf : Balanced (f s)) : Balanced (s.when c f) := by
  cases c
  · exact h
  · exact hf

theorem balanced_grant {b : Bucket} (t : Tok) (h : b.balanced = true) : (b.grant t).balanced = true := by
  rw [balanced_iff] at h ⊢
  simp only [Bucket.grant]
  push_cast
  omega

theorem balanced_giveBack {b : Bucket} (site : Nat) (h : b.balanced = true) : (b.giveBack site).balanced = true := by
  unfold Bucket.giveBack
  split
  · exact h
  next t _ =>
    split
    next covered =>
      rw [balanced_iff] at h ⊢
      simp only [Nat.cast_add, Nat.cast_sub covered]
      omega
    · exact h

theorem balanced_refill {b : Bucket} (h : b.balanced = true) : b.refill.balanced = true := by
  unfold Bucket.refill
  split
  · exact h
  next some_ =>
    rw [balanced_iff] at h ⊢
    have spent : 1 ≤ b.spent := by omega
    simp only [Nat.cast_sub spent]
    omega

theorem balanced_rebuild (b : Bucket) (n : Nat) : (b.rebuild n).balanced = true := by
  rw [balanced_iff]
  simp only [Bucket.rebuild]
  push_cast
  omega

theorem balanced_configure {b : Bucket} (size rate : Nat) (h : b.balanced = true) : (b.configure size rate).balanced = true := by
  rw [balanced_iff] at h ⊢
  simp only [Bucket.configure]
  omega

/-! ### Settling keeps the books -/

theorem balanced_ladleOff {s : State} (o : Nat) (x : AB) (w : Element) (h : Balanced s) : Balanced (s.ladleOff o x w) := by
  unfold State.ladleOff
  extract_lets site d t
  have ht : Balanced t := balanced_when h (balanced_setBucket h (h d))
  exact balanced_when ht (balanced_setBucket ht (balanced_giveBack site (ht d)))

theorem balanced_obeyAll {s : State} (h : Balanced s) : Balanced s.obeyAll := by
  unfold State.obeyAll
  extract_lets t
  refine List.foldlRecOn (motive := Balanced) s.outs _ (balanced_same (t := t) rfl rfl h) fun u hu e _ => ?_
  have first := balanced_when (c := !(s.stays e.1 .a) && (e.2.a.on || e.2.a.waiting)) (f := fun t => t.ladleOff e.1 .a e.2.a) hu
    (balanced_ladleOff e.1 .a e.2.a hu)
  exact balanced_when first (balanced_ladleOff e.1 .b e.2.b first)

theorem balanced_settle {s : State} (h : Balanced s) : Balanced s.settle := by
  obtain ⟨u, hu, ht⟩ := settle_trips s
  have kept : Balanced u := balanced_same (by rw [ht.ladle]) (by rw [ht.ladle]) h
  rw [hu]
  exact balanced_same (by rw [pins_frame]) (by rw [pins_frame]) (balanced_obeyAll kept)

/-! ### Grants -/

/-- What a grant starts leaves the Ladle. -/
theorem granted_ladle (s : State) (site : Nat) : (s.granted site).ladle = s.ladle := by
  unfold State.granted
  split
  · unfold State.when
    split <;> rfl
  all_goals rfl

theorem grantFirst_first {s : State} {d : Nat} {k : Tok} {rest : List Tok} (h : (s.bucket d).queue = k :: rest) :
    s.grantFirst d = (s.setBucket d ({ s.bucket d with queue := rest }.grant { k with at_ := s.now })).granted k.site := by
  unfold State.grantFirst
  rw [h]

theorem balanced_grantFirst {s : State} (d : Nat) (h : Balanced s) : Balanced (s.grantFirst d) := by
  unfold State.grantFirst
  split
  · exact h
  next k rest _ =>
    have booked : Balanced (s.setBucket d ({ s.bucket d with queue := rest }.grant { k with at_ := s.now })) :=
      balanced_setBucket h (balanced_grant (b := { s.bucket d with queue := rest }) _ (h d))
    exact balanced_same (by rw [granted_ladle]) (by rw [granted_ladle]) booked

theorem record_ladle (s : State) (a : RecArg) : (s.record a).ladle = s.ladle := by rw [record_frame]

theorem balanced_record {s : State} (a : RecArg) (h : Balanced s) : Balanced (s.record a) :=
  balanced_same (by rw [record_ladle]) (by rw [record_ladle]) h

theorem balanced_ladleEvt {s : State} (i : Nat) (h : Balanced s) : Balanced (s.ladleEvt i) := balanced_same rfl rfl h

theorem balanced_writeLadleCfg {s : State} (d : Nat) (v : Word) (h : Balanced s) : Balanced (s.writeLadleCfg d v) := by
  unfold State.writeLadleCfg State.lockedWrite
  extract_lets size rate
  split
  · exact balanced_same rfl rfl h
  · split
    · exact balanced_same rfl rfl h
    · exact balanced_setBucket h (balanced_configure size rate (h d))

/-- An overdraw counted (R458). -/
def overdrawn (s : State) : State := { s with ladle := { s.ladle with overN := satInc s.ladle.overN } }

/-- Settles O39. -/
theorem ladleBooksBalance : Obligations.LadleBooksBalance := by
  intro c s t hc hb run
  have ends : ∀ {u : State}, Balanced u → doneSettled u = .next t → Balanced t := fun hu e => by
    cases e
    exact balanced_settle hu
  have stays : Host.Outcome.next s = (.next t : Host.Outcome State Fault Refusal) → Balanced t := fun e => by
    cases e
    exact hb
  rcases hc with ⟨d, rfl⟩ | ⟨d, rfl⟩ | ⟨d, site, rfl⟩ | ⟨d, rfl⟩ | ⟨b, ra, rb, fa, fb, ba, bb, rfl⟩ | ⟨d, v, rfl⟩
  · change execLadleGrant d s = _ at run
    unfold execLadleGrant at run
    split at run
    · exact stays run
    · split at run
      · exact ends (balanced_grantFirst d hb) run
      · exact stays run
  · change execLadleOverdraw d s = _ at run
    unfold execLadleOverdraw at run
    split at run
    · exact stays run
    · split at run
      · split at run
        · exact ends (balanced_grantFirst d hb) run
        · exact ends (balanced_ladleEvt 0 (balanced_same (t := overdrawn (s.grantFirst d)) rfl rfl (balanced_grantFirst d hb))) run
      · exact stays run
  · change execLadleReturn d site s = _ at run
    unfold execLadleReturn at run
    split at run
    · exact ends (balanced_setBucket hb (balanced_giveBack site.toNat (hb d))) run
    · exact stays run
  · exact ends (balanced_setBucket hb (balanced_refill (hb d))) run
  · change execLadleAudit b ra rb fa fb ba bb s = _ at run
    unfold execLadleAudit at run
    extract_lets e okA okB u at run
    split at run
    · exact stays run
    · have noted : Balanced u := balanced_record _ (balanced_ladleEvt 1 hb)
      exact ends (balanced_setBucket noted (balanced_rebuild _ _)) run
  · exact ends (balanced_writeLadleCfg d v (balanced_same (by rw [told_hostWrite s]) (by rw [told_hostWrite s]) hb)) run

/-- A turn-on that has waited out its time with too little left is granted and counted (R458). -/
theorem ladleOverdraw_overdraws {d : Fin 5} {k : Tok} {rest : List Tok} {s : State} (hq : (s.bucket d).queue = k :: rest) (hd : d ≠ 0)
    (hl : (s.bucket d).level < k.cost) (hp : s.past k.at_ 50000 = true) :
    exec (.ladleOverdraw d) s = doneSettled ((overdrawn (s.grantFirst d)).ladleEvt 0) := by
  show execLadleOverdraw d s = _
  unfold execLadleOverdraw
  rw [hq]
  show (if _ then if _ then _ else _ else _) = _
  rw [if_pos ⟨fun h => hd (Fin.ext h), hp⟩, if_neg (by omega)]
  rfl

theorem setBucket_overN (s : State) (d : Nat) (b : Bucket) : (s.setBucket d b).ladle.overN = s.ladle.overN := by
  unfold State.setBucket
  split <;> rfl

theorem setBucket_evt (s : State) (d : Nat) (b : Bucket) : (s.setBucket d b).ladle.evt = s.ladle.evt := by
  unfold State.setBucket
  split <;> rfl

theorem grantFirst_overN (s : State) (d : Nat) : (s.grantFirst d).ladle.overN = s.ladle.overN := by
  unfold State.grantFirst
  split
  · rfl
  · rw [granted_ladle, setBucket_overN]

theorem writeLadleCfg_open {s : State} {d : Nat} {v : Word} (hl : s.sys.lock = false) (h0 : fld v 15 0 ≠ 0) (hm : fld v 15 0 ≤ 32767)
    (hr : fld v 31 16 ≠ 0) : s.writeLadleCfg d v = s.setBucket d ((s.bucket d).configure (fld v 15 0) (fld v 31 16)) := by
  unfold State.writeLadleCfg State.lockedWrite
  extract_lets size rate
  rw [hl, if_neg (by decide)]
  exact if_neg (by simp only [size, rate]; omega)

theorem hostWrite_sys (s : State) : s.hostWrite.sys = s.sys := by rw [told_hostWrite s]
theorem hostWrite_ladle (s : State) : s.hostWrite.ladle = s.ladle := by rw [told_hostWrite s]

/-- The Ladle's figures that no settling touches. -/
theorem settle_ladle_figures (s : State) : s.settle.ladle.vsys = s.ladle.vsys ∧ s.settle.ladle.evt = s.ladle.evt ∧
    s.settle.ladle.overN = s.ladle.overN := by
  rw [settle_ladle]
  exact ⟨rfl, rfl, rfl⟩

/-- Settles O38. -/
theorem ladleMovesTokens : Obligations.LadleMovesTokens := by
  refine ⟨fun d k rest s hq => ⟨fun hl => ?_, fun hl => ?_, fun hd hl hp => ?_⟩, fun d site s h => if_pos h, fun d s => rfl, fun b hs ha => ?_,
    fun b ra rb fa fb ba bb s => ⟨fun hA hB => ?_, fun hA => ?_⟩, fun d v s hl h0 hm hr => ?_, fun d v s hl => ?_⟩
  · show execLadleGrant d s = _
    unfold execLadleGrant
    rw [hq]
    show (if _ then _ else _) = _
    rw [if_pos hl, grantFirst_first hq]
    rfl
  · show execLadleGrant d s = _
    unfold execLadleGrant
    rw [hq]
    exact if_neg (by omega)
  · rw [ladleOverdraw_overdraws hq hd hl hp]
    obtain ⟨_, evt, overN⟩ := settle_ladle_figures ((overdrawn (s.grantFirst d)).ladleEvt 0)
    refine gives_settled ⟨?_, ?_⟩
    · rw [overN, ← grantFirst_overN s d]
      rfl
    · rw [evt]
      exact bit_setBit_self _ (by decide)
  · have some_ : ¬ (b.spent = 0 ∨ b.acc < 64000) := by omega
    have left_ : ¬ (b.spent - 1 = 0) := by omega
    simp only [Bucket.refill, if_neg some_, if_neg left_]
  · show (if _ then _ else _) = _
    exact if_pos (by simp [hA, hB])
  · show Gives (if _ then _ else _) _
    rw [if_neg (by simp [hA])]
    refine gives_settled ?_
    generalize hu : (s.ladleEvt 1).record _ = u
    have same : u.ladle = (s.ladleEvt 1).ladle := by rw [← hu, record_ladle]
    obtain ⟨vsys, evt, _⟩ := settle_ladle_figures (u.setBucket (b + 1)
      ((u.bucket (b + 1)).rebuild (ra.toNat + rb.toNat + fa.toNat + fb.toNat)))
    refine ⟨?_, ?_⟩
    · rw [evt, setBucket_evt, same]
      exact bit_setBit_self _ (by decide)
    · rw [vsys]
      show u.ladle.vsys = s.ladle.vsys
      rw [same]
      rfl
  · show doneSettled (s.hostWrite.writeLadleCfg d v) = _
    rw [writeLadleCfg_open (by rw [hostWrite_sys, hl]) h0 hm hr]
    rfl
  · have refused : s.hostWrite.writeLadleCfg d v = s.hostWrite.sysEvt 3 := by
      unfold State.writeLadleCfg State.lockedWrite
      exact if_pos (by rw [hostWrite_sys, hl])
    show Gives (doneSettled (s.hostWrite.writeLadleCfg d v)) _
    rw [refused]
    obtain ⟨vsys, _, _⟩ := settle_ladle_figures (s.hostWrite.sysEvt 3)
    refine gives_settled ⟨settle_sys_evt (bit_setBit_self _ (by decide)), ?_⟩
    rw [vsys, ← hostWrite_ladle s]
    rfl

end Sys2Proof.Laws
end

section
/-! Releases, renewal and the degraded-mode timer (R60 to R65, R265, R285 to R292). -/

namespace Sys2Proof.Laws

open Sys2Proof Sys2Proof.Machine Sys2Proof.Safety

/-! ### Releases -/

theorem cellRelease_runs {c : Fin 1024} {v : CellImg} {s : State} (hp : s.pwr.phase = .service) (hc : s.coreUp = true)
    (hr : (s.cell c).st = .running) (hv : (s.cell c).ver = some v) (hn : (s.cell c).nver = none) :
    exec (.cellRelease c) s = doneSettled (s.when (s.releaseDue v (s.cell c).relAt)
      (fun s' => s'.releaseOn c v false (s.cell c).eng (s.cell c).onP (s.cell c).slot (s.cell c).cblk)) := by
  show (if _ then _ else _) = _
  rw [if_pos ⟨hp, hc, .inl hr⟩]
  unfold State.release
  extract_lets x
  rw [show x.ver = some v from hv]
  show doneSettled (match x.nver with | some _ => _ | none => _) = _
  rw [show x.nver = none from hn]

theorem when_no {s : State} {c : Bool} {f : State → State} (h : c = false) : s.when c f = s := by
  rw [h]
  rfl

theorem plant_latchWindows (s : State) (c : Nat) : Plant s (s.latchWindows c) :=
  plant_each _ _ (fun s i => plant_when (plant_updEnc s i _)) s

theorem plant_cell {s t : State} (h : Plant s t) (c : Nat) : t.cell c = s.cell c := by
  unfold State.cell
  rw [h]

/-- A cell without groups has no stop to serve. -/
theorem stopService_idle {s : State} {c : Nat} (h : s.groupsOf c = []) : s.stopService c false = s := by
  unfold State.stopService
  extract_lets cfg u w
  have none_ : u.groupsOf c = [] := h
  have still : w = s := by
    simp only [w, none_]
    rfl
  show ({ w with cfg := cfg } : State) = s
  rw [still]

theorem fillImage_engs (s : State) (c : Nat) (v : CellImg) (first hand : Bool) : (s.fillImage c v first hand).engs = s.engs := by
  unfold State.fillImage
  extract_lets pi t
  exact List.foldlRecOn (motive := fun u : State => u.engs = s.engs) v.conns _ rfl fun u hu n _ => hu

/-- A running cell without groups, released: its engine's state up to the dispatch is as before. -/
theorem releaseOn_dispatches {c : Nat} {v : CellImg} {e slot blk : Nat} {onP : Bool} {s : State} (hr : (s.cell c).st = .running)
    (he : (s.cell c).expd = false) (hf : (s.cell c).first = false) (hg : s.groupsOf c = []) (hc : s.canRelease e onP = true) :
    ∃ u : State, u.engs = s.engs ∧ s.releaseOn c v false e onP slot blk =
      u.updBoth e (fun y => y.dispatch c v false slot blk (if u.diverged e then y.whisk else whiskSeed)) := by
  unfold State.releaseOn
  rw [hc]
  extract_lets x first t w y z a b st u apart
  have hw : Plant t w := plant_latchWindows t c
  have hy : y = w := when_no (by simp [first, x, hf])
  have hz : z = w := (when_no (by simp [x, hr])).trans hy
  have ha : a = w := (when_no (by simp [x, he])).trans hz
  have groups : a.groupsOf c = [] := by
    rw [ha]
    unfold State.groupsOf
    rw [hw.cfg]
    exact hg
  have hb : b = w := (stopService_idle groups).trans ha
  have alive : (b.cell c).expd = false := by
    rw [hb, plant_cell hw, cell_updCell_same]
    exact he
  rw [if_neg (by decide), if_neg (by rw [alive, Bool.false_and]; decide)]
  refine ⟨u, ?_, rfl⟩
  show (b.fillImage c v first (b.inHandCycle c)).engs = s.engs
  rw [fillImage_engs, hb, hw]
  rfl

theorem updBoth_lead {u : State} {e : Nat} (f : Engine → Engine) :
    ((f (u.eng e)).role ≠ .leader → (u.updBoth e f).eng e = f (u.eng e)) ∧
    ((f (u.eng e)).role = .leader → (u.updBoth e f).eng e = f (u.eng e) ∧ (u.updBoth e f).eng (e + 1) = f (u.eng (e + 1))) := by
  unfold State.updBoth
  extract_lets v
  have own : v.eng e = f (u.eng e) := eng_updEng_same u e f
  constructor
  · intro h
    rw [own, when_no (by simp [h]), own]
  · intro h
    rw [own, h]
    show (v.updEng (e + 1) f).eng e = _ ∧ (v.updEng (e + 1) f).eng (e + 1) = _
    rw [eng_updEng, if_neg (by omega), own, eng_updEng_same, eng_updEng, if_neg (by omega)]
    exact ⟨rfl, rfl⟩

theorem dispatch_role (x : Engine) (c : Nat) (v : CellImg) (newV : Bool) (slot cblk : Nat) (w : Word) :
    (x.dispatch c v newV slot cblk w).role = x.role := by
  unfold Engine.dispatch Engine.fold
  extract_lets entry y
  show (if _ then _ else _ : Engine).role = _
  split <;> rfl

theorem dispatch_sets (x : Engine) (c slot blk : Nat) (v : CellImg) (nv : Bool) (w : Word) :
    (x.dispatch c v nv slot blk w).cellM = true ∧ (x.dispatch c v nv slot blk w).cell = some c ∧
    (x.dispatch c v nv slot blk w).pc = BitVec.ofNat 32 (1024 * blk + 4 * v.entry) ∧
    (x.dispatch c v nv slot blk w).ctag = slotTag slot ∧ (x.dispatch c v nv slot blk w).wd = v.dw 2 &&& 0xFFFFFFFC#32 ∧
    (x.dispatch c v nv slot blk w).hnd = false ∧ (x.dispatch c v nv slot blk w).mp = 0 ∧
    (x.dispatch c v nv slot blk w).g = x.g ∧ (x.dispatch c v nv slot blk w).k = x.k := by
  have budget : ((v.budget : Nat) : Word) = v.dw 2 := by
    unfold CellImg.budget
    exact (BitVec.ofNat_toNat 32 (v.dw 2)).trans (BitVec.setWidth_eq _)
  unfold Engine.dispatch Engine.fold
  rw [budget]
  extract_lets entry y
  split
  all_goals exact ⟨rfl, rfl, rfl, rfl, rfl, rfl, rfl, rfl, rfl⟩

/-! ### Renewal and the degraded-mode timer -/

theorem cellRec_perm (s : State) (code c : Nat) (d6 d7 : Word) : (s.cellRec code c d6 d7).perm = s.perm := record_perm _ _

theorem cellRec_cell (s : State) (code c n : Nat) (d6 d7 : Word) : (s.cellRec code c d6 d7).cell n = s.cell n := by
  unfold State.cell State.cellRec
  rw [record_frame]

theorem cellRec_engs (s : State) (code c : Nat) (d6 d7 : Word) : (s.cellRec code c d6 d7).engs = s.engs := record_engs _ _

theorem slots_updSlot (s : State) (o i n : Nat) (f : Slot → Slot) :
    Tab.get {} (s.updSlot o i f).perm.slots n = if n = 4 * o + i then f (s.slot o i) else Tab.get {} s.perm.slots n := by
  simp only [State.updSlot, State.mapSlots, Permits.updSlots, State.slot, get_upd]

theorem permitRenewalExpiry_clears {n : Fin 256} {c : Nat} {v : CellImg} {s : State} (hc : (Tab.get {} s.perm.slots n).cell = some c)
    (hv : (s.cell c).ver = some v) (hu : (Tab.get {} s.perm.slots n).use0 = true) (hp : (Tab.get {} s.perm.slots n).p0 = true) :
    exec (.permitRenewalExpiry n false) s =
      if 2 * v.cycle + 5000 ≤ s.since (Tab.get {} s.perm.slots n).t0 then
        doneSettled (((s.updSlot (n / 4) (n % 4) (fun x => { x with p0 := false, p1 := x.p1 && !x.follow })).cellRec 6 c
          (BitVec.ofNat 32 (n / 4)) 0).cellEvt 7)
      else .next s := by
  show execPermitRenewalExpiry n false s = _
  unfold execPermitRenewalExpiry
  simp only [hc, hv, hu, hp, Bool.false_eq_true, if_false, Bool.true_and, ge_iff_le, decide_eq_true_eq]

theorem degr50_reports {c : Fin 1024} {d lim : Nat} {s : State} (ht : s.degrTime c = some (d, lim)) (hd : (s.cell c).degraded = true)
    (hl : lim ≤ 2 * d) (hr : (s.cell c).r50 = false) :
    exec (.degr50 c) s = doneSettled ((s.updCell c (fun x => { x with r50 := true })).cellRec 2 c (s.cell c).kinds) := by
  show execDegr50 c s = _
  unfold execDegr50
  rw [ht]
  exact if_pos (by simp [hd, hr, hl])

theorem degr90_reports {c : Fin 1024} {d lim : Nat} {s : State} (ht : s.degrTime c = some (d, lim)) (hd : (s.cell c).degraded = true)
    (hl : 9 * lim ≤ 10 * d) (hr : (s.cell c).r90 = false) :
    exec (.degr90 c) s = doneSettled ((s.updCell c (fun x => { x with r90 := true })).cellRec 3 c (s.cell c).kinds) := by
  show execDegr90 c s = _
  unfold execDegr90
  rw [ht]
  exact if_pos (by simp [hd, hr, hl])

theorem degrExpiry_expires {c : Fin 1024} {d lim : Nat} {s : State} (ht : s.degrTime c = some (d, lim)) (hd : (s.cell c).degraded = true)
    (hl : lim ≤ d) (hs : (s.cell c).st = .running) (he : (s.cell c).expd = false) (hh : s.handingOver c = false) :
    exec (.degrExpiry c) s = doneSettled ((s.cellRec 5 c (s.cell c).kinds).updCell c (fun x => { x with expd := true })) := by
  have still : (s.cellRec 5 c (s.cell c).kinds).dropNew c = s.cellRec 5 c (s.cell c).kinds := by
    have same : (s.cellRec 5 c (s.cell c).kinds).handingOver c = s.handingOver c := by
      unfold State.handingOver State.cellRec
      rw [record_frame]
    unfold State.dropNew
    exact if_pos (by rw [same, hh]; rfl)
  show execDegrExpiry c s = _
  unfold execDegrExpiry
  rw [ht]
  have placed : (s.cell c).placed = true := by
    unfold CellS.placed
    rw [hs]
    rfl
  refine (if_pos (by simp [hd, hl, hs, he, placed])).trans ?_
  show doneSettled (State.updCell (State.dropNew _ _) _ _) = _
  rw [still]

theorem cellEvt_sets (s : State) {i : Nat} (h : i < 8) : bit (s.cellEvt i).regs.cellEvt i = true := by
  have regs : (s.cellEvt i).regs = { s.regs with cellEvt := setBit s.regs.cellEvt i true } := by
    unfold State.cellEvt
    rw [hifEvt_frame]
    rfl
  rw [regs]
  exact bit_setBit_self _ h

/-- Settles O41. -/
theorem cellsReleaseRenewExpire : Obligations.CellsReleaseRenewExpire := by
  refine ⟨fun c v s hp hc hr hv hn => ⟨fun hd => ?_, fun hd => ?_⟩, fun c v e slot blk s hr he hf hg => ⟨fun hc => ?_, fun hc hw => ?_⟩,
    dispatch_sets, fun c s hs => ?_, fun n c v s hc hv hu hp => ⟨fun hl => ?_, fun hl => ?_⟩,
    fun c d lim s ht hd => ⟨fun hl hr => ?_, fun hl hr => ?_, fun hl hs he hh => ?_⟩⟩
  · rw [cellRelease_runs hp hc hr hv hn, hd]
    rfl
  · rw [cellRelease_runs hp hc hr hv hn, hd]
    rfl
  · obtain ⟨u, hu, run⟩ := releaseOn_dispatches (v := v) (slot := slot) (blk := blk) hr he hf hg hc
    have eng : ∀ n, u.eng n = s.eng n := fun n => by
      unfold State.eng
      rw [hu]
    have role : (s.eng e).role = .single := by
      unfold State.canRelease at hc
      simp only [Bool.and_eq_true] at hc
      exact eq_of_beq hc.1.1.1.1
    have apart : u.diverged e = false := by
      unfold State.diverged
      rw [eng, role]
      rfl
    rw [run, (updBoth_lead _).1 (by rw [dispatch_role, eng, role]; decide), eng, apart]
    rfl
  · obtain ⟨u, hu, run⟩ := releaseOn_dispatches (v := v) (slot := slot) (blk := blk) hr he hf hg hc
    have eng : ∀ n, u.eng n = s.eng n := fun n => by
      unfold State.eng
      rw [hu]
    have role : (s.eng e).role = .leader := by
      unfold State.canRelease at hc
      simp only [Bool.and_eq_true] at hc
      exact eq_of_beq hc.1.1.1.1
    have apart : u.diverged e = false := by
      unfold State.diverged
      rw [eng, eng, hw]
      simp
    obtain ⟨own, second⟩ := (updBoth_lead (u := u) (e := e)
      (fun y => y.dispatch c v false slot blk (if u.diverged e then y.whisk else whiskSeed))).2 (by rw [dispatch_role, eng, role])
    rw [run, own, second, eng, eng, apart]
    exact ⟨rfl, rfl⟩
  · refine if_neg ?_
    rintro ⟨_, _, h⟩
    rcases hs with hs | hs | hs <;> rw [hs] at h <;> simp at h
  · rw [permitRenewalExpiry_clears hc hv hu hp, if_pos hl]
    have place : 4 * (n.val / 4) + n.val % 4 = n.val := Nat.div_add_mod n.val 4
    refine gives_settled ⟨?_, by rw [settle_regs]; exact cellEvt_sets _ (by decide), fun m hm => ?_⟩
    · rw [settle_perm, cellEvt_perm, cellRec_perm]
      rw [slots_updSlot, if_pos place.symm]
    · rw [settle_perm, cellEvt_perm, cellRec_perm, slots_updSlot, if_neg (by omega)]
  · rw [permitRenewalExpiry_clears hc hv hu hp, if_neg (by omega)]
  · rw [degr50_reports ht hd hl hr]
    refine gives_settled ⟨?_, ?_⟩
    · rw [settle_cell, cellRec_cell, cell_updCell_same]
    · rw [settle_perm, cellRec_perm]
      rfl
  · rw [degr90_reports ht hd hl hr]
    refine gives_settled ⟨?_, ?_⟩
    · rw [settle_cell, cellRec_cell, cell_updCell_same]
    · rw [settle_perm, cellRec_perm]
      rfl
  · rw [degrExpiry_expires ht hd hl hs he hh]
    refine gives_settled ⟨by rw [settle_cell, cell_updCell_same], ?_, ?_⟩
    · rw [settle_perm]
      exact cellRec_perm s 5 c _ _
    · rw [settle_engs]
      exact cellRec_engs s 5 c _ _

end Sys2Proof.Laws
end

section
/-! What cells, their hand-overs and their abandonment leave of engines, pairs and units (R222, R274, R301). -/

namespace Sys2Proof.Laws

open Sys2Proof Sys2Proof.Machine Sys2Proof.Safety

/-- The ring and the terms imported over it are as before. -/
structure Heard (s t : State) : Prop where
  flk : t.flk = s.flk
  im : t.lid.im = s.lid.im
  evt : t.lid.evt = s.lid.evt

theorem Heard.trans {s t u : State} (h : Heard s t) (k : Heard t u) : Heard s u :=
  ⟨k.flk.trans h.flk, k.im.trans h.im, k.evt.trans h.evt⟩

/-- Engines, pairs and the ring are as before, and no unit comes back into service and no event of a pair is lost. -/
structure Manned (s t : State) : Prop where
  engs : t.engs = s.engs
  epairs : t.epairs = s.epairs
  grows : Grows s t
  evts : ∀ i, bit s.regs.pairEvt i = true → bit t.regs.pairEvt i = true
  ring : Heard s t

theorem Manned.refl (s : State) : Manned s s := ⟨rfl, rfl, Grows.refl s, fun _ h => h, ⟨rfl, rfl, rfl⟩⟩

theorem Manned.trans {s t u : State} (h : Manned s t) (k : Manned t u) : Manned s u :=
  ⟨k.engs.trans h.engs, k.epairs.trans h.epairs, h.grows.trans k.grows, fun i b => k.evts i (h.evts i b), h.ring.trans k.ring⟩

theorem Manned.eng {s t : State} (h : Manned s t) (e : Nat) : t.eng e = s.eng e := by
  unfold State.eng
  rw [h.engs]

theorem Manned.epair {s t : State} (h : Manned s t) (k : Nat) : t.epair k = s.epair k := by
  unfold State.epair
  rw [h.epairs]

theorem manned_when {s : State} {c : Bool} {f : State → State} (h : Manned s (f s)) : Manned s (s.when c f) := by
  cases c
  · exact Manned.refl s
  · exact h

theorem manned_foldl {β : Type} (f : State → β → State) (h : ∀ s b, Manned s (f s b)) (l : List β) : ∀ s, Manned s (l.foldl f s) := by
  induction l with
  | nil => exact Manned.refl
  | cons b l ih => intro s; exact (h s b).trans (ih _)

/-- A change of neither engines, pairs, units, ring nor Lids. -/
theorem manned_of {s t : State} (he : t.engs = s.engs) (hp : t.epairs = s.epairs) (hu : t.units = s.units) (hl : t.lid = s.lid)
    (hr : t.regs.pairEvt = s.regs.pairEvt := by rfl) (hf : t.flk = s.flk := by rfl) : Manned s t :=
  ⟨he, hp, Grows.same hu (by rw [hl]; exact ⟨rfl, rfl⟩), fun i b => by rw [hr, b], ⟨hf, by rw [hl], by rw [hl]⟩⟩

theorem Books.manned {s t : State} (h : Books s t) : Manned s t :=
  manned_of (by rw [h]) (by rw [h]) (by rw [h]) (by rw [h]) (by rw [h]) (by rw [h])

theorem InSide.manned {s t : State} (h : InSide s t) : Manned s t := ⟨by rw [h.same], by rw [h.same], h.grows, h.evts, ⟨by rw [h.same], by rw [h.same], by rw [h.same]⟩⟩

theorem manned_record (s : State) (a : RecArg) : Manned s (s.record a) :=
  manned_of (by rw [record_frame]) (by rw [record_frame]) (by rw [record_frame]) (by rw [record_frame]) (by rw [record_frame]) (by rw [record_frame])

theorem manned_updCell (s : State) (c : Nat) (f : CellS → CellS) : Manned s (s.updCell c f) := manned_of rfl rfl rfl rfl
theorem manned_updConn (s : State) (n : Nat) (f : Conn → Conn) : Manned s (s.updConn n f) := manned_of rfl rfl rfl rfl
theorem manned_updClu (s : State) (c : Nat) (f : Cluster → Cluster) : Manned s (s.updClu c f) := manned_of rfl rfl rfl rfl
theorem manned_updSlots (s : State) (c : Nat) (f : Nat → Slot → Slot) : Manned s (s.updSlots c f) := manned_of rfl rfl rfl rfl

theorem manned_cellEvt (s : State) (i : Nat) : Manned s (s.cellEvt i) := by
  unfold State.cellEvt
  refine Manned.trans ?_ (books_hifEvt _ 6).manned
  exact manned_of rfl rfl rfl rfl

theorem manned_updCts (s : State) (v : CellImg) (f : Ct → Ct) : Manned s (s.updCts v f) :=
  manned_foldl _ (fun s k => by split <;> exact manned_of rfl rfl rfl rfl) _ s

theorem manned_sweep (s : State) (c : Nat) : Manned s (s.sweep c) := by
  unfold State.sweep
  extract_lets due t _ u raise
  have raises : ∀ (p : State) (v : Option CellImg), Manned p (raise p v) := fun p v => by
    cases v with
    | none => exact Manned.refl p
    | some v => exact manned_updCts p v _
  have h1 : Manned s u := manned_of rfl rfl rfl rfl
  exact (h1.trans (raises _ _)).trans (raises _ _)

theorem manned_passivate (s : State) (c : Nat) : Manned s (s.passivate c) := by
  unfold State.passivate
  split
  · exact Manned.refl s
  · exact manned_foldl _ (fun s n => manned_updConn s n _) _ s

theorem manned_setCell (s : State) (c : Nat) (st : CState) : Manned s (s.setCell c st) := by
  unfold State.setCell
  extract_lets old t counts u _ v
  split
  · exact Manned.refl s
  · have h1 : Manned s t := (books_availFlush s c).manned
    have h2 : Manned t u := manned_updCell t c _
    have h3 : Manned u v := manned_of rfl rfl rfl rfl
    exact ((h1.trans h2).trans h3).trans (manned_when (manned_cellEvt v 1))

theorem manned_toSafe (s : State) (c : Nat) (st : CState) : Manned s (s.toSafe c st) :=
  ((manned_sweep s c).trans (manned_passivate _ c)).trans (manned_setCell _ c _)

/-! ### Input records and hand-overs -/

theorem inSide_loadInput (s : State) (n : Nat) : InSide s (s.loadInput n) := by
  unfold State.loadInput
  extract_lets r level fixed t
  have h : InSide s t := inSide_updInp s n _
  generalize (if n % 2 = 0 then AB.a else AB.b) = x
  repeat' split
  · exact h.trans (inSide_raiseIn _ _ _ _ _ _)
  · exact h.trans (inSide_raiseIn _ _ _ _ _ _)
  · exact h.trans (inSide_raiseIn _ _ _ _ _ _)
  · exact h

theorem manned_putInputs (s : State) (p : Nat) (e o : InRec) : Manned s (s.putInputs p e o) := by
  unfold State.putInputs
  extract_lets fresh _ t
  have h1 : Manned s t := manned_of rfl rfl rfl rfl
  have h2 : InSide t (fresh.foldl (fun s n => if (s.inRec n).kind = 0 then s else s.loadInput n) t) :=
    inSide_foldl _ (fun s n => by
      split
      · exact InSide.refl s
      · exact inSide_loadInput s n) _ t
  exact h1.trans (h2.trans (inSide_afterQual _ _)).manned

theorem manned_changeInputs (s : State) (c p : Nat) (e o : InRec) : Manned s (s.changeInputs c p e o) := by
  unfold State.changeInputs
  extract_lets oe oo
  split
  · exact manned_of rfl rfl rfl rfl
  · split
    · exact Manned.trans (t := s.updPair p _) (manned_of rfl rfl rfl rfl) (manned_record _ _)
    · exact Manned.trans (t := s.updPair p _) (manned_of rfl rfl rfl rfl) (manned_putInputs _ p e o)

theorem manned_takeInputs (s : State) (c : Nat) (own : Nat → Bool) (img : Image) : Manned s (s.takeInputs c own img) := by
  unfold State.takeInputs State.each
  refine manned_foldl _ (fun s p => ?_) _ s
  exact manned_when (manned_changeInputs s c p _ _)

theorem manned_restoreInputs (s : State) (c : Nat) : Manned s (s.restoreInputs c) := by
  unfold State.restoreInputs
  split
  · exact Manned.refl s
  · exact manned_when (manned_takeInputs s c _ _)

theorem manned_hoFinish (s : State) (code : Nat) : Manned s (s.hoFinish code) := by
  unfold State.hoFinish
  split
  · exact Manned.refl s
  · exact (books_complete _ _ _ _).manned

theorem manned_loadMasks (s : State) : Manned s s.loadMasks := ⟨rfl, rfl, Grows.same rfl ⟨rfl, rfl⟩, fun _ h => h, ⟨rfl, rfl, rfl⟩⟩

theorem manned_abandon (s : State) (c code : Nat) : Manned s (s.abandon c code) := by
  unfold State.abandon
  extract_lets x t u v w y z _ a b d f
  split
  · exact Manned.refl s
  · have h1 : Manned s t := (manned_sweep s c).trans (manned_restoreInputs _ c)
    have h2 : Manned t u := by
      simp only [u]
      split
      · exact Manned.refl t
      · exact (manned_updClu t _ _).trans (manned_updCts _ _ _)
    have h3 : Manned u v := manned_updSlots u c _
    have h4 : Manned v w := manned_of rfl rfl rfl rfl
    have h5 : Manned w y := (manned_updCell w c _).trans (manned_loadMasks _)
    have h6 : Manned y a := manned_of rfl rfl rfl rfl
    have h7 : Manned a b := manned_hoFinish a code
    have h8 : Manned b d := manned_record b _
    have h9 : Manned d f := (books_log d _).manned
    exact (((((((h1.trans h2).trans h3).trans h4).trans h5).trans h6).trans h7).trans h8).trans (h9.trans (manned_cellEvt f 5))

theorem manned_cancelSplit (s : State) (k : Nat) : Manned s (s.cancelSplit k) := by
  unfold State.cancelSplit
  split
  · exact Manned.trans (t := { s.updChan s.ho.chan _ with ho := _ }) (manned_of rfl rfl rfl rfl) (manned_hoFinish _ _)
  · exact Manned.refl s

theorem manned_rebuild (s : State) (c : Nat) : Manned s (s.rebuild c) := by
  unfold State.rebuild
  extract_lets x
  split
  · exact Manned.refl s
  · exact (manned_updClu s _ _).trans (manned_updCell _ c _)

end Sys2Proof.Laws
end

section
/-! Mismatches of a pair and what its self-tests decide (R220 to R226). -/

namespace Sys2Proof.Laws

open Sys2Proof Sys2Proof.Machine Sys2Proof.Safety

theorem setPair_sets (s : State) (k : Nat) (st : PState) : (s.setPair k st).engs = s.engs ∧ Grows s (s.setPair k st) ∧
    ((s.setPair k st).epair k).st = st ∧ ((s.setPair k st).epair k).cause = (s.epair k).cause ∧ ((s.setPair k st).epair k).mm = (s.epair k).mm := by
  unfold State.setPair
  split
  next h => exact ⟨rfl, Grows.refl s, h, rfl, rfl⟩
  · refine ⟨rfl, Grows.same rfl ⟨rfl, rfl⟩, ?_⟩
    have same : ∀ (r : Regs) (reg i : Nat) (u : State), (({ u with regs := r } : State).mark reg i).epair k = u.epair k := fun _ _ _ _ => rfl
    rw [same, epair_updEPair_same]
    exact ⟨rfl, rfl, rfl⟩

theorem refreshPair_keeps (s : State) (k : Nat) : (s.refreshPair k).engs = s.engs ∧ Grows s (s.refreshPair k) := by
  unfold State.refreshPair
  split
  · exact ⟨rfl, Grows.refl s⟩
  · obtain ⟨engs, grows, _⟩ := setPair_sets s k (s.pairByRoles k)
    exact ⟨engs, grows⟩

theorem manned_pairEvt (s : State) (i : Nat) : Manned s (s.pairEvt i) :=
  ⟨rfl, rfl, Grows.same rfl ⟨rfl, rfl⟩, fun _ h => bit_setBit_keeps i h, ⟨rfl, rfl, rfl⟩⟩

/-- The sweep of a pair halts both engines and empties their requests; the pair's counts stay (R222). -/
theorem pairFail_halts (s : State) (k : Nat) :
    ((s.pairFail k).eng (2 * k)).role = .halted ∧ ((s.pairFail k).eng (2 * k)).reqs = [] ∧
    ((s.pairFail k).eng (2 * k + 1)).role = .halted ∧ ((s.pairFail k).eng (2 * k + 1)).reqs = [] ∧
    ((s.pairFail k).epair k).mm = (s.epair k).mm := by
  unfold State.pairFail
  extract_lets cells t halt u _ v w
  have h1 : Manned s t := manned_foldl _ (fun s c => manned_abandon s c 0x3A) cells s
  have h2 : Manned v w := manned_foldl _ (fun s c => manned_toSafe s c .safe) cells v
  have even : v.eng (2 * k) = halt (t.eng (2 * k)) := by
    show (u.eng (2 * k)) = _
    rw [eng_updEng, if_neg (by omega), eng_updEng_same]
  have odd : v.eng (2 * k + 1) = halt (t.eng (2 * k + 1)) := by
    show (u.eng (2 * k + 1)) = _
    rw [eng_updEng_same, eng_updEng, if_neg (by omega)]
  rw [updEPair_eng, updEPair_eng, epair_updEPair_same, h2.eng, h2.eng, even, odd, h2.epair]
  exact ⟨rfl, rfl, rfl, rfl, (congrArg EPair.mm (h1.epair k) : (t.epair k).mm = (s.epair k).mm)⟩

theorem mismatch_halts (k cause : Nat) (s : State) :
    ((s.mismatch k cause).eng (2 * k)).role = .halted ∧ ((s.mismatch k cause).eng (2 * k)).reqs = [] ∧
    ((s.mismatch k cause).eng (2 * k + 1)).role = .halted ∧ ((s.mismatch k cause).eng (2 * k + 1)).reqs = [] ∧
    ((s.mismatch k cause).epair k).st = .resolving ∧ ((s.mismatch k cause).epair k).cause = BitVec.ofNat 3 cause ∧
    ((s.mismatch k cause).epair k).mm = satInc (s.epair k).mm := by
  unfold State.mismatch
  extract_lets t u v w
  obtain ⟨roleA, reqsA, roleB, reqsB, mm⟩ := pairFail_halts t k
  obtain ⟨engs, _, st, keepsCause, keepsMm⟩ := setPair_sets v k .resolving
  have last : Manned (v.setPair k .resolving) (w.record { src := 4, code := cause, site := siteEngine (2 * k), d6 := BitVec.ofNat 32 k }) :=
    (manned_pairEvt _ 0).trans (manned_record w _)
  have eng : ∀ e, (w.record { src := 4, code := cause, site := siteEngine (2 * k), d6 := BitVec.ofNat 32 k }).eng e = u.eng e := fun e => by
    rw [last.eng]
    unfold State.eng
    rw [engs]
    rfl
  have pair : v.epair k = _ := epair_updEPair_same u k _
  rw [eng, eng, last.epair, st, keepsCause, keepsMm, pair]
  refine ⟨roleA, reqsA, roleB, reqsB, rfl, rfl, ?_⟩
  show satInc (u.epair k).mm = _
  rw [show (u.epair k).mm = (t.epair k).mm from mm, (manned_cancelSplit s k).epair k]

/-! ### Self-tests -/

/-- Engines stay, and no unit comes back into service. -/
def Engaged (s t : State) : Prop := t.engs = s.engs ∧ Grows s t

theorem Manned.engaged {s t : State} (h : Manned s t) : Engaged s t := ⟨h.engs, h.grows⟩

theorem Engaged.trans {s t u : State} (h : Engaged s t) (k : Engaged t u) : Engaged s u := ⟨k.1.trans h.1, h.2.trans k.2⟩

theorem engaged_lose (s : State) (c kind : Nat) : Engaged s (s.lose c kind) := by
  unfold State.lose
  extract_lets x present was t
  split
  · exact ⟨rfl, Grows.refl s⟩
  · split
    · exact ⟨rfl, Grows.refl s⟩
    · split
      · exact ((manned_abandon s c 0x3A).trans (manned_toSafe _ c .held)).engaged
      · have h1 : Manned s t := manned_updCell s c _
        have h2 : Manned t _ := manned_when (c := !was) (f := fun s => (s.cellEvt 2).cellRec 1 c (s.cell c).kinds)
          ((manned_cellEvt t 2).trans (manned_record _ _))
        exact (h1.trans h2).engaged.trans (refreshPair_keeps _ _)

theorem foldl_engaged {β : Type} (f : State → β → State) (h : ∀ s b, Engaged s (f s b)) (l : List β) : ∀ s, Engaged s (l.foldl f s) := by
  induction l with
  | nil => exact fun s => ⟨rfl, Grows.refl s⟩
  | cons b l ih => intro s; exact (h s b).trans (ih _)

/-- An engine that is not out goes out (R12). -/
theorem engineOut_goes {s : State} {e : Nat} (cause : Word) (h : (s.eng e).role ≠ .out) :
    ((s.engineOut e cause).eng e).role = .out ∧ (s.engineOut e cause).isOut (siteEngine e) = true ∧
      ∀ n, n ≠ e → (s.engineOut e cause).eng n = s.eng n := by
  unfold State.engineOut
  rw [if_neg h]
  extract_lets t _ u v
  have hv : Manned v (v.record { src := 4, code := 11, site := siteEngine e, d6 := cause }) := manned_record v _
  have eng : ∀ n, v.eng n = t.eng n := fun _ => rfl
  refine ⟨?_, hv.grows.1 _ (isOut_takeOut u _ 11), fun n hn => ?_⟩
  · rw [hv.eng, eng, eng_updEng_same]
    rfl
  · rw [hv.eng, eng, eng_updEng, if_neg hn]

/-- The survivor of a pair goes on alone, the other engine is out of service (R224). -/
theorem survive_leaves {s : State} {k good bad : Nat} (hb : bad = 4 * k + 1 - good) (hn : bad ≠ good) (hr : (s.eng bad).role = .halted) :
    ((s.survive k good).eng good).role = .single ∧ ((s.survive k good).eng bad).role = .out ∧
      (s.survive k good).isOut (siteEngine bad) = true := by
  unfold State.survive
  subst hb
  extract_lets bad cells t seq u v w
  have st : Manned s t := (manned_record s _).trans (manned_pairEvt _ 1)
  have goodU : u.eng good = { (t.eng good).released .single with cell := none } := eng_updEng_same t good _
  have badU : (u.eng bad).role ≠ .out := by
    rw [show u.eng bad = t.eng bad from (eng_updEng t good bad _).trans (if_neg hn), st.eng, hr]
    decide
  obtain ⟨badV, outV, otherV⟩ := engineOut_goes seq badU
  have vw : Engaged v w := by
    refine foldl_engaged _ (fun s c => ?_) cells v
    split
    · exact ⟨rfl, Grows.refl s⟩
    · split
      · exact (((manned_updCell s c _).trans (manned_rebuild _ c)).engaged.trans (engaged_lose _ c 0))
      · exact (manned_toSafe s c .held).engaged
  obtain ⟨engs, grows⟩ := vw.trans (refreshPair_keeps w k)
  have eng : ∀ e, (w.refreshPair k).eng e = v.eng e := fun e => by
    unfold State.eng
    rw [engs]
  rw [eng, eng]
  refine ⟨?_, badV, grows.1 _ outV⟩
  rw [otherV good (Ne.symm hn), goodU]
  rfl

/-- Two passed self-tests bring a pair back (R224). -/
theorem selfTests_pass {k : Fin 32} {s : State} (hr : (s.epair k).st = .resolving) (hd : (s.epair k).disc5 = false)
    (hb : (s.epair k).both = []) : ∃ u : State, exec (.mismatchSelfTestEnd k true true) s = doneSettled u ∧
      (u.eng (2 * k)).role = .leader ∧ (u.eng (2 * k + 1)).role = .follower ∧ (u.epair k).st = .paired := by
  let recent := (s.now :: (s.epair k).both).filter (fun t => decide (s.since t < dayNs))
  have few : ¬ 3 ≤ recent.length := by
    have le : recent.length ≤ (s.now :: (s.epair k).both).length := List.length_filter_le _ _
    rw [hb, List.length_singleton] at le
    omega
  let t := s.updEPair k (fun p => { p with both := recent })
  let u := (t.updEng (2 * k) (fun x => x.released .leader)).updEng (2 * k + 1) (fun x => x.released .follower)
  let v := u.restartAll (u.cellsAt (2 * k) true)
  have uv : Manned u v := manned_foldl _ manned_rebuild _ u
  obtain ⟨engs, _, st, _⟩ := setPair_sets v k .paired
  have eng : ∀ e, (v.setPair k .paired).eng e = u.eng e := fun e => by
    unfold State.eng
    rw [engs, uv.engs]
  refine ⟨v.setPair k .paired, ?_, ?_, ?_, st⟩
  · show execMismatchSelfTestEnd k true true s = _
    unfold execMismatchSelfTestEnd
    rw [if_pos hr]
    show (if _ then _ else if _ then _ else _) = _
    rw [if_neg (by rw [hd]; decide), if_neg few]
  · rw [eng, eng_updEng, if_neg (by omega), eng_updEng_same]
    rfl
  · rw [eng, eng_updEng_same]
    rfl

/-- Settles O42. -/
theorem pairsResolveMismatches : Obligations.PairsResolveMismatches := by
  refine ⟨mismatch_halts, fun k s hl hf hs => ⟨fun hp => if_pos ⟨hl, hf, hs, hp⟩, fun hp => if_neg (by simp [hp])⟩,
    fun k s hr => ⟨fun hd hb => ?_, fun hd => ?_, fun ho => ?_, fun he => ?_⟩⟩
  · obtain ⟨u, run, lead, follow, st⟩ := selfTests_pass hr hd hb
    rw [run]
    exact gives_settled ⟨by rw [settle_eng, lead], by rw [settle_eng, follow], by rw [settle_epair, st]⟩
  · show execMismatchSelfTestEnd k true true s = _
    unfold execMismatchSelfTestEnd
    simp only [hr, hd, if_true]
    rfl
  · obtain ⟨single, out, off⟩ := survive_leaves (k := k) (good := 2 * k) (bad := 2 * k + 1) (by omega) (by omega) ho
    show Gives (execMismatchSelfTestEnd k true false s) _
    unfold execMismatchSelfTestEnd
    rw [if_pos hr]
    exact gives_settled ⟨by rw [settle_eng, single], by rw [settle_eng, out], (grows_settle _).1 _ off⟩
  · obtain ⟨single, out, off⟩ := survive_leaves (k := k) (good := 2 * k + 1) (bad := 2 * k) (by omega) (by omega) he
    show Gives (execMismatchSelfTestEnd k false true s) _
    unfold execMismatchSelfTestEnd
    rw [if_pos hr]
    exact gives_settled ⟨by rw [settle_eng, single], by rw [settle_eng, out], (grows_settle _).1 _ off⟩

end Sys2Proof.Laws
end

section
/-! Idle self-tests and the scrubber (R30, R48, R212, R213). -/

namespace Sys2Proof.Laws

open Sys2Proof Sys2Proof.Machine Sys2Proof.Safety

/-! ### Idle self-tests -/

theorem setPair_evts {s : State} {k : Nat} {st : PState} {i : Nat} (h : bit s.regs.pairEvt i = true) :
    bit (s.setPair k st).regs.pairEvt i = true := by
  unfold State.setPair
  split <;> exact h

theorem refreshPair_evts {s : State} {k i : Nat} (h : bit s.regs.pairEvt i = true) : bit (s.refreshPair k).regs.pairEvt i = true := by
  unfold State.refreshPair
  split
  · exact h
  · exact setPair_evts h

theorem engineOut_evts {s : State} {e i : Nat} (cause : Word) (h : bit s.regs.pairEvt i = true) :
    bit (s.engineOut e cause).regs.pairEvt i = true := by
  unfold State.engineOut
  split
  · exact h
  · exact (manned_record _ _).evts i h

/-- A failed diagnostic of a single engine takes it out of service (R48). -/
theorem singleFail_goes {s : State} {e : Nat} (seq : Word) (h : (s.eng e).role ≠ .out) :
    ((s.singleFail e seq).eng e).role = .out ∧ (s.singleFail e seq).isOut (siteEngine e) = true ∧
      ∀ i, bit s.regs.pairEvt i = true → bit (s.singleFail e seq).regs.pairEvt i = true := by
  unfold State.singleFail
  extract_lets t cells u v
  have st : Manned s t := manned_cancelSplit s _
  have tu : Manned t u := manned_foldl _ (fun s c => (manned_abandon s c 0x3A).trans (manned_toSafe _ c .held)) cells t
  have su := st.trans tu
  obtain ⟨out, off, _⟩ := engineOut_goes seq (show (u.eng e).role ≠ .out by rw [su.eng]; exact h)
  obtain ⟨engs, grows⟩ := refreshPair_keeps v (e / 2)
  have eng : (v.refreshPair (e / 2)).eng e = v.eng e := by
    unfold State.eng
    rw [engs]
  refine ⟨by rw [eng]; exact out, grows.1 _ off, fun i b => refreshPair_evts (engineOut_evts seq (su.evts i b))⟩

/-! ### The scrubber -/

theorem scrubRead_runs {c : Fin 16} {w : Half} {ups : List Upset} {s : State} (hr : s.regionUp (c / 4) = true) (hw : w ≠ 0xFFFF#16) :
    exec (.scrubRead c w ups) s = doneSettled ((s.updClu c (fun m => ups.foldl (fun m x => m.upset x) m)).scrub c w.toNat) := by
  show (if _ then _ else _) = _
  rw [if_neg (by rw [hr]; decide)]
  have whole : (w == 0xFFFF#16) = false := beq_eq_false_iff_ne.mpr hw
  rw [whole]
  rfl

/-- A word under its own tag and at its own address is judged by its flipped bits (R213). -/
theorem readWord_judged {s : State} {cl w : Nat} {tag : Byte} (ht : (s.clu cl).wroteTag w = tag) (ha : (s.clu cl).wroteAt w = BitVec.ofNat 16 w) :
    (Tab.get 0 (s.clu cl).err w = 0 → s.readWord cl w tag = (some ((s.clu cl).word (4 * w)), s)) ∧
    (Tab.get 0 (s.clu cl).err w = 1 → s.readWord cl w tag =
      (some ((s.clu cl).word (4 * w)), (s.updClu cl (fun m => { m with err := Tab.drop m.err w })).countCe cl)) ∧
    (Tab.get 0 (s.clu cl).err w = 2 → s.readWord cl w tag = (none, s.countUe cl)) := by
  have apart : ones ((s.clu cl).wroteTag w ^^^ tag) + ones ((s.clu cl).wroteAt w ^^^ BitVec.ofNat 16 w) = 0 := by
    rw [ht, ha, BitVec.xor_self, BitVec.xor_self]
    decide
  unfold State.readWord
  extract_lets m d flips
  have hd : d = 0 := apart
  refine ⟨fun h => ?_, fun h => ?_, fun h => ?_⟩
  · have hf : flips = 0 := h
    rw [if_pos ⟨hf, hd⟩]
  · have hf : flips = 1 := h
    rw [if_neg (by omega), if_pos ⟨hf, hd⟩]
  · have hf : flips = 2 := h
    rw [if_neg (by omega), if_neg (by omega), if_pos (.inl ⟨hf, hd⟩)]

theorem scrub_unowned {s : State} {cl w : Nat} (h : (Tab.get {} (s.clu cl).own (w / 256)).tag = 0) : s.scrub cl w = s := if_pos h

theorem scrub_good {s t : State} {cl w : Nat} {tag : Byte} {v : Word} (ho : (Tab.get {} (s.clu cl).own (w / 256)).tag = tag) (ht : tag ≠ 0)
    (hp : (Tab.get {} (s.clu cl).own (w / 256)).badPar = false) (hr : s.readWord cl w tag = (some v, t)) : s.scrub cl w = t := by
  unfold State.scrub
  extract_lets o r
  have read : r = (some v, t) := by rw [← hr, ← ho]
  rw [if_neg (by rw [show o.tag = tag from ho]; exact ht), if_neg (by rw [show o.badPar = false from hp]; decide), read]

theorem scrub_bad {s t : State} {cl w : Nat} {tag : Byte} (ho : (Tab.get {} (s.clu cl).own (w / 256)).tag = tag) (ht : tag ≠ 0)
    (hp : (Tab.get {} (s.clu cl).own (w / 256)).badPar = false) (hr : s.readWord cl w tag = (none, t)) :
    s.scrub cl w = (t.record { src := 8, code := 1, site := siteCluster cl 4, d6 := BitVec.ofNat 32 w }).ownerSafe cl (w / 256) := by
  unfold State.scrub
  extract_lets o r
  have read : r = (none, t) := by rw [← hr, ← ho]
  rw [if_neg (by rw [show o.tag = tag from ho]; exact ht), if_neg (by rw [show o.badPar = false from hp]; decide), read]

/-- Settles O43. -/
theorem selfTestsAndScrubbing : Obligations.SelfTestsAndScrubbing := by
  refine ⟨fun e s hr => ⟨?_, ?_⟩, fun c w ups s hd => if_pos (by rw [hd]; rfl), fun c w ups s u hr hw hu => ⟨fun h => ?_, fun ht hp htag hat => ?_⟩⟩
  · exact if_pos hr
  · have failed : Manned s (s.selfTestFail e) := (manned_record s _).trans (manned_pairEvt _ 1)
    obtain ⟨out, off, evts⟩ := singleFail_goes (s.selfTestFail e).lastSeq
      (show ((s.selfTestFail e).eng e).role ≠ .out by rw [failed.eng, hr]; decide)
    show Gives (if _ then _ else _) _
    rw [if_pos hr]
    refine gives_settled ⟨by rw [settle_eng]; exact out, (grows_settle _).1 _ off, ?_⟩
    rw [settle_regs]
    exact evts 1 (bit_setBit_self _ (by decide))
  · rw [scrubRead_runs hr hw, ← hu, scrub_unowned h]
    rfl
  · obtain ⟨clean, one, two⟩ := readWord_judged (s := u) (cl := c) htag hat
    rw [scrubRead_runs hr hw, ← hu]
    refine ⟨fun h => ?_, fun h => ?_, fun h => ?_⟩
    · rw [scrub_good rfl ht hp (clean h)]
      rfl
    · rw [scrub_good rfl ht hp (one h)]
      rfl
    · rw [scrub_bad rfl ht hp (two h)]
      rfl

end Sys2Proof.Laws
end

section
/-! Debug of an engine, and what JTAG reaches (R234 to R237, R484, R525). -/

namespace Sys2Proof.Laws

open Sys2Proof Sys2Proof.Machine Sys2Proof.Safety

/-! ### BRK -/

theorem debugOk_enabled {s : State} {e : Nat} (h : s.debugOk e = true) : (s.loaded && s.cfg.dbgEn) = true := by
  unfold State.debugOk at h
  simp only [Bool.and_eq_true] at h ⊢
  exact h.1.1.1.1

theorem debugOk_issued {s : State} {e : Nat} : (issued s e (fun x => x.retire x)).debugOk e = s.debugOk e := by
  have role : ((issued s e (fun x => x.retire x)).eng e).role = (s.eng e).role := by
    rw [eng_issued, retire_role]
    rfl
  unfold State.debugOk
  rw [role]
  rfl

theorem brk_halts {e : Fin 64} {s : State} (h : SingleReady s e) (hp : PlainPlace (s.eng e)) (hd : s.debugOk e = true) :
    exec (.brk e) s = .next (((issued s e (fun x => x.retire x)).debugHalt e).overflow e).settle := by
  have run : exec (.brk e) s = doneSettled (s.issue e { barred := true, bad := fun _ => !(s.loaded && s.cfg.dbgEn), act := fun x => .step x }
    (fun s => s.when (s.debugOk e) (fun s => s.debugHalt e))) := rfl
  refine (issue_step_then run h (legal_plain hp (by simp [debugOk_enabled hd])) (y := fun x => x) rfl).trans ?_
  have halts : (issued s e (fun x => x.retire x)).when ((issued s e (fun x => x.retire x)).debugOk e) (fun s => s.debugHalt e) =
      (issued s e (fun x => x.retire x)).debugHalt e := by
    rw [debugOk_issued, hd, when_true]
  exact congrArg (fun u : State => doneSettled (u.overflow e)) halts

theorem brk_faults {e : Fin 64} {s : State} (h : SingleReady s e) (hd : (s.loaded && s.cfg.dbgEn) = false) :
    exec (.brk e) s = .next (faulted s e 3 0).settle :=
  issue_bad_faulted (i := { barred := true, bad := fun _ => !(s.loaded && s.cfg.dbgEn), act := fun x => .step x })
    (k := fun s => s.when (s.debugOk e) (fun s => s.debugHalt e)) rfl h (by simp [hd])

/-! ### Halts over JTAG -/

theorem entryFirst_still {s : State} {e : Nat} (hw : (s.eng e).wdHit = false) (hi : s.interrupted e = false) : s.entryFirst e = s := by
  unfold State.entryFirst
  split
  · rfl
  · rw [if_neg (by rw [hw]; decide), if_neg (by rw [hi]; decide)]

theorem engineDebugHalt_answers (e : Fin 64) (s : State) :
    (s.debugOk e = true → (s.eng (s.head e)).wdHit = false → s.interrupted (s.head e) = false →
      exec (.engineDebugHalt e) s = .next ((s.debugHalt e).emit (.tap true)).settle) ∧
    (s.debugOk e = false → exec (.engineDebugHalt e) s = .next (s.emit (.tap false)).settle) := by
  constructor
  · intro hd hw hi
    show execEngineDebugHalt e s = _
    unfold execEngineDebugHalt
    rw [if_pos hd, entryFirst_still hw hi]
    exact if_pos hd
  · intro hd
    show execEngineDebugHalt e s = _
    unfold execEngineDebugHalt
    rw [hd, if_neg Bool.false_ne_true]
    exact if_neg (by rw [hd]; exact Bool.false_ne_true)

/-- A single engine halted by debug has no cell and no requests, and its pair shows DEBUG (R234). -/
theorem debugHalt_halts {e : Nat} {s : State} (hr : (s.eng e).role = .single) :
    ((s.debugHalt e).eng e).role = .halted ∧ ((s.debugHalt e).eng e).dbg = true ∧ ((s.debugHalt e).eng e).reqs = [] ∧
    ((s.debugHalt e).epair (e / 2)).st = .debug := by
  have alone : (s.eng e).onPair = false := by
    unfold Engine.onPair
    rw [hr]
    rfl
  unfold State.debugHalt
  rw [alone]
  extract_lets k cells both t u halt v _ w x y
  have su : Manned s u := (manned_cancelSplit s k).trans (manned_foldl _ (fun s c => manned_abandon s c 0x3A) cells t)
  have wx : Manned w x := manned_foldl _ (fun s c => manned_toSafe s c .held) cells w
  obtain ⟨engs, _, st, _⟩ := setPair_sets (x.updEPair k (fun p => { p with l := none, f := none })) k .debug
  have last : Manned y ((y.pairEvt 2).record { src := 4, code := 10, site := siteEngine (if both then 2 * k else e), d6 := BitVec.ofNat 32 k }) :=
    (manned_pairEvt y 2).trans (manned_record _ _)
  have eng : y.eng e = halt (s.eng e) := by
    have yx : y.eng e = x.eng e := by
      unfold State.eng
      exact congrArg (fun t => Tab.get {} t e) engs
    rw [yx, wx.eng]
    show (u.updEng e halt).eng e = _
    rw [eng_updEng_same, su.eng]
  rw [last.eng, last.epair, eng]
  exact ⟨rfl, rfl, rfl, st⟩

theorem debugMemoryWrite_reaches {e : Fin 64} {a : BitVec 18} {d : DebugAccess} {tag : Byte} {s : State} (hr : (s.eng e).role = .halted)
    (hd : (s.eng e).dbg = true) : exec (.debugMemoryWrite e a d tag) s = doneSettled (s.debugAccess e a d tag) := if_pos (by rw [hr, hd]; rfl)

/-- An engine that debug has halted rests; the other is as it was (R237). -/
def restOne (s : State) (i : Nat) : State :=
  s.when ((s.eng i).role == .halted && (s.eng i).dbg) (fun s => s.updEng i (fun x => x.released .idle))

theorem restOne_rests (s : State) (i : Nat) : (restOne s i).epairs = s.epairs ∧ (∀ n, n ≠ i → (restOne s i).eng n = s.eng n) ∧
    ((s.eng i).role = .halted → (s.eng i).dbg = true → ((restOne s i).eng i).role = .idle ∧ ((restOne s i).eng i).dbg = false) := by
  unfold restOne State.when
  split
  · refine ⟨rfl, fun n hn => by rw [eng_updEng, if_neg hn], fun _ _ => ?_⟩
    rw [eng_updEng_same]
    exact ⟨rfl, rfl⟩
  next off => exact ⟨rfl, fun _ _ => rfl, fun hr hd => absurd (by rw [hr, hd]; rfl) off⟩

theorem debugRelease_rests {e : Fin 64} {s : State} (hr : (s.eng e).role = .halted) (hd : (s.eng e).dbg = true) :
    Gives (exec (.debugRelease e) s) (fun t => (t.eng e).role = .idle ∧ (t.eng e).dbg = false ∧ t.epairs = s.epairs) := by
  obtain ⟨pairsA, otherA, restA⟩ := restOne_rests s (e / 2 * 2)
  obtain ⟨pairsB, otherB, restB⟩ := restOne_rests (restOne s (e / 2 * 2)) (e / 2 * 2 + 1)
  refine gives_settled (t := restOne (restOne s (e / 2 * 2)) (e / 2 * 2 + 1)) ?_
  rw [settle_eng, settle_epairs]
  rcases Nat.mod_two_eq_zero_or_one e.val with even | odd
  · have he : e.val / 2 * 2 = e.val := by omega
    rw [he] at pairsA pairsB otherB restA ⊢
    rw [otherB e (by omega)]
    exact ⟨(restA hr hd).1, (restA hr hd).2, pairsB.trans pairsA⟩
  · have he : e.val / 2 * 2 + 1 = e.val := by omega
    have kept := otherA e (by omega)
    rw [he] at pairsB restB ⊢
    rw [kept] at restB
    exact ⟨(restB hr hd).1, (restB hr hd).2, pairsB.trans pairsA⟩

/-- Settles O44. -/
theorem debugAndTestAccess : Obligations.DebugAndTestAccess := by
  refine ⟨fun e s h _ hd => brk_faults h hd, fun e s h hp hd => brk_halts h hp hd, engineDebugHalt_answers, fun e s hr => debugHalt_halts hr,
    fun e s hr hd => ?_, fun e a v tag s hr hd => ⟨fun h => ?_, fun h => ?_, fun h hc => ?_, fun h => ?_⟩,
    fun e a tag s hr hd => ⟨fun n => ?_, ?_, ?_, fun b => ?_⟩, fun e addr a tag s hr => ?_, fun s => ⟨rfl, rfl, rfl⟩,
    fun s h => ⟨?_, ?_, fun ok => ?_⟩, fun s h => ⟨?_, ?_, ?_⟩, fun s => ⟨fun h => ?_, fun h => ?_⟩⟩
  · exact debugRelease_rests hr hd
  · rw [debugMemoryWrite_reaches hr hd]
    exact congrArg doneSettled (if_pos h)
  · rw [debugMemoryWrite_reaches hr hd]
    exact congrArg doneSettled (if_neg (by rw [h]; exact Bool.false_ne_true))
  · rw [debugMemoryWrite_reaches hr hd]
    unfold cleanWord at hc
    simp only [Bool.and_eq_true, decide_eq_true_eq] at hc
    obtain ⟨⟨htag, hat⟩, hclean⟩ := hc
    refine (congrArg doneSettled (if_pos h)).trans ?_
    rw [(readWord_judged htag hat).1 hclean]
    rfl
  · rw [debugMemoryWrite_reaches hr hd]
    exact congrArg doneSettled (if_neg (by rw [h]; exact Bool.false_ne_true))
  · rw [debugMemoryWrite_reaches hr hd]
    rfl
  · rw [debugMemoryWrite_reaches hr hd]
    rfl
  · rw [debugMemoryWrite_reaches hr hd]
    rfl
  · rw [debugMemoryWrite_reaches hr hd]
    rfl
  · exact if_neg (by simp [hr])
  · show doneSettled (s.tapTakes s.bist.inHold 2) = _
    rw [h]
    rfl
  · show doneSettled (s.tapTakes s.bist.inHold 3) = _
    rw [h]
    rfl
  · exact if_pos (by rw [h]; rfl)
  · show doneSettled (s.tapTakes s.bist.inHold 2) = _
    rw [h]
    rfl
  · show doneSettled (s.tapTakes s.bist.inHold 3) = _
    rw [h]
    rfl
  · show Gives (if _ then _ else _) _
    rw [if_neg (by rw [h]; decide)]
    exact gives_settled ⟨by rw [settle_bist]; rfl, by rw [settle_bist]; rfl, by rw [settle_bist]; rfl, by rw [settle_store]; rfl,
      by rw [settle_store]; rfl⟩
  · exact if_pos h
  · exact if_neg (by rw [h]; exact Bool.false_ne_true)

end Sys2Proof.Laws
end

section
/-! How a fetched command runs: its checks, then its effect (R391, R397, R398, R403). -/

namespace Sys2Proof.Laws

open Sys2Proof Sys2Proof.Machine Sys2Proof.Safety

/-- The next command of a queue pair, judged by the checks of R391, R397 and R403 in their order. -/
theorem runCmd_next {s : State} {q opc : Nat} {need : Need} {body : State → Desc → State} {d : Desc} (h : s.nextCmd q = some d) :
    s.runCmd q opc need body =
      if d.opc ≠ opc then s
      else if d.net ≠ opcNetwork opc ∧ opc ≠ 0x01 then s.complete q d { status := 0x04 }
      else if !d.shapeOk then s.complete q d { status := 0x02 }
      else if d.memErr then s.complete q d { status := 0x03 }
      else if opcReads opc && d.buf.isNone then s
      else if s.sessionCode q d.sess need ≠ 0 then s.complete q d { status := s.sessionCode q d.sess need }
      else body (s.touchSession q d.sess) d := by
  unfold State.runCmd
  rw [h]

/-- A buffer that is there where the command needs one does not hold the command back. -/
theorem buffer_arrived {opc : Nat} {d : Desc} (h : opcReads opc = true → d.buf.isSome = true) :
    ¬ ((opcReads opc && d.buf.isNone) = true) := by
  rw [Bool.and_eq_true]
  rintro ⟨reads, absent⟩
  have there := h reads
  rw [Option.isNone_iff_eq_none] at absent
  rw [absent] at there
  cases there

/-- A command that passes every check has its effect (R403). -/
theorem runCmd_runs {s : State} {q opc : Nat} {need : Need} {d : Desc} (body : State → Desc → State) (h : CanRun s q opc need d) :
    s.runCmd q opc need body = body (s.touchSession q d.sess) d := by
  obtain ⟨next, code, class_, shape, mem, buf, sess⟩ := h
  rw [runCmd_next next, if_neg (not_not.mpr code), if_neg (fun ⟨a, b⟩ => class_.elim a b), if_neg (by rw [shape]; decide),
    if_neg (by rw [mem]; decide), if_neg (buffer_arrived buf), if_neg (not_not.mpr sess)]

/-- Settles O51. -/
theorem queueCommandsAreChecked : Obligations.QueueCommandsAreChecked := by
  intro q opc need body d s h
  refine ⟨fun hc => ?_, fun hc h1 hn => ?_, fun hc hn hs => ?_, fun hc hn hs hm => ?_, fun hc hn hs hm hr hb => ?_,
    fun hc hn hs hm hb hk => ?_, runCmd_runs body, fun hr => ?_, fun hr => ⟨?_, ?_⟩⟩
  · rw [runCmd_next h, if_pos hc]
  · rw [runCmd_next h, if_neg (not_not.mpr hc), if_pos ⟨hn, h1⟩]
  · rw [runCmd_next h, if_neg (not_not.mpr hc), if_neg (fun k => k.1 hn), if_pos (by rw [hs]; rfl)]
  · rw [runCmd_next h, if_neg (not_not.mpr hc), if_neg (fun k => k.1 hn), if_neg (by rw [hs]; decide), if_pos hm]
  · rw [runCmd_next h, if_neg (not_not.mpr hc), if_neg (fun k => k.1 hn), if_neg (by rw [hs]; decide), if_neg (by rw [hm]; decide),
      if_pos (by rw [hr, hb]; rfl)]
  · rw [runCmd_next h, if_neg (not_not.mpr hc), if_neg (fun k => k.1 hn), if_neg (by rw [hs]; decide), if_neg (by rw [hm]; decide),
      if_neg (buffer_arrived hb), if_pos hk]
  · unfold State.sessionCode
    rw [hr]
  · unfold State.sessionCode
    rw [hr]
    rfl
  · unfold State.sessionCode
    rw [hr]

end Sys2Proof.Laws
end

section
/-! Cell-control commands and the instants of a hand-over (R231 to R233, R295 to R306). -/

namespace Sys2Proof.Laws

open Sys2Proof Sys2Proof.Machine Sys2Proof.Safety

/-! ### Commands -/

theorem controlBusy {s : State} (h : s.controlFree = false) {q : Fin 64} :
    exec (.cellExchange q) s = .next s ∧ exec (.cellMove q) s = .next s ∧ exec (.pairSplit q) s = .next s ∧
     exec (.cellRestart q) s = .next s ∧ ∀ a b i : Bool, exec (.pairMerge q a b i) s = .next s := by
  have busy : (!s.controlFree) = true := by rw [h]; rfl
  exact ⟨if_pos busy, if_pos busy, if_pos busy, if_pos busy, fun _ _ _ => if_pos busy⟩

/-- With no other command under way a control command runs by its own body (R399). -/
theorem control_free {s : State} {α : Type} {a b : α} (h : s.controlFree = true) : (if !s.controlFree then a else b) = b :=
  if_neg (by rw [h]; decide)

theorem cellExchange_begins {q : Fin 64} {d : Desc} {s : State} (hc : s.controlFree = true) (hr : CanRun s q 0x20 .safety d)
    (h0 : fld (d.p 0) 31 5 = 0) (h1 : 1 ≤ fld (d.p 0) 4 0) (h20 : fld (d.p 0) 4 0 ≤ 20) (hl : d.cellListOk 1 (fld (d.p 0) 4 0) = true) :
    exec (.cellExchange q) s = .next ({ (s.touchSession q d.sess).markRan q d with ho := { step := .idle, kind := .exchange, qp := q, rest := d.cellList 1 (fld (d.p 0) 4 0), done := 0 } }.exchangeNext).settle := by
  show execCellExchange q s = _
  unfold execCellExchange
  rw [control_free hc, runCmd_runs _ hr]
  show doneSettled (if _ then _ else _) = _
  rw [if_neg]
  · rfl
  · rw [hl]
    simp only [Bool.not_true, Bool.false_eq_true, or_false]
    omega

theorem exchangeNext_lost {s : State} {c : Nat} {rest : List Nat} (hr : s.ho.rest = c :: rest) (hl : s.store.lost = true) :
    s.exchangeNext = ({ s with ho := { s.ho with cell := c, rest := rest } }).hoEnd 0x18 := by
  unfold State.exchangeNext
  rw [hr]
  exact if_pos hl

/-- The next cell of an exchange, running, with every check of R295 passed, is prepared at its place (R296). -/
theorem exchangeNext_prepares {c e : Nat} {v w : CellImg} {rest : List Nat} {pl : Nat × Nat × Nat} {s u : State} (hr : s.ho.rest = c :: rest)
    (hl : s.store.lost = false) (hv : s.committed.cell c = some v) (hw : (s.cell c).ver = some w) (hs : (s.cell c).st = .running)
    (he : (s.cell c).eng = e)
    (hu : u = { s with ho := { s.ho with cell := c, rest := rest, axes := s.committed.axes, groups := s.committed.groups, conns := s.committed.conns } })
    (hk : u.exchangeCode c v w = 0) (hp : u.findPlace v (e / 4) false = some pl) :
    s.exchangeNext = u.prepare c .exchange v e (s.cell c).onP pl := by
  unfold State.exchangeNext
  rw [hr]
  refine (if_neg (by rw [show State.store _ = s.store from rfl, hl]; decide)).trans ?_
  simp only [show ({ s with ho := { s.ho with cell := c, rest := rest } } : State).committed = s.committed from rfl,
    show ({ s with ho := { s.ho with cell := c, rest := rest } } : State).cell c = s.cell c from rfl, hv, hs, hw, he]
  rw [← hu, hk, hp]
  rfl

/-- A move of a running cell, refused by the checks of R302 or prepared at its target (R302). -/
theorem cellMove_runs {q : Fin 64} {c e : Nat} {onP : Bool} {d : Desc} {v : CellImg} {s u : State} (hc : s.controlFree = true)
    (hr : CanRun s q 0x21 .maint d) (h0 : fld (d.p 0) 31 10 = 0) (h1 : fld (d.p 1) 31 7 = 0) (ec : c = fld (d.p 0) 9 0)
    (ee : e = fld (d.p 1) 5 0) (eo : onP = bit (d.p 1) 6) (hp : onP = false ∨ e % 2 = 0) (hv : (s.cell c).ver = some v)
    (hs : (s.cell c).st = .running)
    (hu : u = { (s.touchSession q d.sess).markRan q d with ho := { step := .idle, kind := .move, cell := c, qp := q, axes := s.cfg.axes, groups := s.cfg.groups, conns := s.cfg.conns } }) :
    (∀ pl : Nat × Nat × Nat, u.moveCode c v e onP = 0 → u.findPlace v (e / 4) false = some pl →
      exec (.cellMove q) s = .next (u.prepare c .move v e onP pl).settle) ∧
    (u.moveCode c v e onP ≠ 0 → exec (.cellMove q) s = .next (u.hoEnd (u.moveCode c v e onP)).settle) := by
  have touched : ∀ h, (s.touchSession q h).cell c = s.cell c ∧ (s.touchSession q h).cfg = s.cfg := fun h => by
    unfold State.touchSession
    split <;> exact ⟨rfl, rfl⟩
  obtain ⟨cell, cfg⟩ := touched d.sess
  have shape : ¬ (fld (d.p 0) 31 10 ≠ 0 ∨ fld (d.p 1) 31 7 ≠ 0 ∨ (bit (d.p 1) 6 = true ∧ fld (d.p 1) 5 0 % 2 = 1)) := by
    rw [← ee, ← eo]
    rcases hp with hp | hp
    · simp [h0, h1, hp]
    · simp [h0, h1, hp]
  subst hu
  constructor
  · intro pl ok place
    show execCellMove q s = _
    unfold execCellMove
    rw [control_free hc, runCmd_runs _ hr]
    refine congrArg doneSettled ((if_neg shape).trans ?_)
    simp only [← ec, ← ee, ← eo, cell, hv, hs, if_true]
    rw [show ((s.touchSession q d.sess).markRan q d).cfg = s.cfg from cfg]
    refine (if_neg (not_not.mpr ok)).trans ?_
    split
    next found => cases place.symm.trans found; rfl
    next found => cases place.symm.trans found
  · intro refused
    show execCellMove q s = _
    unfold execCellMove
    rw [control_free hc, runCmd_runs _ hr]
    refine congrArg doneSettled ((if_neg shape).trans ?_)
    simp only [← ec, ← ee, ← eo, cell, hv, hs, if_true]
    rw [show ((s.touchSession q d.sess).markRan q d).cfg = s.cfg from cfg]
    exact if_pos refused

/-! ### Loads, the carry copy and the end of the cycle -/

theorem exchangeLoadDone_loads {c : Nat} {v : CellImg} {s : State} (hl : s.ho.step = .loading) (hc : s.ho.cell = c)
    (hn : (s.cell c).nver = some v) (hs : (s.cell c).st = .loading) : exec .exchangeLoadDone s = .next (s.finishLoad c v).settle := by
  subst hc
  show execExchangeLoadDone s = _
  unfold execExchangeLoadDone
  simp only [hl, hn, hs, if_true]
  rfl

theorem exchangeLoadDone_arms {c : Nat} {v w : CellImg} {s : State} (hl : s.ho.step = .loading) (hc : s.ho.cell = c)
    (hn : (s.cell c).nver = some v) (hw : (s.cell c).ver = some w) (hs : (s.cell c).st = .running) :
    exec .exchangeLoadDone s = .next ((s.writeAreas v ((s.cell c).neng / 4) (s.cell c).nslot (s.cell c).ncblk
         (s.cell c).nsblk).chooseInstant c v w).settle := by
  subst hc
  show execExchangeLoadDone s = _
  unfold execExchangeLoadDone
  simp only [hl, hn, hw, hs, if_true]
  rfl

theorem exchangeCarryCopy_copies {v w : CellImg} {s : State} (hs : s.ho.step = .waiting) (hw : (s.cell s.ho.cell).ver = some w)
    (hn : (s.cell s.ho.cell).nver = some v) :
    exec .exchangeCarryCopy s = if s.inGap w = true then doneSettled (s.carryOver s.ho.cell v w) else .next s := by
  show execExchangeCarryCopy s = _
  unfold execExchangeCarryCopy
  simp only [hs, hw, hn, true_and]

/-- In a hand-over cycle of a cell its end is judged by the longer of the two cycles (R297, R298). -/
theorem handoverEnd_cycle {v w : CellImg} {s : State} (hc : s.inHandCycle s.ho.cell = true) (hw : (s.cell s.ho.cell).ver = some w)
    (hn : (s.cell s.ho.cell).nver = some v) :
    exec .handoverEnd s = if s.past s.ho.x.toNat (max v.cycle w.cycle) then doneSettled (s.endCycle s.ho.cell v w) else .next s := by
  have kinds : ¬ (s.ho.step = .running ∧ (s.ho.kind = .split ∨ s.ho.kind = .merge)) := by
    rintro ⟨_, k⟩
    unfold State.inHandCycle State.handingOver at hc
    rcases k with k | k <;> simp [k] at hc
  show execHandoverEnd s = _
  unfold execHandoverEnd
  simp only [if_neg kinds, hc, if_true, hw, hn]

theorem handoverEnd_releases {k : Nat} {s : State} (hs : s.ho.step = .running) (hk : s.ho.pair = k) (ha : (s.eng (2 * k)).role = .halted)
    (hb : (s.eng (2 * k + 1)).role = .halted) :
    (s.ho.kind = .split → exec .handoverEnd s = .next (s.doSplit k).settle) ∧
    (s.ho.kind = .merge → exec .handoverEnd s = .next (s.doMerge k).settle) := by
  subst hk
  have both : ((s.eng (2 * s.ho.pair)).role == .halted && (s.eng (2 * s.ho.pair + 1)).role == .halted) = true := by
    rw [ha, hb]
    rfl
  constructor
  · intro hk
    refine (if_pos ⟨hs, .inl hk⟩).trans ?_
    exact congrArg doneSettled ((if_pos both).trans (if_pos hk))
  · intro hk
    refine (if_pos ⟨hs, .inr hk⟩).trans ?_
    exact congrArg doneSettled ((if_pos both).trans (if_neg (by rw [hk]; decide)))

/-! ### Instants -/

theorem tcmpCellExchange_acts {n : Fin 256} {c : Nat} {s u : State} (hd : s.due n = true) (hc : (s.chan n).code = 6)
    (hn : (s.chan n).use = .cell c) (hu : u = (s.fired n).updChan n (fun h => { h with use := .none })) (hh : u.handingOver c = true)
    (hs : u.ho.step = .waiting) : exec (.tcmpCellExchange n) s = .next (u.handInstant c).settle := by
  show doneSettled (s.fireIf n 6 _) = _
  rw [fireIf_due hd hc, hn, ← hu]
  exact congrArg doneSettled (if_pos (by rw [hh, hs]; rfl))

theorem tcmpHandover_acts {n : Fin 256} {c : Nat} {s u : State} (hd : s.due n = true) (hc : (s.chan n).code = 8)
    (hn : (s.chan n).use = .cell c) (hu : u = (s.fired n).updChan n (fun h => { h with use := .none })) (hh : u.handingOver c = true)
    (hs : u.ho.step = .waiting) : exec (.tcmpHandover n) s = .next (u.handInstant c).settle := by
  show doneSettled (s.fireIf n 8 _) = _
  rw [fireIf_due hd hc, hn, ← hu]
  exact congrArg doneSettled (if_pos (by rw [hh, hs]; rfl))

theorem tcmpHandover_pair {n : Fin 256} {k : Nat} {s u : State} (hd : s.due n = true) (hc : (s.chan n).code = 8)
    (hn : (s.chan n).use = .pair k) (hu : u = (s.fired n).updChan n (fun h => { h with use := .none })) (hs : u.ho.step = .waiting)
    (hk : u.ho.pair = k) : (u.ho.kind = .split → exec (.tcmpHandover n) s = .next (u.haltPair k).settle) ∧
      (u.ho.kind = .merge → exec (.tcmpHandover n) s = .next (u.beginMerge k).settle) := by
  have run : exec (.tcmpHandover n) s = doneSettled (if u.ho.step = .waiting ∧ u.ho.pair = k ∧ u.ho.kind = .split then u.haltPair k
      else if u.ho.step = .waiting ∧ u.ho.pair = k ∧ u.ho.kind = .merge then u.beginMerge k else u) := by
    show doneSettled (s.fireIf n 8 _) = _
    rw [fireIf_due hd hc, hn, ← hu]
  constructor
  · intro h
    rw [run, if_pos ⟨hs, hk, h⟩]
    rfl
  · intro h
    rw [run, if_neg (by rw [h]; rintro ⟨_, _, e⟩; cases e), if_pos ⟨hs, hk, h⟩]
    rfl

/-! ### Checks of an exchange, and the engines of a split or merge -/

theorem exchangeCode_same {c : Nat} {v w : CellImg} {s : State} (h : v.sig = w.sig) : s.exchangeCode c v w = 0x38 := if_pos h

theorem exchangeCode_elsewhere {c : Nat} {v w : CellImg} {s : State} (h : v.sig ≠ w.sig) (he : v.eng ≠ w.eng) :
    s.exchangeCode c v w = 0x36 :=
  (if_neg h).trans (if_pos (.inr (.inl he)))

theorem manned_hoLog (s : State) (a : LogArg) : Manned s (s.hoLog a) := by
  unfold State.hoLog
  extract_lets h t
  exact (books_log s _).manned

theorem manned_hoEnd (s : State) (code : Nat) : Manned s (s.hoEnd code) :=
  (show Manned s { s with ho := { s.ho with step := .idle } } from manned_of rfl rfl rfl rfl).trans (manned_hoFinish _ code)

theorem updEng_epair (s : State) (e k : Nat) (f : Engine → Engine) : (s.updEng e f).epair k = s.epair k := rfl

theorem event_epair (s : State) (e n k : Nat) : (s.event e n).epair k = s.epair k := by
  unfold State.event State.when
  extract_lets h t
  split <;> rfl

/-- Two neighbouring engines put by `f` and `g`: each holds its own. -/
theorem updEng_both (s : State) (k : Nat) (f g : Engine → Engine) :
    (((s.updEng (2 * k) f).updEng (2 * k + 1) g).eng (2 * k)) = f (s.eng (2 * k)) ∧
    (((s.updEng (2 * k) f).updEng (2 * k + 1) g).eng (2 * k + 1)) = g (s.eng (2 * k + 1)) := by
  constructor
  · rw [eng_updEng, if_neg (by omega), eng_updEng_same]
  · rw [eng_updEng_same, eng_updEng, if_neg (by omega)]

theorem eng_of_engs {s t : State} (h : t.engs = s.engs) (e : Nat) : t.eng e = s.eng e := by
  unfold State.eng
  rw [h]

theorem setPair_formed (s : State) (k : Nat) (st : PState) : ((s.setPair k st).epair k).formed = (s.epair k).formed := by
  unfold State.setPair
  split
  · rfl
  · have same : ∀ (r : Regs) (reg i : Nat) (u : State), (({ u with regs := r } : State).mark reg i).epair k = u.epair k := fun _ _ _ _ => rfl
    rw [same, epair_updEPair_same]
    rfl

/-- At H both engines of a pair are halted, and the pair is in HANDOVER (R232, R233). -/
theorem haltPair_halts (k : Nat) (s : State) :
    ((s.haltPair k).eng (2 * k)).role = .halted ∧ ((s.haltPair k).eng (2 * k + 1)).role = .halted ∧
    ((s.haltPair k).epair k).formed = false ∧ (s.haltPair k).ho.step = .running ∧
    ((s.epair k).st ≠ .debug → ((s.haltPair k).epair k).st = .handover) := by
  unfold State.haltPair
  extract_lets t halt u v w
  have st : (u.epair k).st = (s.epair k).st := by
    rw [show u = (t.updEng (2 * k) halt).updEng (2 * k + 1) halt from rfl, updEng_epair, updEng_epair,
      show t = (s.event (2 * k) 0x11).event (2 * k + 1) 0x11 from rfl, event_epair, event_epair]
  clear_value t
  obtain ⟨even, odd⟩ := updEng_both t k halt halt
  have pair : v.epair k = { u.epair k with formed := false, l := none, f := none } := epair_updEPair_same u k _
  have moved : w.engs = v.engs ∧ (w.epair k).formed = (v.epair k).formed ∧ ((s.epair k).st ≠ .debug → (w.epair k).st = .handover) := by
    by_cases hd : ((v.epair k).st != .debug) = true
    · rw [show w = v.setPair k .handover from by rw [show w = v.when _ _ from rfl, hd, when_true]]
      obtain ⟨engs, _, sets, _, _⟩ := setPair_sets v k .handover
      exact ⟨engs, setPair_formed v k .handover, fun _ => sets⟩
    · rw [show w = v from when_no (Bool.eq_false_iff.mpr hd)]
      refine ⟨rfl, rfl, fun h => absurd ?_ hd⟩
      rw [pair, show ({ u.epair k with formed := false, l := none, f := none } : EPair).st = (s.epair k).st from st]
      simpa using h
  obtain ⟨engs, formed, goes⟩ := moved
  have eng : ∀ e, w.eng e = u.eng e := eng_of_engs engs
  refine ⟨?_, ?_, formed.trans (congrArg EPair.formed pair), rfl, goes⟩
  · show (w.eng _).role = _
    rw [eng, show u.eng (2 * k) = _ from even]
  · show (w.eng _).role = _
    rw [eng, show u.eng (2 * k + 1) = _ from odd]

/-- At the release of a split both engines are SINGLE and the pair is SPLIT (R232). -/
theorem doSplit_splits (k : Nat) (s : State) :
    ((s.doSplit k).eng (2 * k)).role = .single ∧ ((s.doSplit k).eng (2 * k + 1)).role = .single ∧ ((s.doSplit k).epair k).st = .split := by
  unfold State.doSplit
  extract_lets cells odd t alone u v w
  obtain ⟨even, uneven⟩ := updEng_both t k alone alone
  have cellsMoved : Manned u v := manned_foldl _ (fun s c => manned_updCell s c _) cells u
  obtain ⟨engs, _, st, _, _⟩ := setPair_sets v k .split
  have last : Manned (v.setPair k .split) ((w.hoLog { kind := 9, d12 := BitVec.ofNat 32 k }).hoEnd 0) :=
    ((manned_pairEvt _ 7).trans (manned_hoLog _ _)).trans (manned_hoEnd _ 0)
  rw [last.eng, last.eng, last.epair, eng_of_engs engs, eng_of_engs engs, cellsMoved.eng, cellsMoved.eng]
  exact ⟨congrArg Engine.role even, congrArg Engine.role uneven, st⟩

/-- At the release of a merge the pair has a leader and a follower (R233). -/
theorem doMerge_merges (k : Nat) (s : State) :
    ((s.doMerge k).eng (2 * k)).role = .leader ∧ ((s.doMerge k).eng (2 * k + 1)).role = .follower ∧
    ((s.epair k).st ≠ .debug → ((s.doMerge k).epair k).st = .paired) := by
  unfold State.doMerge
  extract_lets a ctx _ put t moved u v
  obtain ⟨even, odd⟩ := updEng_both s k _ _
  have cellsMoved : Manned t v :=
    (manned_foldl _ (fun s c => manned_updCell s c _) moved t).trans
      (manned_foldl _ (fun s c => manned_when ((manned_rebuild s c).trans (manned_setCell _ c .safe))) _ u)
  have pairs : v.epair k = s.epair k := cellsMoved.epair k
  have engs : ∀ e, (v.when ((v.epair k).st != .debug) (fun s => s.setPair k .paired)).eng e = t.eng e := fun e => by
    refine Eq.trans ?_ (cellsMoved.eng e)
    unfold State.when
    split
    · exact eng_of_engs (setPair_sets v k .paired).1 e
    · rfl
  refine ⟨?_, ?_, fun h => ?_⟩
  · exact congrArg Engine.role ((engs _).trans even)
  · exact congrArg Engine.role ((engs _).trans odd)
  · have calm : ((v.epair k).st != .debug) = true := by rw [pairs]; simpa using h
    rw [calm, when_true]
    exact (setPair_sets v k .paired).2.2.1


/-! ### The obligation -/

/-- Settles O45. -/
theorem cellCommandsAndHandovers : Obligations.CellCommandsAndHandovers := by
  refine ⟨⟨?_, ?_, ?_, ?_, ?_, ?_, ?_, ?_, ?_, ?_⟩, ?_, ?_, ?_, ?_, ?_, ?_⟩
  · exact fun q s h => controlBusy h
  · exact fun q d s hc hr h0 h1 h20 hl => cellExchange_begins hc hr h0 h1 h20 hl
  · exact fun c v w s => ⟨exchangeCode_same, exchangeCode_elsewhere⟩
  · exact fun c rest s hr hl => exchangeNext_lost hr hl
  · exact fun c e v w rest pl s u hr hl hv hw hs he hu hk hp => exchangeNext_prepares hr hl hv hw hs he hu hk hp
  · intro q c e onP d v pl s u hc hr h0 h1 ec ee eo hp hv hs hu
    obtain ⟨prepares, refuses⟩ := cellMove_runs hc hr h0 h1 ec ee eo hp hv hs hu
    exact ⟨prepares pl, refuses⟩
  · rintro c v _ s hl hc rfl hn hs
    exact exchangeLoadDone_loads hl hc hn hs
  · exact fun c v w s hl hc hn hw hs => exchangeLoadDone_arms hl hc hn hw hs
  · intro v w s hs hk hw hn
    have run := exchangeCarryCopy_copies hs hw hn
    refine ⟨fun gap => ?_, fun gap => ?_⟩
    · rw [run, if_pos gap]
      unfold State.carryOver
      simp only [hk, reduceCtorEq, if_false]
      rfl
    · rw [run, if_neg (by rw [gap]; decide)]
  · intro v w s hc hw hn
    have run := handoverEnd_cycle hc hw hn
    refine ⟨fun past => ?_, fun past => ?_⟩
    · rw [run, if_pos past]
      rfl
    · rw [run, if_neg (by rw [past]; decide)]
  · exact fun n c s u hd hc hn hu hh hs => tcmpCellExchange_acts hd hc hn hu hh hs
  · exact fun n c s u hd hc hn hu hh hs => tcmpHandover_acts hd hc hn hu hh hs
  · exact fun n k s u hd hc hn hu hs hk => tcmpHandover_pair hd hc hn hu hs hk
  · exact haltPair_halts
  · exact fun k s hs hk ha hb => handoverEnd_releases hs hk ha hb
  · intro k s
    obtain ⟨even, odd, split⟩ := doSplit_splits k s
    obtain ⟨leader, follower, paired⟩ := doMerge_merges k s
    exact ⟨even, odd, split, leader, follower, paired⟩

end Sys2Proof.Laws
end

section
/-! Splits, merges, restarts and resets of units on the host's command (R231, R306, R469, R470). -/

namespace Sys2Proof.Laws

open Sys2Proof Sys2Proof.Machine Sys2Proof.Safety

/-! ### Splits and merges -/

theorem touchSession_now (s : State) (q : Nat) (h : Half) : (s.touchSession q h).now = s.now := by
  unfold State.touchSession
  split <;> rfl

theorem touchSession_cell (s : State) (q : Nat) (h : Half) (c : Nat) : (s.touchSession q h).cell c = s.cell c := by
  unfold State.touchSession
  split <;> rfl


theorem pairSplit_begins {q : Fin 64} {d : Desc} {s u : State} (hc : s.controlFree = true) (hr : CanRun s q 0x22 .maint d)
    (h0 : fld (d.p 0) 31 5 = 0) (h1 : fld (d.p 1) 31 5 = 0) (hn : fld (d.p 1) 4 0 ≤ 18) (hl : d.cellListOk 2 (fld (d.p 1) 4 0) = true)
    (hu : u = { (s.touchSession q d.sess).markRan q d with ho := { step := .idle, kind := .split, pair := fld (d.p 0) 4 0, qp := q, odd := d.cellList 2 (fld (d.p 1) 4 0), at_ := s.now } }) :
    (∀ code : Nat, u.splitCode (fld (d.p 0) 4 0) (d.cellList 2 (fld (d.p 1) 4 0)) = code → code ≠ 0 →
      exec (.pairSplit q) s = .next (u.hoEnd code).settle) ∧
    (∀ h : Nat, u.splitCode (fld (d.p 0) 4 0) (d.cellList 2 (fld (d.p 1) 4 0)) = 0 → u.pairBoundary (fld (d.p 0) 4 0) = some h →
      exec (.pairSplit q) s = .next (u.armHand h 8 (.pair (fld (d.p 0) 4 0))).settle) := by
  rw [← touchSession_now s q d.sess] at hu
  have shape : ¬ (fld (d.p 0) 31 5 ≠ 0 ∨ fld (d.p 1) 31 5 ≠ 0 ∨ 18 < fld (d.p 1) 4 0 ∨ (!d.cellListOk 2 (fld (d.p 1) 4 0)) = true) := by
    rw [hl]
    simp only [Bool.not_true, Bool.false_eq_true, or_false]
    omega
  constructor
  · rintro _ rfl refused
    show execPairSplit q s = _
    unfold execPairSplit
    rw [control_free hc, runCmd_runs _ hr]
    refine congrArg doneSettled ((if_neg shape).trans ?_)
    extract_lets m odd n code
    have same : n = u := hu.symm
    simp only [code, odd, same]
    exact if_pos refused
  · intro h ok at_
    show execPairSplit q s = _
    unfold execPairSplit
    rw [control_free hc, runCmd_runs _ hr]
    refine congrArg doneSettled ((if_neg shape).trans ?_)
    extract_lets m odd n code
    have same : n = u := hu.symm
    simp only [code, odd, same, if_neg (not_not.mpr ok)]
    rw [at_]

theorem pairMerge_begins {q : Fin 64} {a b i : Bool} {d : Desc} {s u : State} (hc : s.controlFree = true) (hr : CanRun s q 0x23 .maint d)
    (h0 : fld (d.p 0) 31 5 = 0)
    (hu : u = { (s.touchSession q d.sess).markRan q d with ho := { step := .idle, kind := .merge, pair := fld (d.p 0) 4 0, qp := q, at_ := s.now } }) :
    (u.mergeCode (fld (d.p 0) 4 0) ≠ 0 →
      exec (.pairMerge q a b i) s = .next (u.hoEnd (u.mergeCode (fld (d.p 0) 4 0))).settle) ∧
    (∀ (h : Nat) (w : State), u.mergeCode (fld (d.p 0) 4 0) = 0 → a = true → b = true → i = true →
      w = u.when (!u.carries (2 * fld (d.p 0) 4 0) || !u.carries (2 * fld (d.p 0) 4 0 + 1)) (fun s => s.abandonRun (fld (d.p 0) 4 0 / 8)) →
      w.pairBoundary (fld (d.p 0) 4 0) = some h →
        exec (.pairMerge q a b i) s = .next (w.armHand h 8 (.pair (fld (d.p 0) 4 0))).settle) := by
  rw [← touchSession_now s q d.sess] at hu
  constructor
  · intro refused
    show execPairMerge q a b i s = _
    unfold execPairMerge
    rw [control_free hc, runCmd_runs _ hr]
    refine congrArg doneSettled ((if_neg (not_not.mpr h0)).trans ?_)
    extract_lets m n code run failE failO
    have same : n = u := hu.symm
    simp only [code, same]
    exact if_pos refused
  · rintro h w ok rfl rfl rfl hw hb
    show execPairMerge q true true true s = _
    unfold execPairMerge
    rw [control_free hc, runCmd_runs _ hr]
    refine congrArg doneSettled ((if_neg (not_not.mpr h0)).trans ?_)
    extract_lets m n code run failE failO
    have same : n = u := hu.symm
    have runs : run = w := by rw [hw, ← same]
    simp only [code, failE, failO, runs, same, if_neg (not_not.mpr ok), Bool.not_true, Bool.and_false, Bool.or_false, Bool.false_eq_true, if_false]
    rw [hb]

theorem splitCode_unpaired {k : Nat} {odd : List Nat} {s : State} (hd : (s.epair k).st ≠ .debug) (hb : s.pairBusy (2 * k) = false)
    (hp : (s.epair k).st ≠ .paired) : s.splitCode k odd = 0x39 := by
  have calm : ((s.epair k).st == .debug) = false := by simpa using hd
  unfold State.splitCode
  rw [hb, calm]
  exact if_pos (Or.inl hp)

/-! ### Restarts -/

theorem cellRestart_refuses {q : Fin 64} {d : Desc} {s : State} (hc : s.controlFree = true) (hr : CanRun s q 0x24 .maint d)
    (h0 : fld (d.p 0) 31 10 = 0) (hs : (s.cell (fld (d.p 0) 9 0)).st ≠ .held) :
    exec (.cellRestart q) s = .next ((s.touchSession q d.sess).complete q d { status := 0x30 }).settle := by
  show execCellRestart q s = _
  unfold execCellRestart
  rw [control_free hc, runCmd_runs _ hr]
  refine congrArg doneSettled ((if_neg (not_not.mpr h0)).trans (if_pos (Or.inl ?_)))
  rw [touchSession_cell]
  exact hs

theorem cellRestart_loads {q : Fin 64} {c : Nat} {d : Desc} {v w : CellImg} {x : CellS} {sl cb sb : Nat} {s u t r : State}
    (hc : s.controlFree = true) (hr : CanRun s q 0x24 .maint d) (h0 : fld (d.p 0) 31 10 = 0) (ec : c = fld (d.p 0) 9 0)
    (hu : u = s.touchSession q d.sess) (hx : u.cell c = x) (hs : x.st = .held) (he : x.dEng = false) (hp : u.placeUp x.eng x.onP = true)
    (hv : u.committed.cell c = some v) (hw : x.ver = some w)
    (ht : t = (u.freeAreas w (x.eng / 4) x.cblk x.sblk).updCell c (fun y => { y with st := .loading }))
    (hf : t.findPlace v (x.eng / 4) false = some (sl, cb, sb)) (ho : u.ownershipOk c v = true)
    (hl : r = ((((t.adopt c v u.committed).updCell c (fun y => { y with st := .held })).wakeSingle x.eng x.onP).loadCell c v x.eng x.onP sl cb sb).log
        { kind := 12, role := (u.sessionTag q d.sess).1, handle := (u.sessionTag q d.sess).2, cell := some c,
          oldSig := w.sig, newSig := v.sig, bankSeq := u.winSeq, site := u.cellSite c }) :
    exec (.cellRestart q) s = .next (r.complete q d {}).settle := by
  show execCellRestart q s = _
  unfold execCellRestart
  rw [control_free hc, runCmd_runs _ hr, ← hu]
  refine congrArg doneSettled ((if_neg (not_not.mpr h0)).trans ?_)
  rw [← ec]
  refine (if_neg ?_).trans ?_
  · rw [hx, hs, he, hp]
    decide
  · simp only [hx, hv, hw, Option.isSome_some, if_true]
    rw [← ht, hf, ho, hl]
    simp only [Bool.not_true, Bool.false_eq_true, if_false]

/-! ### Resets of units -/

theorem unitReset_runs {q : Fin 64} {x : Retest} {d : Desc} {s u : State} (hr : CanRun s q 0x25 .maint d) (h0 : fld (d.p 0) 31 19 = 0)
    (hu : u = s.touchSession q d.sess) :
    exec (.unitReset q x) s = doneSettled (
      if u.resetCode (u.targetOf (d.p 0)) ≠ 0 then u.complete q d { status := u.resetCode (u.targetOf (d.p 0)) }
      else if (u.targetOf (d.p 0)).regionOf.any (fun r => !u.regionUp r) then u.markRan q d
      else match u.targetOf (d.p 0) with
        | .region r => ((u.resetTarget (u.targetOf (d.p 0)) x.pass x.elements x.sources).resetEnds q d (u.resetPasses (u.targetOf (d.p 0)) x.pass x.elements x.sources)).endAbsorbed r
        | _ => (u.resetTarget (u.targetOf (d.p 0)) x.pass x.elements x.sources).resetEnds q d (u.resetPasses (u.targetOf (d.p 0)) x.pass x.elements x.sources)) := by
  show execUnitReset q x s = _
  unfold execUnitReset
  rw [runCmd_runs _ hr, ← hu]
  exact congrArg doneSettled (if_neg (not_not.mpr h0))

theorem setPair_units (s : State) (k : Nat) (st : PState) : (s.setPair k st).units = s.units := by
  unfold State.setPair
  split <;> rfl

theorem refreshPair_isOut (s : State) (k n : Nat) : (s.refreshPair k).isOut n = s.isOut n := by
  have units : (s.refreshPair k).units = s.units := by
    unfold State.refreshPair
    split
    · rfl
    · exact setPair_units s k _
  unfold State.isOut State.unit
  rw [units]

theorem refreshPair_eng (s : State) (k e : Nat) : (s.refreshPair k).eng e = s.eng e := eng_of_engs (refreshPair_keeps s k).1 e

theorem resetEngine_passes (e : Nat) (s : State) :
    (s.resetEngine e true).eng e = { role := .idle, tested := s.now } ∧ (s.resetEngine e true).isOut (siteEngine e) = false := by
  unfold State.resetEngine
  rw [if_pos rfl]
  dsimp only
  rw [refreshPair_eng, refreshPair_isOut, eng_updEng_same]
  refine ⟨rfl, ?_⟩
  show ((s.putBack (siteEngine e)).unit (siteEngine e)).oos = false
  unfold State.putBack
  rw [unit_updUnit_same]

theorem resetEngine_fails {e : Nat} {s : State} (h : (s.eng e).role = .idle) :
    ((s.resetEngine e false).eng e).role = .out ∧ (s.resetEngine e false).isOut (siteEngine e) = true := by
  unfold State.resetEngine
  rw [if_neg (by decide)]
  dsimp only
  have tested : Manned s (s.selfTestFail e) := (manned_record s _).trans (manned_pairEvt _ 1)
  obtain ⟨role, out, _⟩ := engineOut_goes (s := s.selfTestFail e) (e := e) (s.selfTestFail e).lastSeq (by rw [tested.eng, h]; decide)
  rw [refreshPair_eng, refreshPair_isOut]
  exact ⟨role, out⟩

/-! ### The obligation -/

/-- Settles O46. -/
theorem pairAndUnitCommands : Obligations.PairAndUnitCommands := by
  refine ⟨?_, ?_, ?_, ?_, ?_, ?_, ?_, ?_⟩
  · exact fun q d s u hc hr h0 h1 hn hl hu => pairSplit_begins hc hr h0 h1 hn hl hu
  · exact fun q a b i d s u hc hr h0 hu => pairMerge_begins hc hr h0 hu
  · exact fun k odd s hd hb hp => splitCode_unpaired hd hb hp
  · exact fun q d s hc hr h0 hs => cellRestart_refuses hc hr h0 hs
  · exact fun q c d v w x sl cb sb s u t r hc hr h0 ec hu hx hs he hp hv hw ht hf ho hl =>
      cellRestart_loads hc hr h0 ec hu hx hs he hp hv hw ht hf ho hl
  · intro q pass els tps d t s u r hr h0 hu ht hl
    have run := unitReset_runs (x := ⟨pass, els, tps⟩) hr h0 hu
    rw [← ht] at run
    refine ⟨fun bad => ?_, fun ok g hg => ⟨fun down => ?_, fun up => ?_⟩, fun ok none_ other => ?_, fun g ok hg => ?_⟩
    · rw [run, if_pos bad]
      rfl
    · rw [run, if_neg (not_not.mpr ok), hg, if_pos (by simp [down])]
      rfl
    · rw [run, if_neg (not_not.mpr ok), hg, if_neg (by simp [up]), ← hl]
      cases t with
      | region g => cases hg
      | _ => rfl
    · rw [run, if_neg (not_not.mpr ok), none_, if_neg (by simp), ← hl]
      cases t with
      | region g => exact absurd rfl (other g)
      | _ => rfl
    · subst hg
      rw [run, if_neg (not_not.mpr ok), if_neg (by simp [Target.regionOf]), ← hl]
      rfl
  · exact fun q d s ok => rfl
  · exact fun e s => ⟨(resetEngine_passes e s).1, (resetEngine_passes e s).2, resetEngine_fails⟩

end Sys2Proof.Laws
end

section
/-! Wilis frames, their timers and the Ethernet ports (R345 to R361). -/

namespace Sys2Proof.Laws

open Sys2Proof Sys2Proof.Machine Sys2Proof.Safety

/-! ### Received frames -/

/-- A frame that no connection takes changes nothing more (R347). -/
theorem data_unclaimed {m : Fin 4} {x : Encap} {f : List Byte} {s u : State} (h : s.admitFrame m x f ftData = (none, u)) :
    exec (.data m x f) s = .next u.settle := by
  show execData m x f s = _
  unfold execData
  rw [h]
  rfl

/-- What a DATA frame of a connection does, its watchdog first (R347, R351, R358). -/
theorem data_taken {m : Fin 4} {x : Encap} {f : List Byte} {n : Nat} {s u : State} (h : s.admitFrame m x f ftData = (some n, u)) :
    exec (.data m x f) s = doneSettled (
      if u.wdDue n then (u.failConn n 1).discard m 9 (some n)
      else if (u.conn n).st ≠ .open then u.discard m 9 (some n)
      else if !u.freshFrame n f then u.discard m 8 (some n)
      else if (fSeq f - (u.conn n).rx).toNat = 0 then (u.discard m 9 (some n)).alive n (fPath f)
      else if (fSeq f - (u.conn n).rx).toNat ≤ 32767 then ((u.acceptData n f).macStat m 5).alive n (fPath f)
      else u.discard m 9 (some n)) := by
  show execData m x f s = _
  unfold execData
  rw [h]
  simp only [apply_ite doneSettled]

theorem data_open {m : Fin 4} {x : Encap} {f : List Byte} {n : Nat} {s u : State} (h : s.admitFrame m x f ftData = (some n, u))
    (hw : u.wdDue n = false) (ho : (u.conn n).st = .open) (hf : u.freshFrame n f = true) :
    (1 ≤ (fSeq f - (u.conn n).rx).toNat → (fSeq f - (u.conn n).rx).toNat ≤ 32767 →
      exec (.data m x f) s = .next (((u.acceptData n f).macStat m 5).alive n (fPath f)).settle) ∧
    (fSeq f = (u.conn n).rx → exec (.data m x f) s = .next ((u.discard m 9 (some n)).alive n (fPath f)).settle) ∧
    (32767 < (fSeq f - (u.conn n).rx).toNat → exec (.data m x f) s = .next (u.discard m 9 (some n)).settle) := by
  have run := data_taken h
  rw [hw, hf, if_neg Bool.false_ne_true, if_neg (not_not.mpr ho), if_neg (by decide)] at run
  refine ⟨fun newer near => ?_, fun same => ?_, fun far => ?_⟩
  · rw [run, if_neg (by omega), if_pos near]
    rfl
  · rw [run, if_pos (by rw [same, BitVec.sub_self]; rfl)]
    rfl
  · rw [run, if_neg (by omega), if_neg (by omega)]
    rfl

theorem acceptData_takes (n : Nat) (f : List Byte) (s : State) : ((s.acceptData n f).conn n).rx = fSeq f ∧
    ((s.acceptData n f).conn n).stamp = fStamp f ∧ ((s.acceptData n f).conn n).valid = true ∧
    ((s.acceptData n f).conn n).passv = fSafe f ∧ ((s.acceptData n f).conn n).rxAt = s.now := by
  unfold State.acceptData
  extract_lets d pass was
  rw [conn_updConn_same]
  exact ⟨rfl, rfl, rfl, rfl, rfl⟩

theorem connect_unclaimed {m : Fin 4} {x : Encap} {f : List Byte} {s u : State} (h : s.admitFrame m x f ftConnect = (none, u)) :
    exec (.connect m x f) s = .next (u.rejectUnknown m x f).settle := by
  show execConnect m x f s = _
  unfold execConnect
  rw [h]
  rfl

theorem connect_answers {m : Fin 4} {x : Encap} {f : List Byte} {n : Nat} {s u : State} (h : s.admitFrame m x f ftConnect = (some n, u))
    (hr : u.connResp n = true) (hf : u.freshFrame n f = true) (hs : (u.conn n).st = .connecting ∨ (u.conn n).st = .open) :
    (fData f 0 = u.connParam n → exec (.connect m x f) s = .next (((u.sendFrame n ftAccept false u.startSeq [u.connParam n]).openConn n u.startSeq (fSeq f) (fStamp f)).macStat m 5).settle) ∧
    (fData f 0 ≠ u.connParam n → exec (.connect m x f) s = .next (((u.sendFrame n ftReject false u.startSeq [1]).failConn n 4).macStat m 5).settle) := by
  have waits : ¬ ((u.conn n).st ≠ .connecting ∧ (u.conn n).st ≠ .open) := fun ⟨a, b⟩ => hs.elim a b
  constructor
  · intro param
    show execConnect m x f s = _
    unfold execConnect
    rw [h]
    simp only [hr, hf, waits, param, Bool.not_true, Bool.false_eq_true, if_false, if_true]
    rfl
  · intro param
    show execConnect m x f s = _
    unfold execConnect
    rw [h]
    simp only [hr, hf, waits, param, Bool.not_true, Bool.false_eq_true, if_false]
    rfl

theorem accept_opens {m : Fin 4} {x : Encap} {f : List Byte} {n : Nat} {s u : State} (h : s.admitFrame m x f ftAccept = (some n, u))
    (hr : u.connResp n = false) (hf : u.freshFrame n f = true) (hs : (u.conn n).st = .connecting) (hp : fData f 0 = u.connParam n) :
    exec (.accept m x f) s = .next ((u.openConn n (u.conn n).tx (fSeq f) (fStamp f)).macStat m 5).settle := by
  show execAccept m x f s = _
  unfold execAccept
  rw [h]
  simp only [hr, hf, hs, hp, Bool.not_true, Bool.false_eq_true, if_false, and_self, if_true]
  rfl

theorem reject_fails {m : Fin 4} {x : Encap} {f : List Byte} {n : Nat} {s u : State} (h : s.admitFrame m x f ftReject = (some n, u))
    (hr : u.connResp n = false) (hf : u.freshFrame n f = true) (hs : (u.conn n).st = .connecting ∨ (u.conn n).st = .open) :
    exec (.reject m x f) s = .next ((u.failConn n (if fData f 0 = 1 then 4 else 5)).macStat m 5).settle := by
  show execReject m x f s = _
  unfold execReject
  rw [h]
  simp only [hr, hf, hs, Bool.not_true, Bool.false_eq_true, if_false, if_true]
  rfl

theorem close_fails {m : Fin 4} {x : Encap} {f : List Byte} {n : Nat} {s u : State} (h : s.admitFrame m x f ftClose = (some n, u)) :
    ((u.conn n).st = .open → exec (.close m x f) s = .next ((u.failConn n 6).macStat m 5).settle) ∧
    ((u.conn n).st ≠ .open → exec (.close m x f) s = .next (u.discard m 9 (some n)).settle) := by
  constructor
  · intro opened
    show execClose m x f s = _
    unfold execClose
    rw [h]
    exact if_pos opened
  · intro shut
    show execClose m x f s = _
    unfold execClose
    rw [h]
    exact if_neg shut

theorem wlEvt_conn (s : State) (i n : Nat) : (s.wlEvt i).conn n = s.conn n := rfl

theorem openConn_opens (n : Nat) (tx rx : Half) (st : Word) (s : State) :
    ((s.openConn n tx rx st).conn n).st = .open ∧ ((s.openConn n tx rx st).conn n).tx = tx ∧ ((s.openConn n tx rx st).conn n).rx = rx ∧
    ((s.openConn n tx rx st).conn n).valid = false ∧ ((s.openConn n tx rx st).conn n).first = true := by
  unfold State.openConn
  rw [wlEvt_conn, conn_updConn_same]
  exact ⟨rfl, rfl, rfl, rfl, rfl⟩

theorem failConn_fails (n code : Nat) (s : State) :
    ((s.failConn n code).conn n).st = .failed ∧ ((s.failConn n code).conn n).valid = false ∧
    ((s.failConn n code).conn n).code = BitVec.ofNat 8 code := by
  unfold State.failConn
  rw [wlEvt_conn, conn_updConn_same]
  exact ⟨rfl, rfl, rfl⟩

/-! ### Sends and timers -/

theorem dataTransmit_sends {c : Fin 1024} {s : State} (ho : (s.conn c).st = .open) (hd : s.txDue c = true) :
    exec (.wilisDataTransmit c) s = .next ((s.updConn c (fun k => { k with tx := k.tx + 1, txAt := some s.now })).sendFrame c ftData (s.passive c)
      ((s.conn c).tx + 1) ((List.range (s.connTx c)).map (fun j => if s.passive c then 0 else Tab.get 0 (s.conn c).out j ||| Tab.get 0 (s.conn c).cmdOr j))).settle :=
  if_pos ⟨ho, hd⟩

theorem dataTransmit_rests {c : Fin 1024} {s : State} (h : (s.conn c).st ≠ .open ∨ s.txDue c = false) :
    exec (.wilisDataTransmit c) s = .next s :=
  if_neg (fun ⟨ho, hd⟩ => h.elim (fun k => k ho) (fun k => Bool.false_ne_true (k.symm.trans hd)))

theorem connectTransmit_sends {c : Fin 1024} {s : State} (hs : (s.conn c).st = .connecting) (hr : s.connResp c = false) (hd : s.txDue c = true) :
    exec (.connectTransmit c) s = .next ((s.updConn c (fun k => { k with tx := s.startSeq, txAt := some s.now })).sendFrame c ftConnect false s.startSeq [s.connParam c]).settle :=
  if_pos ⟨hs, hr, hd⟩

theorem watchdogExpiry_acts (c : Fin 1024) (s : State) :
    (s.wdDue c = true → exec (.wilisWatchdogExpiry c) s = .next (s.failConn c 1).settle) ∧
    (s.wdDue c = false → exec (.wilisWatchdogExpiry c) s = .next s) :=
  ⟨fun h => if_pos h, fun h => if_neg (by rw [h]; decide)⟩

theorem pathDown_first {c : Fin 1024} {s : State} (ho : (s.conn c).st = .open) (hw : s.wdDue c = false) (hd : s.connDual c = true)
    (hp : s.pathDue c false = true) (hu : (s.conn c).up1 = false) :
    exec (.pathDown c false) s = .next ((s.updConn c (fun k => { k with up0 := false, code := 2 })).wlEvt 2).settle := by
  refine (if_neg (by rw [hw]; decide)).trans ((if_pos (by rw [ho, hd, hp]; decide)).trans ?_)
  exact congrArg doneSettled (when_no hu)

theorem failedRetry_acts {c : Fin 1024} {s : State} (hs : (s.conn c).st = .failed) (hp : s.past (s.conn c).since (s.connWd c) = true) :
    exec (.failedRetry c) s = .next (s.updConn c (fun k => k.enter .connecting s.now)).settle :=
  if_pos ⟨hs, hp⟩

/-! ### Ethernet ports -/

theorem frameReceive_judged {m : Fin 4} {f : List Byte} {pause : Bool} {s : State} (he : (s.mac m).en = true) (hl : (s.mac m).link = true) :
    exec (.ethernetFrameReceive m f false pause) s = .next (((s.macStat m 0).macStat m 1).macEvt m 2).settle ∧
    (f.length < 60 → exec (.ethernetFrameReceive m f true pause) s = .next ((s.macStat m 0).macStat m 2).settle) ∧
    (60 ≤ f.length → f.length ≤ 1518 →
      exec (.ethernetFrameReceive m f true false) s = .next ((s.macStat m 0).deliver m f).settle ∧
      exec (.ethernetFrameReceive m f true true) s = .next (((s.macStat m 0).macStat m 3).macEvt m 3).settle) := by
  have arrives : ((s.mac m).en && (s.mac m).link) = true := by
    rw [he, hl]
    rfl
  have run : ∀ fcs p, exec (.ethernetFrameReceive m f fcs p) s = doneSettled (
      if !fcs then ((s.macStat m 0).macStat m 1).macEvt m 2
      else if f.length < 60 ∨ 1518 < f.length then (s.macStat m 0).macStat m 2
      else if p then ((s.macStat m 0).macStat m 3).macEvt m 3
      else (s.macStat m 0).deliver m f) := fun fcs p => by
    show execEthernetFrameReceive m f fcs p s = _
    unfold execEthernetFrameReceive
    simp only [arrives, if_true, apply_ite doneSettled]
  refine ⟨by rw [run]; rfl, fun short => ?_, fun low high => ?_⟩
  · rw [run, if_neg (by decide), if_pos (.inl short)]
    rfl
  · have fits : ¬ (f.length < 60 ∨ 1518 < f.length) := by omega
    rw [run, run, if_neg (by decide), if_neg fits, if_neg (by decide), if_neg fits]
    exact ⟨rfl, rfl⟩

theorem deliver_queues {m q : Nat} {f : List Byte} {s : State} (h : s.netQp m = some q) :
    s.deliver m f = { s with hif := { s.hif with rx := s.hif.rx ++ [(q, f, s.tb.tb.extractLsb' 0 32)] } } := by
  unfold State.deliver
  rw [h]

theorem takeFrame_drops {q : Nat} {f : List Byte} {stamp : Word} {s : State} (h : (s.qp q).posts = [] ∨ (s.qp q).st ≠ .active) :
    s.takeFrame q f stamp = s.updQp q (fun x => { x with drop := satInc x.drop }) := by
  unfold State.takeFrame
  split
  next d rest active posts => exact h.elim (fun none_ => by cases none_.symm.trans posts) (fun idle => absurd active idle)
  · rfl

theorem takeFrame_fills {q : Nat} {f : List Byte} {stamp : Word} {d : Desc} {l : List Desc} {s : State} (ha : (s.qp q).st = .active)
    (hp : (s.qp q).posts = d :: l) :
    s.takeFrame q f stamp = ((s.macStat (s.qp q).mac.toNat 4).updQp q (fun x => { x with posts := l })).complete q d
      { status := if d.len < f.length then 0x05 else 0, res0 := stamp, xlen := f.length, data := f.take d.len } := by
  unfold State.takeFrame
  rw [ha, hp]
  simp only [decide_eq_true_eq]

/-- The link state and the events of a port stay as `t` follows `s`. -/
def Linked (m : Nat) (s t : State) : Prop :=
  (t.mac m).link = (s.mac m).link ∧ ∀ i, bit (s.mac m).evt i = true → bit (t.mac m).evt i = true

theorem Linked.trans {m : Nat} {s t u : State} (h : Linked m s t) (k : Linked m t u) : Linked m s u :=
  ⟨k.1.trans h.1, fun i b => k.2 i (h.2 i b)⟩

theorem linked_of_mac {m : Nat} {s t : State} (h : t.mac m = s.mac m) : Linked m s t := by
  unfold Linked
  rw [h]
  exact ⟨rfl, fun _ b => b⟩

theorem linked_when {m : Nat} {s : State} {c : Bool} {f : State → State} (h : Linked m s (f s)) : Linked m s (s.when c f) := by
  unfold State.when
  split
  · exact h
  · exact linked_of_mac rfl

theorem mac_macEvt (s : State) (m i : Nat) : (s.macEvt m i).mac m = { s.mac m with evt := setBit (s.mac m).evt i true } :=
  mac_updMac_same s m _

theorem linked_macEvt (s : State) (m i : Nat) : Linked m s (s.macEvt m i) := by
  unfold Linked
  rw [mac_macEvt]
  exact ⟨rfl, fun _ b => bit_setBit_keeps i b⟩

theorem linked_noTransport (s : State) (m : Nat) : Linked m s s.noTransport := by
  suffices h : ∀ (l : List Nat) (t : State), Linked m s t → Linked m s (l.foldl (fun s n =>
      let up := s.transport (s.connEther n) && (s.connPaths n).any (fun p => (s.mac (s.connMac n p)).link)
      s.when (!up && (s.conn n).st != .closed) (fun s => s.updConn n (fun k => { k with code := 7 }))) t) from
    h _ _ (linked_of_mac rfl)
  intro l
  induction l with
  | nil => exact fun t h => h
  | cons n l ih => exact fun t h => ih _ (h.trans (linked_when (linked_of_mac rfl)))

theorem linked_portCheck (s : State) (m : Nat) : Linked m s (s.portCheck m) := by
  unfold State.portCheck
  extract_lets p q t
  have mac : t.mac m = _ := mac_updMac_same s m _
  refine Linked.trans (t := t) ?_ (linked_when (linked_of_mac ?_))
  · unfold Linked
    rw [mac]
    exact ⟨rfl, fun _ b => b⟩
  · rw [refreshRef_mac, dropPtpUtc_mac]

theorem sgmiiLinkChange_sets (m : Fin 4) (l : Link) (s : State) : Gives (exec (.sgmiiLinkChange m l) s) (fun t =>
    (t.mac m).link = ((s.mac m).en && l == .up) ∧
    ((s.mac m).link ≠ ((s.mac m).en && l == .up) → bit (t.mac m).evt 0 = true) ∧ (l = .bad → bit (t.mac m).evt 1 = true)) := by
  show Gives (execSgmiiLinkChange m l s) _
  unfold execSgmiiLinkChange
  extract_lets i up change u v
  refine gives_settled ?_
  rw [settle_mac]
  have mac : u.mac m = { s.mac m with link := up } := mac_updMac_same s m _
  have first : Linked m u (u.when change (fun s => s.macEvt i 0)) := linked_when (linked_macEvt u m 0)
  have second : Linked m (u.when change (fun s => s.macEvt i 0)) v := linked_when (linked_macEvt _ m 1)
  obtain ⟨link, keeps⟩ := (linked_noTransport v m).trans (linked_portCheck _ m)
  refine ⟨?_, fun differs => keeps 0 (second.2 0 ?_), fun bad => keeps 1 ?_⟩
  · rw [link, second.1, first.1, mac]
  · have changed : change = true := by simpa [change, up, bne] using differs
    rw [changed, when_true, mac_macEvt]
    exact bit_setBit_self _ (by decide)
  · show bit ((State.when _ (decide (l = .bad)) _).mac m).evt 1 = true
    rw [bad, decide_eq_true rfl, when_true, mac_macEvt]
    exact bit_setBit_self _ (by decide)

/-! ### The obligation -/

/-- Settles O47. -/
theorem wilisFramesAndTimers : Obligations.WilisFramesAndTimers := by
  refine ⟨⟨?_, ?_, ?_, ?_, ?_, ?_, ?_, ?_, ?_⟩, ?_, ?_, ?_, ?_, ?_, ?_, ?_, ?_, ?_, ?_⟩
  · exact fun m x f s u h => data_unclaimed h
  · refine fun m x f n s u h => ⟨fun due => ?_, fun hw ho hf => data_open h hw ho hf⟩
    rw [data_taken h, due, if_pos rfl]
    rfl
  · exact acceptData_takes
  · exact fun m x f s u h => connect_unclaimed h
  · exact fun m x f n s u h hr hf hs => connect_answers h hr hf hs
  · exact fun m x f n s u h hr hf hs hp => accept_opens h hr hf hs hp
  · exact fun m x f n s u h hr hf hs => reject_fails h hr hf hs
  · exact fun m x f n s u h => close_fails h
  · intro n code tx rx st s
    obtain ⟨opened, htx, hrx, valid, first⟩ := openConn_opens n tx rx st s
    exact ⟨opened, htx, hrx, valid, first, failConn_fails n code s⟩
  · intro c s ho hd
    have run := dataTransmit_sends ho hd
    refine ⟨fun active => ?_, fun passive => ?_⟩
    · rw [run, active]
      rfl
    · rw [run, passive]
      rfl
  · exact fun c s h => dataTransmit_rests h
  · exact fun c s hs hr hd => connectTransmit_sends hs hr hd
  · exact watchdogExpiry_acts
  · exact fun c s ho hw hd hp hu => pathDown_first ho hw hd hp hu
  · exact fun c s hs hp => failedRetry_acts hs hp
  · exact fun m f pause s he hl => frameReceive_judged he hl
  · exact fun m q f s h => deliver_queues h
  · exact fun q f stamp s => ⟨takeFrame_drops, fun d l ha hp => takeFrame_fills ha hp⟩
  · exact sgmiiLinkChange_sets

end Sys2Proof.Laws
end

section
/-! The ring of FiminLink: roles, slots, SYNC and the loss of a module (R367 to R381). -/

namespace Sys2Proof.Laws

open Sys2Proof Sys2Proof.Machine Sys2Proof.Safety

/-! ### What the loss of redundancy leaves of the ring -/

theorem Heard.refl (s : State) : Heard s s := ⟨rfl, rfl, rfl⟩

theorem heard_when {s : State} {c : Bool} {f : State → State} (h : Heard s (f s)) : Heard s (s.when c f) := by
  cases c
  · exact Heard.refl s
  · exact h

theorem heard_foldl {β : Type} (f : State → β → State) (h : ∀ s b, Heard s (f s b)) (l : List β) : ∀ s, Heard s (l.foldl f s) := by
  induction l with
  | nil => exact Heard.refl
  | cons b l ih => intro s; exact (h s b).trans (ih _)

theorem heard_refreshPair (s : State) (k : Nat) : Heard s (s.refreshPair k) := by
  unfold State.refreshPair
  split
  · exact Heard.refl s
  · unfold State.setPair
    split
    · exact Heard.refl s
    · exact ⟨rfl, rfl, rfl⟩

theorem heard_lose (s : State) (c kind : Nat) : Heard s (s.lose c kind) := by
  unfold State.lose
  extract_lets x present was t
  split
  · exact Heard.refl s
  · split
    · exact Heard.refl s
    · split
      · exact ((manned_abandon s c 0x3A).trans (manned_toSafe _ c .held)).ring
      · have h1 : Manned s t := manned_updCell s c _
        have h2 : Manned t _ := manned_when (c := !was) (f := fun s => (s.cellEvt 2).cellRec 1 c (s.cell c).kinds)
          ((manned_cellEvt t 2).trans (manned_record _ _))
        exact (h1.trans h2).ring.trans (heard_refreshPair _ _)

theorem heard_regain (s : State) (c kind : Nat) : Heard s (s.regain c kind) := by
  unfold State.regain
  extract_lets x y t u
  have h1 : Heard s t := (manned_updCell s c _).ring.trans (heard_refreshPair _ _)
  split
  · exact Heard.refl s
  · split
    · exact h1
    · exact h1.trans (((manned_updCell t c _).trans (manned_cellEvt _ 2)).trans (manned_record u _)).ring

theorem heard_ringSweep (s : State) : Heard s s.ringSweep := by
  unfold State.ringSweep
  refine heard_foldl _ (fun t e => ?_) _ s
  extract_lets a b u v
  have h1 : Heard t u := heard_when (heard_lose t e.1 1)
  have h2 : Heard u v := heard_when (heard_lose u e.1 1)
  exact (h1.trans h2).trans (heard_when (heard_regain v e.1 1))

theorem heard_refreshRef (s : State) : Heard s s.refreshRef := by
  have reference : ∀ r, Heard s (s.setReference r) := fun r => by
    obtain ⟨tb, sn, h⟩ := setReference_frame s r
    rw [h]
    exact ⟨rfl, rfl, rfl⟩
  unfold State.refreshRef
  repeat' split
  · exact reference _
  · exact reference _
  · exact reference _
  · exact Heard.refl s

/-! ### Links and roles -/

theorem linkDown_keeps (r : AB) (s : State) : Gives (exec (.fiminlinkLinkDown r) s) (fun t => t.ringUp r = false ∧ t.flk.role = s.flk.role ∧
    t.ringUp r.other = s.ringUp r.other) := by
  show Gives (execFiminlinkLinkDown r s) _
  refine gives_settled ?_
  unfold State.ringUp
  rw [settle_flk]
  cases r <;> exact ⟨rfl, rfl, rfl⟩

theorem linkUp_keeps (r : AB) (s : State) : Gives (exec (.fiminlinkLinkUp r) s) (fun t => t.ringUp r = true ∧ t.ringUp r.other = s.ringUp r.other) := by
  show Gives (execFiminlinkLinkUp r s) _
  refine gives_settled ?_
  unfold State.ringUp
  rw [settle_flk]
  cases r <;> exact ⟨rfl, rfl⟩

theorem listenExpiry_backsOff {s : State} (hu : s.flkUp = true) (hl : s.flk.role = .listen) :
    (s.past s.flk.roleAt 100000 = true → exec .listenExpiry s = .next (s.setRole .backoff).settle) ∧
    (s.past s.flk.roleAt 100000 = false → exec .listenExpiry s = .next s) :=
  ⟨fun h => if_pos (by rw [hu, hl, h]; decide), fun h => if_neg (by rw [hu, hl, h]; decide)⟩

theorem backoffExpiry_leads {s : State} (hu : s.flkUp = true) (hl : s.flk.role = .backoff) :
    (s.past s.flk.roleAt (100000 * s.modAddr) = true →
      exec .backoffExpiry s = .next (State.settle { s with flk := { s.flk with lead := true } })) ∧
    (s.past s.flk.roleAt (100000 * s.modAddr) = false → exec .backoffExpiry s = .next s) :=
  ⟨fun h => if_pos (by rw [hu, hl, h]; decide), fun h => if_neg (by rw [hu, hl, h]; decide)⟩

theorem slotAssembly_sends {s : State} (hs : s.sends = true) :
    (s.slotDue = true → Gives (exec .fiminlinkSlotAssembly s) (fun t =>
      t.flk.last = s.slotBody ∧ t.flk.left = s.flk.leave ∧ t.flk.role = s.flk.role ∧ t.flk.sentIn = some s.cycNo)) ∧
    (s.slotDue = false → exec .fiminlinkSlotAssembly s = .next s) := by
  refine ⟨fun due => ?_, fun due => if_pos (by rw [hs, due]; decide)⟩
  show Gives (execFiminlinkSlotAssembly s) _
  unfold execFiminlinkSlotAssembly
  rw [if_neg (by rw [hs, due]; decide)]
  extract_lets b t inst
  have told : Books s t := books_cvuItem s _ _ _ _ _ _
  refine gives_settled ?_
  rw [settle_flk]
  refine ⟨rfl, ?_, ?_, ?_⟩
  · show t.flk.leave = _
    rw [told]
  · show t.flk.role = _
    rw [told]
  · show some t.cycNo = _
    rw [told]
    rfl

theorem cycleStart_leads {s : State} (hu : s.flkUp = true) (hw : s.now % 50000 < 2000) (hc : s.flk.cycAt ≠ some s.cycNo) (hb : s.flk.syncB = none)
    (hr : s.flk.role ≠ .backoff ∨ s.flk.lead = false) : Gives (exec .fiminlinkCycleStart s) (fun t =>
      t.flk.isMaster = (s.sends && s.senders.all (fun m => decide (s.modAddr ≤ m))) ∧ t.flk.cycAt = some s.cycNo) := by
  have starts : ¬ ((!s.flkUp || decide (2000 ≤ s.now % 50000) || s.flk.cycAt == some s.cycNo) = true) := by
    simp [hu, hw, hc]
  have stays : ({ s with flk := { s.flk with cycAt := some s.cycNo } } : State).takeLead.useSyncB = { s with flk := { s.flk with cycAt := some s.cycNo } } := by
    unfold State.takeLead
    rw [if_neg (fun ⟨a, b⟩ => hr.elim (fun k => k a) (fun k => Bool.false_ne_true (k.symm.trans b)))]
    unfold State.useSyncB
    rw [show State.flk _ = { s.flk with cycAt := some s.cycNo } from rfl]
    simp only [hb]
  show Gives (execFiminlinkCycleStart s) _
  unfold execFiminlinkCycleStart
  rw [if_neg starts, stays]
  extract_lets _ _ c isol lead master _ u v
  refine gives_settled ?_
  have sent : (v.when lead (fun s => s.emit (.sync s.syncBody))).flk = v.flk := by
    unfold State.when
    split <;> rfl
  rw [settle_flk, sent, (heard_refreshRef u).flk]
  exact ⟨rfl, rfl⟩

theorem takeLead_leads {s : State} (hb : s.flk.role = .backoff) (hl : s.flk.lead = true) :
    s.takeLead.flk.role = .run ∧ s.takeLead.flk.isMaster = true ∧ s.takeLead.flk.master = BitVec.ofNat 4 s.modAddr := by
  unfold State.takeLead
  rw [if_pos ⟨hb, hl⟩]
  exact ⟨rfl, rfl, rfl⟩

/-! ### Slots and SYNC -/

theorem slotReceive_deaf {r : AB} {body : List Byte} {slot : Fin 16} {arr : Int} {s : State} (h : s.flkUp = false ∨ s.ringUp r = false) :
    exec (.fiminlinkSlotReceive r body true slot arr) s = .next s := by
  refine if_pos ?_
  rcases h with h | h <;> simp [h]

theorem hears {s : State} {r : AB} (hu : s.flkUp = true) (hr : s.ringUp r = true) : ¬ ((!s.flkUp || !s.ringUp r) = true) := by
  rw [hu, hr]
  decide

theorem slotReceive_damaged {r : AB} {body : List Byte} {slot : Fin 16} {arr : Int} {s : State} (hu : s.flkUp = true) (hr : s.ringUp r = true)
    (hc : s.configured (fld (body.getD 0 0) 3 0) = false) (hn : body.length = 128) (hk : s.chkOk body 124 = false) :
    exec (.fiminlinkSlotReceive r body true slot arr) s = .next (s.chkFail r slot).settle := by
  show execFiminlinkSlotReceive r body true slot arr s = _
  unfold execFiminlinkSlotReceive
  rw [if_neg (hears hu hr)]
  simp only [hc, hn, hk, Bool.and_false, when_false, Bool.not_true, Bool.false_or, bne_self_eq_false, Bool.not_false, Bool.false_eq_true, if_false, if_true]
  rfl

theorem slotReceive_used {r : AB} {body : List Byte} {slot : Fin 16} {arr : Int} {c : Word} {s u : State} (hu : s.flkUp = true) (hr : s.ringUp r = true)
    (ha : fld (body.getD 0 0) 3 0 = slot.val) (ho : slot.val ≠ s.modAddr) (hc : s.configured slot = true) (hn : body.length = 128)
    (hk : s.chkOk body 124 = true) (hs : slotShape body = true) (ec : c = BitVec.ofNat 32 (((s.now : Int) - arr).toNat / 50000))
    (hw : word4 (body.drop 4) = c) (eu : u = (s.emit (.forward r body)).measureLink r slot body arr) (hl : u.linkLong r = false)
    (hp : u.pathKnown r slot = true) (hd : (arr - u.pathDelay r slot).natAbs ≤ 200) :
    exec (.fiminlinkSlotReceive r body true slot arr) s = .next (u.validSlot r slot body c (arr - u.pathDelay r slot)).settle := by
  have forwards : s.when (!decide (slot.val = s.modAddr) && s.configured slot) (fun s => s.emit (.forward r body)) = s.emit (.forward r body) := by
    rw [hc, decide_eq_false ho]
    rfl
  show execFiminlinkSlotReceive r body true slot arr s = _
  unfold execFiminlinkSlotReceive
  rw [if_neg (hears hu hr)]
  simp only [ha]
  rw [forwards]
  refine (if_neg (by rw [hn]; decide)).trans ((if_neg ?_).trans ((if_neg ?_).trans ((if_neg ?_).trans ((if_neg ?_).trans ?_))))
  · rw [show (s.emit (.forward r body)).chkOk body 124 = s.chkOk body 124 from rfl, hk]
    decide
  · simpa using ho
  · rw [show (s.emit (.forward r body)).configured slot = s.configured slot from rfl, hc, hs]
    simp
  · rw [show (s.emit (.forward r body)).now = s.now from rfl, ← ec]
    exact not_not.mpr hw
  · rw [show (s.emit (.forward r body)).now = s.now from rfl, ← ec, ← eu]
    refine (if_neg (by rw [hl]; decide)).trans ((if_neg (by rw [hp]; decide)).trans (if_neg (by omega)))

theorem syncReceive_judged {r : AB} {body : List Byte} {cap : Int} {s : State} (hu : s.flkUp = true) (hr : s.ringUp r = true) (hn : body.length = 16)
    (hc : s.configured (fld (body.getD 0 0) 3 0) = true) (hm : s.flk.isMaster = false) :
    (s.chkOk body 12 = false → exec (.fiminlinkSyncReceive r body cap) s = .next ((s.emit (.forward r body)).flkEvt 7).settle) ∧
    (s.chkOk body 12 = true → syncShape body = true → s.linkLong r = false →
      exec (.fiminlinkSyncReceive r body cap) s = .next ((s.emit (.forward r body)).validSync r body cap).settle) := by
  have forwards : s.when (s.configured (fld (body.getD 0 0) 3 0) && !(s.flk.isMaster && decide (fld (body.getD 0 0) 3 0 = s.modAddr)))
      (fun s => s.emit (.forward r body)) = s.emit (.forward r body) := by
    rw [hc, hm]
    rfl
  constructor
  · intro bad
    show execFiminlinkSyncReceive r body cap s = _
    unfold execFiminlinkSyncReceive
    rw [if_neg (hears hu hr)]
    extract_lets a t
    rw [show t = s.emit (.forward r body) from forwards]
    exact (if_neg (not_not.mpr hn)).trans (if_pos (by rw [show (s.emit (.forward r body)).chkOk body 12 = s.chkOk body 12 from rfl, bad]; rfl))
  · intro good shape short
    show execFiminlinkSyncReceive r body cap s = _
    unfold execFiminlinkSyncReceive
    rw [if_neg (hears hu hr)]
    extract_lets a t
    rw [show t = s.emit (.forward r body) from forwards]
    refine (if_neg (not_not.mpr hn)).trans ((if_neg ?_).trans ((if_neg ?_).trans (if_neg ?_)))
    · rw [show (s.emit (.forward r body)).chkOk body 12 = s.chkOk body 12 from rfl, good]
      decide
    · rw [show (s.emit (.forward r body)).configured _ = s.configured _ from rfl, hc, shape]
      decide
    · rw [show (s.emit (.forward r body)).linkLong r = s.linkLong r from rfl, short]
      decide

/-! ### Loss of a module -/

/-- A path that is lost leaves the admission of its sender, the terms and the configuration. -/
theorem pathLoss_keeps (s : State) (m : Nat) (c : Word) :
    ((s.pathLoss m c).peer m).adm = (s.peer m).adm ∧ ((s.pathLoss m c).peer m).leave = (s.peer m).leave ∧ (s.pathLoss m c).cfg = s.cfg := by
  have one : ∀ (t : State) (r : AB),
      ((if (t.peer m).pathGone r c && !((t.peer m).ring r).lost then
        (t.updPeer m (fun p => p.updRing r (fun x => { x with lost := true }))).flkEvt 2 else t).peer m).adm = (t.peer m).adm ∧
      ((if (t.peer m).pathGone r c && !((t.peer m).ring r).lost then
        (t.updPeer m (fun p => p.updRing r (fun x => { x with lost := true }))).flkEvt 2 else t).peer m).leave = (t.peer m).leave ∧
      (if (t.peer m).pathGone r c && !((t.peer m).ring r).lost then
        (t.updPeer m (fun p => p.updRing r (fun x => { x with lost := true }))).flkEvt 2 else t).cfg = t.cfg := fun t r => by
    split
    · have peer : ∀ u : State, (u.flkEvt 2).peer m = u.peer m := fun _ => rfl
      rw [peer, peer_updPeer_same]
      cases r <;> exact ⟨rfl, rfl, rfl⟩
    · exact ⟨rfl, rfl, rfl⟩
  obtain ⟨admA, leaveA, cfgA⟩ := one s .a
  obtain ⟨admB, leaveB, cfgB⟩ := one _ .b
  exact ⟨admB.trans admA, leaveB.trans leaveA, cfgB.trans cfgA⟩

/-- A bit that one entry of a list sets stays set. -/
theorem bit_foldl_setBit {w : Nat} {β : Type} (l : List β) (p : β → Prop) [DecidablePred p] (at_ : β → Nat) {i : Nat} (v : BitVec w)
    (h : bit v i = true ∨ ∃ e ∈ l, p e ∧ at_ e = i ∧ i < w) :
    bit (l.foldl (fun v e => if p e then setBit v (at_ e) true else v) v) i = true := by
  induction l generalizing v with
  | nil =>
    rcases h with h | ⟨e, mem, _⟩
    · exact h
    · cases mem
  | cons b l ih =>
    refine ih _ ?_
    rcases h with h | ⟨e, mem, hp, he, hi⟩
    · refine .inl ?_
      show bit (if p b then _ else v) i = true
      split
      · exact bit_setBit_keeps _ h
      · exact h
    · rcases List.mem_cons.mp mem with rfl | mem
      · refine .inl ?_
        show bit (if p e then setBit v (at_ e) true else v) i = true
        rw [if_pos hp, he]
        exact bit_setBit_self v hi
      · exact .inr ⟨e, mem, hp, he, hi⟩

/-- A module that is lost is no longer admitted, and every term imported from it is active (R192, R380). -/
theorem declareLost_loses (s : State) (m : Nat) : ((s.declareLost m).peer m).adm = false ∧ ((s.declareLost m).peer m).lost = true ∧
    ∀ e ∈ s.cfg.imports, e.2.1 = m → e.1 < 192 → bit (s.declareLost m).lid.im e.1 = true ∧ bit (s.declareLost m).lid.evt 3 = true := by
  unfold State.declareLost
  extract_lets p im _ t u one v w
  have told : Noted v w := noted_record v _
  have peer : (w.flkEvt 0).peer m = { u.peer m with adm := false, lost := true, good := 0, lostN := satInc (u.peer m).lostN, a := { (u.peer m).a with lost := one }, b := { (u.peer m).b with lost := one } } := by
    show w.peer m = _
    rw [show w.peer m = v.peer m by unfold State.peer; rw [told.same]]
    exact peer_updPeer_same u m _
  have lid : (w.flkEvt 0).lid = u.lid := by
    show w.lid = _
    rw [told.same]
    rfl
  rw [peer, lid]
  refine ⟨rfl, rfl, fun e mem from_ small => ?_⟩
  have some_ : s.cfg.imports.any (fun e => e.2.1 == m) = true := List.any_eq_true.mpr ⟨e, mem, by simpa using from_⟩
  have raised : u = t.lidEvt 3 := by
    show t.when (s.cfg.imports.any _) _ = _
    rw [some_, when_true]
  rw [raised]
  refine ⟨?_, bit_setBit_self _ (by decide)⟩
  exact bit_foldl_setBit s.cfg.imports (fun e => e.2.1 = m) (fun e => e.1) s.lid.im (.inr ⟨e, mem, from_, rfl, small⟩)

theorem moduleLost_loses {m : Fin 16} {s : State} (hu : s.flkUp = true) (hm : m.val ≠ s.modAddr) (ha : (s.peer m).adm = true)
    (hl : (s.peer m).leave = true) : Gives (exec (.moduleLost m) s) (fun t => (t.peer m).adm = false ∧ (t.peer m).lost = true ∧
      ∀ e ∈ s.cfg.imports, e.2.1 = m.val → e.1 < 192 → bit t.lid.im e.1 = true ∧ bit t.lid.evt 3 = true) := by
  show Gives (execModuleLost m s) _
  unfold execModuleLost
  rw [if_neg (by rw [hu, decide_eq_false hm]; decide)]
  extract_lets c t p silent u
  obtain ⟨adm, leave, cfg⟩ := pathLoss_keeps s m c
  have goes : u = (t.declareLost m).refreshRef := by
    show t.when (p.adm && (p.leave || silent)) _ = _
    rw [show p.adm = true from adm.trans ha, show p.leave = true from leave.trans hl]
    rfl
  refine gives_settled ?_
  have after : Heard (t.declareLost m) u.ringSweep := by
    rw [goes]
    exact (heard_refreshRef _).trans (heard_ringSweep _)
  obtain ⟨gone, lost, terms⟩ := declareLost_loses t m
  rw [settle_peer, settle_lid_im]
  have peer : u.ringSweep.peer m = (t.declareLost m).peer m := by
    unfold State.peer
    rw [after.flk]
  rw [peer, after.im]
  refine ⟨gone, lost, fun e mem from_ small => ?_⟩
  obtain ⟨active, told⟩ := terms e (by rw [show t.cfg = s.cfg from cfg]; exact mem) from_ small
  exact ⟨active, settle_lid_evt (by rw [after.evt]; exact told)⟩

/-! ### The obligation -/

/-- Settles O48. -/
theorem fiminLinkRing : Obligations.FiminLinkRing := by
  refine ⟨fun r s => ⟨linkDown_keeps r s, linkUp_keeps r s⟩, fun s hu => ⟨fun h => listenExpiry_backsOff hu h, fun h => backoffExpiry_leads hu h⟩,
    fun s h => slotAssembly_sends h, fun s hu hw hc hb hr => cycleStart_leads hu hw hc hb hr, fun s hb hl => takeLead_leads hb hl, ?_, ?_, ?_, ?_⟩
  · exact fun r body slot arr s => ⟨slotReceive_deaf, fun hu hr hc hn hk => slotReceive_damaged hu hr hc hn hk⟩
  · exact fun r body slot arr c s u hu hr ha ho hc hn hk hs ec hw eu hl hp hd => slotReceive_used hu hr ha ho hc hn hk hs ec hw eu hl hp hd
  · exact fun r body cap s hu hr hn hc hm => syncReceive_judged hu hr hn hc hm
  · exact fun m s hu hm ha hl => moduleLost_loses hu hm ha hl

end Sys2Proof.Laws
end

section
/-! The host interface's resets, its link and silence (R387, R390, R408 to R411). -/

namespace Sys2Proof.Laws

open Sys2Proof Sys2Proof.Machine Sys2Proof.Safety

/-! ### Silence leaves the link and the queue pairs -/

/-- The link, the power state, the queue pairs and the MSI-X table are as before. -/
structure Wired (s t : State) : Prop where
  qps : t.hif.qps = s.hif.qps
  linkUp : t.hif.linkUp = s.hif.linkUp
  d3 : t.hif.d3 = s.hif.d3
  mask : t.hif.mask = s.hif.mask
  msix : t.hif.msix = s.hif.msix

theorem Wired.trans {s t u : State} (h : Wired s t) (k : Wired t u) : Wired s u :=
  ⟨k.qps.trans h.qps, k.linkUp.trans h.linkUp, k.d3.trans h.d3, k.mask.trans h.mask, k.msix.trans h.msix⟩

theorem wired_when {s : State} {c : Bool} {f : State → State} (h : Wired s (f s)) : Wired s (s.when c f) := by
  cases c
  · exact ⟨rfl, rfl, rfl, rfl, rfl⟩
  · exact h

theorem wired_raise (s : State) (v : Nat) : Wired s (s.raise v) := by rw [raise_frame]; exact ⟨rfl, rfl, rfl, rfl, rfl⟩

theorem wired_hifEvt (s : State) (i : Nat) : Wired s (s.hifEvt i) := by rw [hifEvt_frame]; exact ⟨rfl, rfl, rfl, rfl, rfl⟩

theorem wired_record (s : State) (a : RecArg) : Wired s (s.record a) := by rw [record_frame]; exact ⟨rfl, rfl, rfl, rfl, rfl⟩

theorem wired_checkSilence (s : State) : Wired s s.checkSilence := by
  unfold State.checkSilence
  split
  · exact ⟨rfl, rfl, rfl, rfl, rfl⟩
  · extract_lets cleared _ _ judged
    have h1 : Wired s cleared := wired_when ⟨rfl, rfl, rfl, rfl, rfl⟩
    have h2 : Wired cleared judged := by
      simp only [judged]
      split
      · refine Wired.trans (Wired.trans ?_ (wired_hifEvt _ 2)) (wired_record _ _)
        exact ⟨rfl, rfl, rfl, rfl, rfl⟩
      · split
        · refine Wired.trans ?_ (wired_record _ _)
          exact ⟨rfl, rfl, rfl, rfl, rfl⟩
        · exact ⟨rfl, rfl, rfl, rfl, rfl⟩
    refine (h1.trans h2).trans (wired_when (Wired.trans ?_ (wired_raise _ 0)))
    exact ⟨rfl, rfl, rfl, rfl, rfl⟩

/-! ### Resets of the host interface -/

/-- No queue pair is enabled or holds a buffer (R411). -/
def NoQueue (s : State) : Prop := ∀ q, (s.qp q).st = .disabled ∧ (s.qp q).en = false ∧ (s.qp q).posts = []

/-- The end of a session leaves the link, cells, permits and engines, and enables no queue pair. -/
structure Closed (s t : State) : Prop where
  idle : NoQueue s → NoQueue t
  linkUp : t.hif.linkUp = s.hif.linkUp
  cells : t.cells = s.cells
  perm : t.perm = s.perm
  engs : t.engs = s.engs

theorem Closed.trans {s t u : State} (h : Closed s t) (k : Closed t u) : Closed s u :=
  ⟨fun n => k.idle (h.idle n), k.linkUp.trans h.linkUp, k.cells.trans h.cells, k.perm.trans h.perm, k.engs.trans h.engs⟩

theorem closed_of {s t : State} (hq : t.hif = s.hif) (hc : t.cells = s.cells) (hp : t.perm = s.perm) (he : t.engs = s.engs) : Closed s t :=
  ⟨fun n q => by unfold State.qp; rw [hq]; exact n q, by rw [hq], hc, hp, he⟩

/-- On a disabled queue pair a completion only takes the command away (R403, R411). -/
theorem complete_disabled {s : State} {q : Nat} {d : Desc} {r : Result} (h : (s.qp q).st = .disabled) :
    s.complete q d r = s.updQp q (fun x => { x with cmds := x.cmds.erase d }) := by
  unfold State.complete
  extract_lets t h'
  have st : (t.qp q).st = .disabled := by
    rw [show t.qp q = _ from qp_updQp_same s q _]
    exact h
  split
  · rfl
  · rw [st]

theorem closed_complete (s : State) (q : Nat) (d : Desc) (r : Result) :
    Closed s (s.complete q d r) ∧ (s.complete q d r).store = s.store := by
  have frame := answered_complete s q d r
  refine ⟨⟨fun n i => ?_, by rw [frame], by rw [frame], by rw [frame], by rw [frame]⟩, by rw [frame]⟩
  rw [complete_disabled (n q).1, qp_updQp]
  split
  next e => subst e; exact n i
  · exact n i

theorem closed_abortWorks (l : List Work) : ∀ s : State,
    Closed s (l.foldl State.abortWork s) ∧ (l.foldl State.abortWork s).store = s.store := by
  induction l with
  | nil => exact fun s => ⟨closed_of rfl rfl rfl rfl, rfl⟩
  | cons w l ih =>
    intro s
    have one : Closed s (s.abortWork w) ∧ (s.abortWork w).store = s.store := by
      unfold State.abortWork
      split
      · exact ⟨closed_of rfl rfl rfl rfl, rfl⟩
      · exact closed_complete s _ _ _
    obtain ⟨rest, store⟩ := ih (s.abortWork w)
    exact ⟨one.1.trans rest, store.trans one.2⟩

theorem log_keepsRoles (s : State) (a : LogArg) : Closed s (s.log a) ∧ (s.log a).store.maint = s.store.maint ∧ (s.log a).store.safety = s.store.safety := by
  unfold State.log
  repeat' split
  · exact ⟨closed_of rfl rfl rfl rfl, rfl, rfl⟩
  · exact ⟨closed_of rfl rfl rfl rfl, rfl, rfl⟩
  · exact ⟨closed_of rfl rfl rfl rfl, rfl, rfl⟩

theorem dropWork_keepsRoles (s : State) (h : Half) (q : Nat) :
    Closed s (s.dropWork h q) ∧ (s.dropWork h q).store.maint = s.store.maint ∧ (s.dropWork h q).store.safety = s.store.safety := by
  unfold State.dropWork
  extract_lets busy keep rest mine left _ t u
  have first : Closed s t := closed_of rfl rfl rfl rfl
  obtain ⟨second, store⟩ := closed_abortWorks mine t
  have both : Closed s u := first.trans second
  have maint : u.store.maint = s.store.maint :=
    (congrArg Store.maint store : u.store.maint = t.store.maint)
  have safety : u.store.safety = s.store.safety :=
    (congrArg Store.safety store : u.store.safety = t.store.safety)
  unfold State.when
  split
  · unfold State.rollback
    obtain ⟨logged, keepsM, keepsS⟩ := log_keepsRoles u { kind := 0x13, bankSeq := u.nextSeq }
    exact ⟨(both.trans logged).trans (closed_of rfl rfl rfl rfl), keepsM.trans maint, keepsS.trans safety⟩
  · exact ⟨both, maint, safety⟩

theorem discardImage_keepsRoles (s : State) : Closed s s.discardImage ∧ s.discardImage.store.maint = s.store.maint ∧
    s.discardImage.store.safety = s.store.safety := by
  unfold State.discardImage State.updBankS
  split <;> exact ⟨closed_of rfl rfl rfl rfl, rfl, rfl⟩

/-- The end of a role's session leaves the other role (R425). -/
theorem closeSession_closes (s : State) (r : Role) (why : Nat) :
    Closed s (s.closeSession r why) ∧ ((s.closeSession r why).role r).sess = none ∧
      ∀ p, p ≠ r → (s.closeSession r why).role p = s.role p := by
  unfold State.closeSession
  split
  next none_ => exact ⟨closed_of rfl rfl rfl rfl, none_, fun _ _ => rfl⟩
  next h q _ =>
    extract_lets t u v
    have taken : Closed s t := by
      simp only [t, State.updRole]
      split <;> exact closed_of rfl rfl rfl rfl
    obtain ⟨dropped, dropM, dropS⟩ := dropWork_keepsRoles t h q
    have image : Closed u v ∧ v.store.maint = u.store.maint ∧ v.store.safety = u.store.safety := by
      simp only [v]
      split
      · exact discardImage_keepsRoles u
      · exact ⟨closed_of rfl rfl rfl rfl, rfl, rfl⟩
    obtain ⟨discarded, imageM, imageS⟩ := image
    obtain ⟨logged, logM, logS⟩ := log_keepsRoles v { kind := 0x04, role := r.n, handle := h, d12 := BitVec.ofNat 32 why }
    refine ⟨((taken.trans dropped).trans discarded).trans logged, ?_, fun p hp => ?_⟩
    · cases r
      · exact congrArg RoleS.sess ((logM.trans imageM).trans dropM)
      · exact congrArg RoleS.sess ((logS.trans imageS).trans dropS)
    · cases r <;> cases p
      · exact absurd rfl hp
      · exact (logS.trans imageS).trans dropS
      · exact (logM.trans imageM).trans dropM
      · exact absurd rfl hp

theorem orphans_idle {x y : Qp} (h : x.orphans = some y) : y.st = .disabled ∧ y.en = false ∧ y.posts = [] := by
  unfold Qp.orphans at h
  extract_lets l at h
  split at h
  · cases h
  · cases h
    exact ⟨rfl, rfl, rfl⟩

/-- A reset of the host interface (R409, R411). -/
theorem hostReset_clears (s : State) : NoQueue s.hostReset ∧ s.hostReset.hif.linkUp = s.hif.linkUp ∧ s.hostReset.store.maint.sess = none ∧
    s.hostReset.store.safety.sess = none ∧ s.hostReset.cells = s.cells ∧ s.hostReset.perm = s.perm ∧ s.hostReset.engs = s.engs := by
  unfold State.hostReset State.closeSessions
  extract_lets _ t stop u h
  have emptied : NoQueue { s with hif := { s.hif with qps := s.hif.qps.filterMap (fun (e : Nat × Qp) => e.2.orphans.map (fun x => (e.1, x))) } } := by
    intro q
    refine get_of_all (P := fun x : Qp => x.st = .disabled ∧ x.en = false ∧ x.posts = []) q ⟨rfl, rfl, rfl⟩ _ fun e he _ => ?_
    obtain ⟨a, _, ha⟩ := List.mem_filterMap.mp he
    obtain ⟨y, hy, rfl⟩ := Option.map_eq_some_iff.mp ha
    exact orphans_idle hy
  obtain ⟨closedM, goneM, _⟩ := closeSession_closes { s with hif := { s.hif with qps := s.hif.qps.filterMap (fun (e : Nat × Qp) => e.2.orphans.map (fun x => (e.1, x))) } } .maintenance 3
  obtain ⟨closedS, goneS, otherS⟩ := closeSession_closes _ .safetyEngineer 3
  have idle : NoQueue t := closedS.idle (closedM.idle emptied)
  have both : Closed _ t := closedM.trans closedS
  have maint : (t.store.maint).sess = none := (congrArg RoleS.sess (otherS .maintenance (by decide))).trans goneM
  have safety : (t.store.safety).sess = none := goneS
  obtain ⟨_, linkUp, cells, perm, engs⟩ := both
  clear_value t
  exact ⟨idle, linkUp, maint, safety, cells, perm, engs⟩

/-! ### Silence -/

theorem checkSilence_begins {s : State} (hp : s.pwr.phase = .service) (ht : s.hif.silTo = true) (hs : s.hif.silent = false) (ha : s.anyActive = true) :
    s.checkSilence.hif.silent = true := by
  have now_ : s.silenceNow = true := by
    unfold State.silenceNow
    rw [ht, ha]
    simp
  unfold State.checkSilence
  rw [if_neg (by rw [hp]; decide), ha, Bool.not_true, when_false]
  dsimp only
  rw [if_pos (by rw [now_, hs]; rfl)]
  generalize ht : State.hifEvt _ 2 = t
  have silent : (t.record { src := 14, code := 1, site := siteSpine 0 0 6 }).hif.silent = true := by
    rw [record_frame, ← ht, hifEvt_frame]
  rw [show State.when (t.record { src := 14, code := 1, site := siteSpine 0 0 6 }) _ _ = _ from when_no (by rw [silent]; simp), silent]

theorem settle_faultn_silent {s : State} (h : s.hif.silent = true) : s.settle.sys.faultn = true := by
  rw [(pinsFollow_settle s).2]
  simp [State.faultnNow, h]

theorem hostTick_silences {s : State} (hp : s.pwr.phase = .service) (ht : s.hif.silTo = true) (hs : s.hif.silent = false) (ha : s.anyActive = true)
    (hl : s.hif.late = []) (hr : s.hif.rx = []) : s.hostTick.hif.silent = true ∧ s.hostTick.sys.faultn = true ∧ s.hostTick.cells = s.cells := by
  unfold State.hostTick
  rw [if_neg (by rw [ht, hs]; rintro ⟨_, _, h | h⟩ <;> cases h), hl, hr]
  dsimp only [List.foldl_nil]
  have same : ({ s with hif := { s.hif with late := [], rx := [] } } : State) = s := by
    rw [← hl, ← hr]
  rw [same, settle_hif_silent, settle_cells]
  have silent := checkSilence_begins hp ht hs ha
  refine ⟨silent, settle_faultn_silent silent, ?_⟩
  rw [told_checkSilence s]

/-! ### The link and D3hot -/

theorem linkLost_down (s : State) : s.linkLost.hif.linkUp = false ∧ s.linkLost.cells = s.cells := by
  unfold State.linkLost
  obtain ⟨_, _, _, _, cells, _⟩ := hostReset_clears s
  refine ⟨(wired_checkSilence _).linkUp, ?_⟩
  rw [told_checkSilence]
  exact cells

theorem d3hot_enters (s : State) : Gives (exec (.d3hotTransition true) s) (fun t => t.hif.d3 = true ∧ t.hif.qps = s.hif.qps) := by
  show Gives (execD3hotTransition true s) _
  unfold execD3hotTransition
  rw [if_pos rfl]
  refine gives_settled ?_
  rw [settle_hif_d3, settle_hif_qps]
  have h := wired_checkSilence { s with hif := { s.hif with d3 := true } }
  exact ⟨h.d3, h.qps⟩

theorem books_flushHeld (s : State) (q : Nat) : Books s (s.flushHeld q) := by
  unfold State.flushHeld
  refine (show Books s (s.updQp q _) from rfl).trans (books_foldl _ (fun s h => ?_) _ _)
  split
  · rfl
  · exact books_writeCqe s q h h.noirq

theorem books_sendPending (s : State) : Books s s.sendPending := by
  unfold State.sendPending
  refine books_each 65 _ (fun s v => ?_) s
  exact books_when rfl

theorem d3hot_leaves (s : State) : Gives (exec (.d3hotTransition false) s) (fun t => t.hif.d3 = false) := by
  show Gives (execD3hotTransition false s) _
  unfold execD3hotTransition
  rw [if_neg Bool.false_ne_true]
  extract_lets _ t u
  refine gives_settled ?_
  rw [settle_hif_d3, (wired_checkSilence u).d3]
  have flushed : Books t u := (books_each 64 _ books_flushHeld t).trans (books_sendPending _)
  rw [flushed]

/-! ### The obligation -/

/-- Settles O50. -/
theorem hostLinkResetAndSilence : Obligations.HostLinkResetAndSilence := by
  refine ⟨fun s => ?_, fun s => ⟨rfl, rfl, rfl, rfl, rfl⟩, linkLost_down, fun s => ⟨fun ho hp hs => ?_, fun h => ?_⟩,
    fun s => ⟨d3hot_enters s, d3hot_leaves s⟩, fun s ha ht hp => ?_, fun s hp ht hs ha hl hr => hostTick_silences hp ht hs ha hl hr⟩
  · obtain ⟨idle, linkUp, maint, safety, cells, perm, engs⟩ := hostReset_clears s
    exact ⟨idle, rfl, rfl, rfl, linkUp, maint, safety, cells, perm, engs⟩
  · refine if_pos ?_
    unfold State.mayTrain
    rw [ho, hp]
    rcases hs with hs | hs <;> simp [hs]
  · refine if_neg ?_
    unfold State.mayTrain
    rcases h with h | h | h | h <;> simp [h, Phase.hostUp]
  · exact if_pos (by rw [ha, show ms (10 * s.hif.tHsil.toNat) = 1000000 * (10 * s.hif.tHsil.toNat) from rfl, hp]; simpa using ht)

end Sys2Proof.Laws
end

section
/-! Host commands that answer, set outputs and time, acknowledge, and send frames (R400 to R406). -/

namespace Sys2Proof.Laws

open Sys2Proof Sys2Proof.Machine Sys2Proof.Safety

/-! ### Answers -/

theorem answer_short {q : Nat} {d : Desc} {data : List Byte} {a b : Word} {s : State} (h : d.len < data.length) :
    s.answer q d data a b = s.complete q d { status := 5 } := if_pos h

theorem answer_fits {q : Nat} {d : Desc} {data : List Byte} {a b : Word} {s : State} (h : data.length ≤ d.len) :
    s.answer q d data a b = s.complete q d { res0 := a, res1 := b, xlen := data.length, data := data } :=
  if_neg (Nat.not_lt.mpr h)

/-! ### Commands without a session -/

theorem nop_completes {q : Fin 64} {d : Desc} {s : State} (h : CanRun s q 0x01 .none d) :
    exec (.nop q) s = .next ((s.touchSession q d.sess).complete q d {}).settle :=
  congrArg doneSettled (runCmd_runs _ h)

theorem piRead_answers {q : Fin 64} {d : Desc} {s : State} (h : CanRun s q 0x02 .none d) (h0 : d.p 0 = 0) :
    exec (.piRead q) s = .next ((s.touchSession q d.sess).answer q d (((s.touchSession q d.sess).hostImage none).flatMap bytes4)).settle := by
  refine congrArg doneSettled ((runCmd_runs _ h).trans ?_)
  rw [h0]
  rfl

theorem piWrite_sets {q : Fin 64} {d : Desc} {s u : State} (hu : u = s.touchSession q d.sess) (h : CanRun s q 0x03 .none d)
    (hm : d.named.all (fun o => (u.outRec o).mode == 2) = true) :
    exec (.piWrite q) s = .next ((d.named.foldl (fun s o => s.hostLevel o (bit (d.p (2 + o / 32)) (o % 32))) u).complete q d {}).settle := by
  subst hu
  exact congrArg doneSettled ((runCmd_runs _ h).trans (if_pos hm))

theorem setStd_sets (s : State) (o : Nat) (level : Bool) : ((s.setStd o level).out o).level = level ∧ ((s.setStd o level).out o).stdWait = false := by
  unfold State.setStd
  rw [out_updOut_same]
  exact ⟨rfl, rfl⟩

/-- A level that the host sets is taken, but for an on in the tick of a channel's off (R402). -/
theorem hostLevel_sets {u : State} {o : Nat} {level : Bool} (h : level = false ∨ u.tb.chanOff.contains o = false) :
    ((u.hostLevel o level).out o).level = level ∧ ((u.hostLevel o level).out o).stdWait = false := by
  have free : ¬ ((level && u.tb.chanOff.contains o) = true) := by
    rcases h with h | h
    · simp [h]
    · rw [h]
      simp
  unfold State.hostLevel
  rw [if_neg free]
  exact setStd_sets _ o level

theorem hostLevel_late {u : State} {o : Nat} {level : Bool} (hl : level = true) (hc : u.tb.chanOff.contains o = true) : u.hostLevel o level = u :=
  if_pos (by rw [hl, hc]; rfl)

theorem ack_marks {q : Fin 64} {d : Desc} {s u : State} (hu : u = s.touchSession q d.sess) (h : CanRun s q 0x06 .maint d)
    (hr : u.recs.any (fun r => r.seq == d.p 0) = true) :
    exec (.ack q) s = .next ((({ u with recs := u.recs.map (fun (r : FRec) => if r.seq = d.p 0 then { r with acked := true } else r) } : State).log
        { kind := 0x0E, role := (u.sessionTag q d.sess).1, handle := (u.sessionTag q d.sess).2, d12 := d.p 0 }).complete q d {}).settle := by
  subst hu
  exact congrArg doneSettled ((runCmd_runs _ h).trans (if_pos hr))

theorem offsetSet_sets {q : Fin 64} {d : Desc} {s u : State} (hu : u = s.touchSession q d.sess) (h : CanRun s q 0x09 .none d)
    (h0 : fld (d.p 0) 31 16 = 0) (hp : u.tb.utcSrc ≠ .ptp) :
    exec (.offsetSet q) s = .next (((u.hostUtc ((d.p 0).extractLsb' 0 16)).log
        { kind := 0x10, d12 := u.tb.utc.zeroExtend 32, d13 := ((d.p 0).extractLsb' 0 16 : Half).zeroExtend 32 }).complete q d {}).settle := by
  subst hu
  exact congrArg doneSettled ((runCmd_runs _ h).trans ((if_neg (not_not.mpr h0)).trans (if_neg hp)))

theorem timeSet_steps {q : Fin 64} {d : Desc} {ofs : Half} {c : Nat} {s u : State} (hu : u = s.touchSession q d.sess) (h : CanRun s q 0x08 .none d)
    (ho : ofs = (d.p 2).extractLsb' 0 16) (h2 : fld (d.p 2) 31 16 = 0) (ec : c = (d.p 1).toNat * 2 ^ 32 + (d.p 0).toNat) (hm : c % 64 = 0)
    (hf : c / 64 % 2 ^ 20 ≤ 999999) (hd : dateExists c = true) (hr : u.ownRef = true) (hl : u.ptpLocked = false) (ha : u.anyLoaded = false) :
    exec (.timeSet q) s = .next (((((u.stepTb (BitVec.ofInt 64 ((calMicros c : Int) * 1000 + ofs.toInt * 1000000000))).hostUtc ofs).setSource 3
      (BitVec.ofNat 4 u.modAddr) 0).log { kind := 0x0F, d12 := u.tb.tb.extractLsb' 0 32, d13 := u.tb.tb.extractLsb' 32 32 }).complete q d {}).settle := by
  show execTimeSet q s = _
  unfold execTimeSet
  rw [runCmd_runs _ h, ← hu]
  dsimp only
  rw [← ec, ← ho]
  have shape : ¬ (c % 64 ≠ 0 ∨ 999999 < c / 64 % 2 ^ 20 ∨ fld (d.p 2) 31 16 ≠ 0) := by omega
  rw [if_neg shape, if_neg (by rw [hd]; decide), if_neg (by rw [hr, hl]; decide), if_neg (by rw [ha]; decide)]
  rfl

theorem frameTx_sends {q : Fin 64} {d : Desc} {s u : State} (hu : u = s.touchSession q d.sess) (h : CanRun s q 0x30 .none d) (hl : 60 ≤ d.len)
    (hh : d.len ≤ 1518) (hw : u.looksWilis ((d.buf.getD []).take d.len) = false) (he : (u.mac (u.qp q).mac.toNat).en = true)
    (hk : (u.mac (u.qp q).mac.toNat).link = true) :
    exec (.frameTx q) s = .next (((u.emit (.frame (u.qp q).mac.toNat ((d.buf.getD []).take d.len))).macStat (u.qp q).mac.toNat 11).complete q d {}).settle := by
  show execFrameTx q s = _
  unfold execFrameTx
  rw [runCmd_runs _ h, ← hu]
  dsimp only
  rw [if_neg (by omega), if_neg (by rw [hw]; decide), if_neg (by rw [he, hk]; decide)]
  rfl

theorem rxPost_posts {q : Fin 64} {d : Desc} {s u : State} (hu : u = s.touchSession q d.sess) (h : CanRun s q 0x31 .none d) (hl : 64 ≤ d.len)
    (ha : (u.qp q).st = .active) :
    exec (.rxPost q) s = .next (u.updQp q (fun x => { x with cmds := x.cmds.erase d, posts := x.posts ++ [d] })).settle := by
  subst hu
  exact congrArg doneSettled ((runCmd_runs _ h).trans ((if_neg (by omega)).trans (if_neg (not_not.mpr ha))))

/-! ### The log -/

theorem logRead_counts {q : Fin 64} {d : Desc} {s u : State} (hu : u = s.touchSession q d.sess) (h : CanRun s q 0x05 .maint d) (hl : d.len = 0) :
    exec (.logRead q) s = .next (u.complete q d { res0 := u.store.lostN, res1 := u.store.next }).settle := by
  subst hu
  exact congrArg doneSettled ((runCmd_runs _ h).trans ((if_neg (by rw [hl]; decide)).trans (if_pos hl)))

theorem logRead_queues {q : Fin 64} {d : Desc} {s u : State} (hu : u = s.touchSession q d.sess) (h : CanRun s q 0x05 .maint d)
    (hl : d.len % 128 = 0) (h0 : d.len ≠ 0) (hs : u.store.lost = false) :
    exec (.logRead q) s = .next ((u.markRan q d).addWork
        { q := q, d := some { d with ran := true }, jobs := List.replicate ((min 8192 (d.len / 128) + 31) / 32) .readLog, code := 0, res0 := 0 }).settle := by
  subst hu
  exact congrArg doneSettled ((runCmd_runs _ h).trans ((if_neg (not_not.mpr hl)).trans ((if_neg h0).trans (if_neg (by rw [hs]; decide)))))

/-! ### Diagnostic reads (R404) -/

/-- A diagnostic read runs where its selector is the one named. -/
theorem runDiag_runs {s : State} {q sel : Nat} {d : Desc} (body : State → Desc → State) (h : CanDiag s q sel d) :
    s.runDiag q sel body = body (s.touchSession q d.sess) d := by
  obtain ⟨run, selects⟩ := h
  unfold State.runDiag
  rw [run.1]
  exact (if_pos selects).trans (runCmd_runs body run)

theorem diagReadFaultRecords_answers {q : Fin 64} {d : Desc} {l : List FRec} {s u : State} (hu : u = s.touchSession q d.sess) (h : CanDiag s q 1 d)
    (hl : d.len % 32 = 0) (el : l = (u.recs.reverse.filter (fun r => decide ((r.seq - d.p 1).toNat < 2 ^ 31))).take (d.len / 32)) :
    exec (.diagReadFaultRecords q) s = .next (u.answer q d (l.flatMap (fun r => r.words.flatMap bytes4)) (BitVec.ofNat 32 l.length)
      ((l.getLast?.map (fun r => r.seq + 1)).getD (d.p 1))).settle := by
  subst hu
  refine congrArg doneSettled ((runDiag_runs _ h).trans ((if_neg (not_not.mpr hl)).trans ?_))
  dsimp only
  rw [← el]
  cases l.getLast? <;> rfl

theorem diagReadAvailability_answers {q : Fin 64} {d : Desc} {s u : State} (hu : u = s.touchSession q d.sess) (h : CanDiag s q 2 d) (h1 : d.p 1 = 0) :
    exec (.diagReadAvailability q) s = .next (u.answer q d ((List.range 1024).flatMap (fun c => bytes8 (u.availNow c)) ++ bytes8 (u.avail.toNat +
          (u.cells.map (fun e => match e.2.since with | some t => u.since t | none => 0)).sum))).settle := by
  subst hu
  exact congrArg doneSettled ((runDiag_runs _ h).trans (if_neg (not_not.mpr h1)))

theorem diagReadMasks_answers {q : Fin 64} {d : Desc} {s u : State} (hu : u = s.touchSession q d.sess) (h : CanDiag s q 3 d) (h1 : (d.p 1).toNat ≤ 63) :
    exec (.diagReadMasks q) s = .next (u.answer q d (u.maskBytes (d.p 1).toNat .a ++ u.maskBytes (d.p 1).toNat .b)).settle := by
  subst hu
  exact congrArg doneSettled ((runDiag_runs _ h).trans (if_neg (by omega)))

theorem diagReadDescriptor_answers {q : Fin 64} {d : Desc} {s u : State} (hu : u = s.touchSession q d.sess) (h : CanDiag s q 4 d)
    (h1 : (d.p 1).toNat ≤ 1023) :
    exec (.diagReadDescriptor q) s = .next (u.answer q d ((padTo 64 (if (u.cell (d.p 1).toNat).st = .unloaded then []
      else ((u.cell (d.p 1).toNat).ver.map CellImg.desc).getD [])).flatMap bytes4) (BitVec.ofNat 32 (u.cell (d.p 1).toNat).st.n)).settle := by
  subst hu
  exact congrArg doneSettled ((runDiag_runs _ h).trans (if_neg (by omega)))

theorem diagReadSite_unknown {q : Fin 64} {d : Desc} {s u : State} (hu : u = s.touchSession q d.sess) (h : CanDiag s q 5 d) (h1 : fld (d.p 1) 31 19 = 0)
    (hs : u.siteRef (d.p 1) = none) : exec (.diagReadSite q) s = .next (u.complete q d { status := 0x20 }).settle := by
  subst hu
  refine congrArg doneSettled ((runDiag_runs _ h).trans ((if_neg (not_not.mpr h1)).trans ?_))
  rw [hs]

theorem diagReadSite_answers {q : Fin 64} {d : Desc} {site lv : Nat} {s u : State} (hu : u = s.touchSession q d.sess) (h : CanDiag s q 5 d)
    (h1 : fld (d.p 1) 31 19 = 0) (hs : u.siteRef (d.p 1) = some (site, lv)) :
    exec (.diagReadSite q) s = .next (u.answer q d (bytes4 (atBit 32 0 (!(u.statusOf site lv).oos) |||
        atLsb 32 8 (u.statusOf site lv).code.toNat ||| atLsb 32 16 (u.statusOf site lv).count.toNat))).settle := by
  subst hu
  refine congrArg doneSettled ((runDiag_runs _ h).trans ((if_neg (not_not.mpr h1)).trans ?_))
  rw [hs]

theorem diagReadBist_answers {q : Fin 64} {d : Desc} {s u : State} (hu : u = s.touchSession q d.sess) (h : CanDiag s q 6 d) (h1 : d.p 1 = 0) :
    exec (.diagReadBist q) s = .next (u.answer q d ((padTo 288 ((List.range 8).flatMap u.bistSummary ++
        u.bist.fails.flatMap (fun f => [f.1.zeroExtend 32 ||| atLsb 32 16 f.2.1.toNat ||| atBit 32 24 f.2.2.1 |||
          atBit 32 25 f.2.2.2.1, f.2.2.2.2]))).flatMap bytes4)).settle := by
  subst hu
  exact congrArg doneSettled ((runDiag_runs _ h).trans (if_neg (not_not.mpr h1)))

/-! ### The obligation -/

/-- Settles O52. -/
theorem hostCommandsAct : Obligations.HostCommandsAct := by
  refine ⟨fun q d s u hu => ⟨?_, ?_, ?_, ?_, ?_, ?_, ?_, ?_, ?_, ?_⟩, ?_, fun q d s u hu => ⟨?_, ?_, ?_, ?_, ?_, ?_, ?_, ?_⟩, ?_⟩
  · exact fun h => by rw [hu]; exact nop_completes h
  · exact fun h h0 => by rw [hu]; exact piRead_answers h h0
  · exact fun h hm => piWrite_sets hu h hm
  · exact fun o level => ⟨hostLevel_sets, hostLevel_late⟩
  · exact fun h hr => ack_marks hu h hr
  · exact fun h h0 hp => offsetSet_sets hu h h0 hp
  · exact fun h hl => logRead_counts hu h hl
  · exact fun h hl h0 hs => logRead_queues hu h hl h0 hs
  · exact fun h hl hh hw he hk => frameTx_sends hu h hl hh hw he hk
  · exact fun h hl ha => rxPost_posts hu h hl ha
  · exact fun q d ofs s u hu h ho h2 hm hf hd hr hl ha => timeSet_steps hu h ho h2 rfl hm hf hd hr hl ha
  · exact fun l h hl el => diagReadFaultRecords_answers hu h hl el
  · exact fun h h1 => diagReadAvailability_answers hu h h1
  · exact fun h h1 => diagReadMasks_answers hu h h1
  · intro h h1 unloaded
    rw [diagReadDescriptor_answers hu h h1, if_pos unloaded, unloaded]
    rfl
  · intro v h h1 loaded hv
    rw [diagReadDescriptor_answers hu h h1, if_neg loaded, hv]
    rfl
  · exact fun h h1 hs => diagReadSite_unknown hu h h1 hs
  · exact fun site lv h h1 hs => diagReadSite_answers hu h h1 hs
  · exact fun h h1 => diagReadBist_answers hu h h1
  · exact fun q d data a b s => ⟨answer_short, answer_fits⟩

end Sys2Proof.Laws
end

section
/-! Sessions: passwords, lockout and their ends (R424 to R428). -/

namespace Sys2Proof.Laws

open Sys2Proof Sys2Proof.Machine Sys2Proof.Safety

/-! ### Records of the roles -/

theorem role_updRole (s : State) (r : Role) (f : RoleS → RoleS) : (s.updRole r f).role r = f (s.role r) := by cases r <;> rfl

theorem qp_updRole (s : State) (r : Role) (f : RoleS → RoleS) (q : Nat) : (s.updRole r f).qp q = s.qp q := by cases r <;> rfl

theorem works_updRole (s : State) (r : Role) (f : RoleS → RoleS) :
    (s.updRole r f).store.works = s.store.works := by cases r <;> rfl

theorem role_log (s : State) (a : LogArg) (r : Role) : (s.log a).role r = s.role r := by
  obtain ⟨_, maint, safety⟩ := log_keepsRoles s a
  cases r
  · exact maint
  · exact safety

theorem works_log (s : State) (a : LogArg) : (s.log a).store.works = s.store.works := by
  unfold State.log
  repeat' split
  · rfl
  · rfl
  · rfl

theorem role_storeEvt (s : State) (i : Nat) (r : Role) : (s.storeEvt i).role r = s.role r := by cases r <;> rfl

theorem works_storeEvt (s : State) (i : Nat) : (s.storeEvt i).store.works = s.store.works := rfl

theorem role_works (s : State) (l : List Work) (r : Role) : ({ s with store := { s.store with works := l } } : State).role r = s.role r := by cases r <;> rfl

theorem role_complete (s : State) (q : Nat) (d : Desc) (x : Result) (r : Role) : (s.complete q d x).role r = s.role r := by
  unfold State.role
  rw [answered_complete s q d x]

theorem role_settle (s : State) (r : Role) : s.settle.role r = s.role r := by
  unfold State.role
  rw [settle_store]

theorem credOf_updRole {s : State} {r : Role} {f : RoleS → RoleS} (h : (f (s.role r)).cred = (s.role r).cred) : (s.updRole r f).credOf r = s.credOf r := by
  unfold State.credOf
  rw [role_updRole, h]
  cases r <;> rfl

/-! ### Opening -/

/-- What a request for a session meets, its password apart (R424). -/
theorem sessOpen_judged {q : Fin 64} {d : Desc} {r : Role} {s u : State} (hu : u = s.touchSession q d.sess) (h : CanRun s q 0x10 .none d)
    (hr : d.roleOf = some r) (h8 : 8 ≤ d.len) (h64 : d.len ≤ 64) (hl : u.store.lost = false) :
    exec (.sessOpen q) s = doneSettled (
      if (u.role r).shut u.now then u.complete q d { status := 0x13 }
      else if (u.role r).sess.isSome || (u.role r).chk.isSome then u.complete q d { status := 0x14 }
      else (u.markRan q d).updRole r (fun x => { x with chk := some q.val })) := by
  have fits : ¬ (d.len < 8 ∨ 64 < d.len) := by omega
  show execSessOpen q s = _
  unfold execSessOpen
  rw [runCmd_runs _ h, ← hu]
  simp only [hr, hl, fits, Bool.false_eq_true, if_false]

theorem newHandle_named (s : State) (r : Role) : s.newHandle r ≠ 0 := by
  have fix : ∀ h : Half, (if h = 0 then 1 else h) ≠ 0 := fun h => by
    split
    · decide
    · assumption
  unfold State.newHandle
  extract_lets f h
  split
  · exact fix _
  · exact fix _

/-- The command that asked for the session of a role, on its queue pair. -/
def asked (s : State) (q : Nat) (r : Role) : Option Desc := (s.qp q).cmds.find? (fun d => d.ran && d.opc == 0x10 && d.roleOf == some r)

/-- The right password opens the session (R424, R425). -/
theorem passwordCheck_opens {r : Role} {q : Nat} {d : Desc} {s : State} (hc : (s.role r).chk = some q) (hd : asked s q r = some d)
    (ha : (s.qp q).st = .active) (hp : Config.pbkdf2 ((d.buf.getD []).take d.len) (s.credOf r).salt (s.credOf r).iters = (s.credOf r).hash)
    (hf : (s.role r).fails = 0) (hl : (s.role r).level = 0) :
    Gives (exec (.passwordCheckDone r) s) (fun t => ∃ h : Half, (t.role r).sess = some (h, q) ∧ h ≠ 0 ∧
      (t.role r).chk = none ∧ (t.role r).locked = (s.role r).locked) := by
  show Gives (execPasswordCheckDone r s) _
  unfold execPasswordCheckDone
  simp only [hc, qp_updRole, show List.find? _ (s.qp q).cmds = some d from hd, ha, credOf_updRole (s := s) (r := r) (f := fun x => { x with chk := none }) rfl, hp, hf, hl]
  simp only [if_true, bne_self_eq_false, Bool.or_self]
  refine gives_settled ?_
  unfold State.openEnds
  rw [if_neg Bool.false_ne_true, role_settle, role_complete, role_log, role_updRole, role_updRole]
  exact ⟨_, rfl, newHandle_named _ r, rfl, rfl⟩

/-- Work that waits for the port goes no further (R421). -/
theorem advance_waits {s : State} {w : Work} {j : Job} {t : List Job} {l : List Work} (hw : s.store.works = w :: l) (hj : w.jobs = j :: t)
    (hc : j ≠ .check) (hf : j ≠ .flush) : s.advance = s := by
  have one : s.advance1 = s := by
    unfold State.advance1
    split
    · rfl
    · rw [hw]
      simp only [hj]
      cases j with
      | check => exact absurd rfl hc
      | flush => exact absurd rfl hf
      | _ => rfl
  unfold State.advance
  rw [one, one, one, one]

/-- The fifth wrong password in a row locks the role out (R427). -/
theorem passwordCheck_locks {r : Role} {q : Nat} {d : Desc} {s : State} (hc : (s.role r).chk = some q) (hd : asked s q r = some d)
    (ha : (s.qp q).st = .active) (hp : Config.pbkdf2 ((d.buf.getD []).take d.len) (s.credOf r).salt (s.credOf r).iters ≠ (s.credOf r).hash)
    (hf : (s.role r).fails = 4) (hw : s.store.works = []) :
    Gives (exec (.passwordCheckDone r) s) (fun t => (t.role r).locked = true ∧ (t.role r).fails = 0 ∧
      (t.role r).lockT = lockTicks (s.role r).level ∧ (t.role r).sess = (s.role r).sess) := by
  show Gives (execPasswordCheckDone r s) _
  unfold execPasswordCheckDone
  simp only [hc, qp_updRole, show List.find? _ (s.qp q).cmds = some d from hd, ha, credOf_updRole (s := s) (r := r) (f := fun x => { x with chk := none }) rfl, hp, hf]
  simp only [if_false, Nat.lt_irrefl]
  refine gives_settled ?_
  generalize ht : State.updRole (State.storeEvt _ 3) r _ = t
  have worksT : t.store.works = [] := by
    rw [← ht, works_updRole]
    exact (works_updRole s r _).trans hw
  unfold State.openEnds State.addWork
  rw [if_pos rfl, advance_waits (w := ⟨q, some d, [.credA, .credB], 0x12, 0⟩) (l := []) (j := .credA) (t := [.credB]) ?_ rfl (by decide) (by decide)]
  · rw [role_settle, role_works, role_storeEvt, role_log, role_log, ← ht, role_updRole, role_storeEvt, role_updRole]
    exact ⟨rfl, rfl, rfl, rfl⟩
  · show (State.storeEvt _ 4).store.works ++ _ = _
    rw [works_storeEvt, works_log, works_log, worksT]
    rfl

/-! ### Lockouts and ends -/

theorem lockoutEnd_frees {r : Role} {s : State} (hl : (s.role r).locked = true) (ht : (s.role r).lockT = 0) :
    exec (.lockoutEnd r) s = .next (s.updRole r (fun x => { x with locked := false, freedAt := some s.now })).settle := if_pos ⟨hl, ht⟩

theorem lockoutEnd_waits {r : Role} {s : State} (h : (s.role r).locked = false ∨ (s.role r).lockT ≠ 0) : exec (.lockoutEnd r) s = .next s :=
  if_neg (fun ⟨a, b⟩ => h.elim (fun k => Bool.false_ne_true (k.symm.trans a)) (fun k => k b))

theorem idleTimeout_closes {r : Role} {s : State} (hs : (s.role r).sess.isSome = true) (hp : s.past (s.role r).lastC 900000000000 = true) :
    exec (.sessionIdleTimeout r) s = .next (s.closeSession r 1).settle :=
  if_pos (by rw [hs, show secs 900 = 900000000000 from rfl, hp]; rfl)

theorem idleTimeout_rests {r : Role} {s : State} (hs : (s.role r).sess.isSome = false) : exec (.sessionIdleTimeout r) s = .next s :=
  if_neg (by rw [hs]; simp)

theorem sessClose_closes {q : Fin 64} {d : Desc} {r : Role} {s u : State} (hu : u = s.touchSession q d.sess) (h : CanRun s q 0x13 .any d)
    (hr : u.sessionRole q d.sess = some r) : exec (.sessClose q) s = .next ((u.closeSession r 0).complete q d {}).settle := by
  show execSessClose q s = _
  unfold execSessClose
  rw [runCmd_runs _ h, ← hu, hr]
  rfl

/-! ### The obligation -/

/-- Settles O53. -/
theorem sessionsOpenAndClose : Obligations.SessionsOpenAndClose := by
  refine ⟨fun q d r s u hu h hr h8 h64 hl => ?_, fun r q d s hc hd ha => ⟨?_, ?_⟩, fun r s => ⟨?_, ?_, fun _ => rfl, ?_, ?_, ?_⟩, ?_⟩
  · have run := sessOpen_judged hu h hr h8 h64 hl
    refine ⟨fun shut => ?_, fun free busy => ?_, fun free idle unchecked => ?_⟩
    · rw [run, if_pos shut]
      rfl
    · rw [run, if_neg (by rw [free]; decide), if_pos (by rw [busy]; rfl)]
      rfl
    · rw [run, if_neg (by rw [free]; decide), if_neg (by rw [idle, unchecked]; decide)]
      rfl
  · exact fun hp hf hl => passwordCheck_opens hc hd ha hp hf hl
  · exact fun hp hf hw _ => passwordCheck_locks hc hd ha hp hf hw
  · exact lockoutEnd_frees
  · exact lockoutEnd_waits
  · exact idleTimeout_closes
  · exact idleTimeout_rests
  · exact (closeSession_closes s r 1).2.1
  · exact fun q d r s u hu h hr => sessClose_closes hu h hr

end Sys2Proof.Laws
end

section
/-! The store port, session writes and commits, and the periodic check (R413 to R423). -/

namespace Sys2Proof.Laws

open Sys2Proof Sys2Proof.Machine Sys2Proof.Safety

/-! ### Writes and commits of a session -/

/-- The jobs of the first write that waits: the header, the blocks not yet erased, and the pages (R418). -/
theorem sessWrite_queues {q : Fin 64} {d : Desc} {s u : State} (hu : u = s.touchSession q d.sess) (h : CanRun s q 0x11 .safety d) (hn : d.len ≤ 65536)
    (hi : (d.p 0).toNat + d.len ≤ imageMax) (hl : u.store.lost = false) (hw : u.store.works = []) :
    exec (.sessWrite q) s = .next ((({ u with store := { u.store with begun := true } } : State).markRan q d).addWork
        { q := q, d := some { d with ran := true },
          jobs := (if u.store.begun then [] else [Job.eraseHdr]) ++
            ((List.range 96).filter (fun n => decide ((d.p 0).toNat / 65536 ≤ n) &&
              decide (65536 * n < (d.p 0).toNat + d.len) && !(u.storeBank u.target).fresh.contains n)).map Job.eraseBlk ++
            pagesOf (d.p 0).toNat ((d.buf.getD []).take d.len) (((d.buf.getD []).take d.len).length / 256 + 2),
          code := 0, res0 := 0 }).settle := by
  have fits : ¬ (65536 < d.len ∨ imageMax < (d.p 0).toNat + d.len) := by omega
  have calm : u.committing = false := by
    unfold State.committing
    rw [hw]
    rfl
  show execSessWrite q s = _
  unfold execSessWrite
  rw [runCmd_runs _ h, ← hu]
  simp only [fits, hl, calm, hw, Bool.false_eq_true, if_false, List.flatMap_nil, List.contains_nil, Bool.or_false]
  rfl

theorem sessCommit_judged {q : Fin 64} {d : Desc} {s u : State} (hu : u = s.touchSession q d.sess) (h : CanRun s q 0x12 .safety d)
    (hl : u.store.lost = false) :
    (u.committing = true → exec (.sessCommit q) s = .next (u.complete q d { status := 0x14 }).settle) ∧
    (u.committing = false → exec (.sessCommit q) s = .next ((u.markRan q d).addWork
        { q := q, d := some { d with ran := true }, jobs := [.check], code := 0, res0 := 0 }).settle) := by
  subst hu
  have there : ¬ ((s.touchSession q d.sess).store.lost = true) := by rw [hl]; decide
  exact ⟨fun busy => congrArg doneSettled ((runCmd_runs _ h).trans ((if_neg there).trans (if_pos busy))),
    fun calm => congrArg doneSettled ((runCmd_runs _ h).trans ((if_neg there).trans (if_neg (by rw [calm]; decide))))⟩

/-! ### The port -/

/-- The requester chosen asks for an operation, and without HOLD_OK for a read (R422, R445). -/
theorem chosen_grantable {n : Nat} {s : State} (h : s.chosen = some n) : s.wanted n ≠ .none ∧ (s.pwr.holdOk = false → s.wanted n = .read) := by
  have listed : n ∈ (List.range 4).filter s.grantable := List.mem_of_find?_eq_some h
  have ok : s.grantable n = true := (List.mem_filter.mp listed).2
  unfold State.grantable at ok
  split at ok
  next => cases ok
  next read => exact ⟨by rw [read]; decide, fun _ => read⟩
  next none_ read =>
    refine ⟨fun k => none_ k, fun low => ?_⟩
    rw [ok] at low
    cases low

theorem storeGrant_grants {n : Nat} {s : State} (hh : s.store.holder = none) (hf : s.store.freeze = false) (hp : s.pwr.fail = false)
    (hl : s.store.lost = false) (hu : s.pwr.phase.hostUp = true) (hc : s.chosen = some n) :
    Gives (exec .storeGrant s) (fun t => t.store.holder = some n ∧ t.store.op = s.wanted n ∧ t.store.op ≠ .none ∧
        (s.pwr.holdOk = false → t.store.op = .read)) := by
  show Gives (execStoreGrant s) _
  unfold execStoreGrant
  rw [if_neg (by rw [hh, hf, hp, hl, hu]; decide), hc]
  refine gives_settled ?_
  rw [settle_store]
  exact ⟨rfl, rfl, chosen_grantable hc⟩

theorem storeGrant_waits {s : State} (h : s.store.holder.isSome = true ∨ s.store.freeze = true ∨ s.pwr.fail = true) :
    exec .storeGrant s = .next s := by
  refine if_pos ?_
  rcases h with h | h | h <;> simp [h]

theorem storeOperationDone_runs {x : OpEnd} {s : State} (h : x = .done ∨ s.pwr.fail = true) :
    exec (.storeOperationDone x) s = .next (s.storeDone x).settle := by
  refine if_neg ?_
  rintro ⟨rfl, calm⟩
  rcases h with h | h
  · cases h
  · exact Bool.false_ne_true (calm.symm.trans h)

theorem storeDone_runtime {x : OpEnd} {s : State} (h : s.store.holder = some 0) :
    s.storeDone x = { s with store := { s.store with holder := none, op := .none, rtAt := some s.now } } := by
  unfold State.storeDone
  rw [h]
  rfl

/-! ### The periodic check -/

/-- A bank that passes every check but has a damaged block fails at its body (R416). -/
theorem failing_torn {k : BankS} {b : Bool} (h : k.failing b = 0) : ({ k with torn := k.torn ++ [0] } : BankS).failing b = 4 := by
  unfold BankS.failing at h ⊢
  dsimp only at h ⊢
  rw [show ({ k with torn := k.torn ++ [0] } : BankS).hcrcOk b = k.hcrcOk b from rfl]
  split at h
  · cases h
  next head =>
    rw [if_neg head]
    split at h
    · cases h
    next commit =>
      rw [if_neg commit]
      split at h
      · cases h
      next revoke =>
        rw [if_neg revoke]
        have long : k.hdr.len.toNat ≠ 0 := fun zero => head (by simp [zero])
        refine if_pos ?_
        rw [List.any_append]
        simp [Nat.pos_of_ne_zero long]

/-- A check that names no credential copy leaves the store but for its instant. -/
theorem periodicCheck_begins {bad : BitVec 5} {s u : State} (hl : s.store.lost = false) (hc : s.store.credBad ||| bad.extractLsb' 2 2 = s.store.credBad)
    (hu : u = { s with store := { s.store with checkAt := s.now } }) (h1 : bit bad 1 = false) (h2 : bit bad 2 = false) (h3 : bit bad 3 = false)
    (h4 : bit bad 4 = false) : exec (.storePeriodicCheck bad) s = doneSettled (u.when (bit bad 0) (fun s => s.bankFailed false)) := by
  subst hu
  show execStorePeriodicCheck bad s = _
  unfold execStorePeriodicCheck
  rw [if_neg (by rw [hl]; decide)]
  dsimp only
  rw [hc, h1, h2, h3, h4]
  rfl

theorem checkFailed_sets (s : State) (i : Nat) : bit (s.checkFailed i).store.evt 6 = true ∧ (s.checkFailed i).store.bank0 = s.store.bank0 ∧
    (s.checkFailed i).store.win = s.store.win := by
  unfold State.checkFailed
  rw [record_frame]
  exact ⟨bit_setBit_self _ (by decide), rfl, rfl⟩

theorem bankFailed_marks {s : State} (h : s.store.bank0.failing false = 0) :
    bit (s.bankFailed false).store.evt 6 = true ∧ (s.bankFailed false).store.bank0 = { s.store.bank0 with torn := s.store.bank0.torn ++ [0] } ∧
      (s.bankFailed false).store.win = s.store.win := by
  have valid : (s.storeBank false).failing false = 0 := h
  unfold State.bankFailed
  rw [if_pos valid]
  exact checkFailed_sets _ _

/-! ### The obligation -/

/-- Settles O54. -/
theorem storePortAndCommit : Obligations.StorePortAndCommit := by
  refine ⟨?_, ?_, ?_, ?_, ?_, ?_, ?_⟩
  · exact fun q d s u hu h hn hi hl hw => sessWrite_queues hu h hn hi hl hw
  · exact fun q d s u hu h hl => sessCommit_judged hu h hl
  · exact fun n s hh hf hp hl hu hc => storeGrant_grants hh hf hp hl hu hc
  · exact fun s h => storeGrant_waits h
  · intro x s h hh
    rw [storeOperationDone_runs h, storeDone_runtime hh]
  · exact fun x s => ⟨storeOperationDone_runs, fun calm => if_pos ⟨rfl, calm⟩⟩
  · intro s u hl hu
    have one : exec (.storePeriodicCheck 1) s = doneSettled (u.bankFailed false) :=
      periodicCheck_begins hl (by simp) hu (by decide) (by decide) (by decide) (by decide)
    have bank : u.store.bank0 = s.store.bank0 := by rw [hu]
    refine ⟨periodicCheck_begins hl (by simp) hu (by decide) (by decide) (by decide) (by decide), fun bad => ?_, fun good => ?_⟩
    · rw [one]
      refine congrArg doneSettled (if_neg ?_)
      exact fun k => bad (by rw [← bank]; exact k)
    · rw [one]
      refine gives_settled ?_
      rw [settle_store]
      obtain ⟨evt, torn, win⟩ := bankFailed_marks (s := u) (by rw [bank]; exact good)
      rw [torn, win, bank]
      exact ⟨evt, failing_torn good, rfl, by rw [hu]⟩

end Sys2Proof.Laws
end

section
/-! Runs of in-service self-test (R472 to R487). -/

namespace Sys2Proof.Laws

open Sys2Proof Sys2Proof.Machine Sys2Proof.Safety

/-- A bucket changes nothing of the BIST controller. -/
theorem setBucket_bist (s : State) (d : Nat) (b : Bucket) : (s.setBucket d b).bist = s.bist := by
  unfold State.setBucket
  split <;> rfl

/-- The end of a run leaves its results and its conditions (R473). -/
theorem endRun_bist (s : State) : s.endRun.bist = { s.bist with active := false, paused := false, ended := none } := by
  unfold State.endRun State.giveBack State.withdraw
  rw [setBucket_bist, setBucket_bist]

theorem record_bist (s : State) (a : RecArg) : (s.record a).bist = s.bist := by rw [record_frame]

/-! ### Start -/

/-- A run that is due begins on the next region in the rotation, with its tokens (R454, R473, R474). -/
theorem bistRunStart_begins {r : Nat} {s t : State} (et : t = { s with bist := { s.bist with conds := true } }) (hp : s.pwr.phase = .service)
    (ha : s.bist.active = false) (hd : s.runDue = true) (hc : t.condsNow = true) (hr : t.nextRegion = some r) (hq : s.ladle.vsys.queue = [])
    (hl : 15 ≤ s.ladle.vsys.level) (hh : s.holds 0 (siteSpine 0 0 4) = false) :
    Gives (exec .bistRunStart s) (fun t => t.bist.active = true ∧ t.bist.region = BitVec.ofNat 2 r ∧ t.bist.pct = 0 ∧
        t.ladle.vsys.level = s.ladle.vsys.level - 15) := by
  have bucket : t.bucket 0 = s.ladle.vsys := by rw [et]; rfl
  have stays : ¬ (t.pwr.phase ≠ .service ∨ t.bist.active = true ∨ t.runDue = false ∨ t.condsNow = false) := by
    rw [show t.pwr.phase = s.pwr.phase by rw [et], show t.bist.active = s.bist.active by rw [et], show t.runDue = s.runDue by rw [et]; rfl,
      hp, ha, hd, hc]
    simp
  show Gives (execBistRunStart s) _
  unfold execBistRunStart
  extract_lets site begin_ _ conds u
  have same : u = t := by
    show s.when s.runDue _ = t
    rw [hd, et]
    rfl
  have due : conds = t.condsNow := by rw [et]
  rw [same, due, if_neg stays]
  simp only [hr]
  rw [if_neg (by rw [show t.holds 0 site = s.holds 0 (siteSpine 0 0 4) by rw [et]; rfl, hh]; decide), if_neg (by rw [bucket, hq]; simp),
    request_granted (by rw [bucket]; exact hq) (by rw [bucket]; exact hl)]
  refine gives_settled ?_
  rw [settle_bist, (settle_ladle_figures _).1]
  refine ⟨rfl, rfl, rfl, ?_⟩
  show ((t.bucket 0).grant _).level = _
  rw [bucket]
  rfl

theorem bistRunStart_waits {s : State} (h : s.runDue = false) : exec .bistRunStart s = .next s.settle := by
  show execBistRunStart s = _
  unfold execBistRunStart
  rw [h, when_false]
  exact if_pos (.inr (.inr (.inl h)))

/-! ### Ends -/

theorem bistRunEnd_waits {s : State} {l : List BistItem} (ha : s.bist.active = true) (hp : s.bist.paused = false) :
    exec (.bistRunEnd l) s = .next (State.settle { s with bist := { s.bist with ended := some l } }) :=
  if_pos (by rw [ha, hp]; rfl)

/-- A lapse of the conditions discards the run (R473). -/
theorem conditionLapse_discards {s : State} (ha : s.bist.active = true) : Gives (exec .bistConditionLapse s) (fun t => t.bist.active = false ∧
    t.bist.again = true ∧ bit t.bist.evt 4 = true ∧ t.bist.sums = s.bist.sums) := by
  show Gives (execBistConditionLapse s) _
  unfold execBistConditionLapse
  extract_lets t u
  have active : t.bist.active = true := by
    simp only [t, State.when]
    split <;> exact ha
  have sums : t.bist.sums = s.bist.sums := by
    simp only [t, State.when]
    split <;> rfl
  rw [if_pos active]
  refine gives_settled ?_
  rw [settle_bist]
  have ends : u.bist = { t.endRun.bist with evt := setBit t.endRun.bist.evt 4 true } := rfl
  show u.bist.active = false ∧ true = true ∧ bit u.bist.evt 4 = true ∧ u.bist.sums = s.bist.sums
  rw [ends, endRun_bist]
  exact ⟨rfl, rfl, bit_setBit_self _ (by decide), sums⟩

theorem rowTestTimeout_counts {s : State} (ha : s.bist.active = true) (hp : s.bist.paused = false) :
    exec .rowTestTimeout s = .next ({ s with bist := { s.bist with skipped := s.bist.skipped + 1 } }).settle :=
  if_pos (by rw [ha, hp]; rfl)

theorem bistRunTimeout_waits {s : State} (h : s.past s.bist.runAt 60000000000 = false) : exec .bistRunTimeout s = .next s :=
  if_neg (by rw [show secs 60 = 60000000000 from rfl, h]; simp)

/-- A run that takes too long is abandoned, and the third in a row is reported (R477). -/
theorem bistRunTimeout_abandons {s : State} (ha : s.bist.active = true) (h : s.past s.bist.runAt 60000000000 = true) :
    Gives (exec .bistRunTimeout s) (fun t => t.bist.active = false ∧
      (Tab.get {} t.bist.sums s.bist.region.toNat).incompl = satInc (Tab.get {} s.bist.sums s.bist.region.toNat).incompl ∧
      ((Tab.get {} s.bist.sums s.bist.region.toNat).incompl = 2 → bit t.bist.evt 3 = true)) := by
  show Gives (execBistRunTimeout s) _
  unfold execBistRunTimeout
  rw [if_pos (by rw [ha, show secs 60 = 60000000000 from rfl, h]; rfl)]
  extract_lets q t n _ u v
  refine gives_settled ?_
  rw [settle_bist]
  have before : n = (Tab.get {} s.bist.sums q).incompl := by
    show (Tab.get {} t.bist.sums q).incompl = _
    rw [show t.bist = _ from endRun_bist s]
  have told : ∀ x : State, ((x.bistEvt 3).record { src := 13, code := 8, site := siteRegion q }).bist = { x.bist with evt := setBit x.bist.evt 3 true } := fun x => by
    rw [record_bist]
    rfl
  have active : v.bist.active = false := by
    show t.bist.active = false
    rw [show t.bist = _ from endRun_bist s]
  have counted : (Tab.get {} v.bist.sums q).incompl = satInc (Tab.get {} s.bist.sums q).incompl := by
    show (Tab.get {} (Tab.upd {} t.bist.sums q (fun b => { b with incompl := satInc n })) q).incompl = _
    rw [get_upd_same, before]
  unfold State.when
  split
  next third =>
    rw [told]
    exact ⟨active, counted, fun _ => bit_setBit_self _ (by decide)⟩
  next other => exact ⟨active, counted, fun two => absurd (by rw [before, two]; rfl) other⟩

/-! ### Report -/

theorem bistRan_bist (s : State) (i : Nat) (outcome : BitVec 2) : (s.bistRan i outcome).bist = { s.bist with sums := Tab.upd {} s.bist.sums i (fun b => { b with outcome := outcome, last := s.tb.tb.extractLsb' 0 32, runs := b.runs + 1, incompl := 0 }) } := rfl

/-- The report of a run that found nothing (R478, R485). -/
theorem reportRun_passes {s : State} (h : s.bist.ended = some []) : s.reportRun.bist.active = false ∧ s.reportRun.bist.pct = 100 ∧
    s.reportRun.bist.ended = none ∧ (Tab.get {} s.reportRun.bist.sums s.bist.region.toNat).outcome = 1 ∧
    (Tab.get {} s.reportRun.bist.sums s.bist.region.toNat).runs = (Tab.get {} s.bist.sums s.bist.region.toNat).runs + 1 := by
  unfold State.reportRun
  rw [h]
  dsimp only
  rw [settle_bist]
  have ends := endRun_bist s
  generalize s.endRun = t at ends
  rw [show t.bistItems s.bist.region.toNat false [] = t from rfl, bistRan_bist]
  dsimp only
  rw [get_upd_same, ends]
  exact ⟨rfl, rfl, rfl, rfl, rfl⟩

theorem bistOutcome_passes {l : List BistItem} (h : ∀ i ∈ l, i.code = 0) : bistOutcome l = 1 := by
  have worst : l.any (fun i => i.code != 0 && i.code != 1 && i.code != 8 && i.code != 9) = false :=
    List.any_eq_false.mpr fun i hi => by rw [h i hi]; decide
  have repaired : l.any (fun i => i.code == 1) = false := List.any_eq_false.mpr fun i hi => by rw [h i hi]; decide
  unfold bistOutcome
  rw [worst, repaired]
  rfl

/-- Settles O55. -/
theorem builtInSelfTest : Obligations.BuiltInSelfTest := by
  refine ⟨?_, fun s h => bistRunStart_waits h, fun s ha hp => ⟨fun l => bistRunEnd_waits ha hp, conditionLapse_discards ha,
    rowTestTimeout_counts ha hp, bistRunTimeout_waits, bistRunTimeout_abandons ha⟩, fun s h => reportRun_passes h, fun l h => bistOutcome_passes h⟩
  exact fun r s hp ha hd hc hr hq hl hh => bistRunStart_begins rfl hp ha hd hc hr hq hl hh

end Sys2Proof.Laws
end

section
/-! Writes and reads of registers by the host (R389, R489 to R501). -/

namespace Sys2Proof.Laws

open Sys2Proof Sys2Proof.Machine Sys2Proof.Safety

/-! ### Bits that a write clears (R9) -/

/-- A word made bit by bit holds each bit below its length. -/
theorem bit_wordOf (f : Nat → Bool) {i : Nat} (hi : i < 32) : bit (wordOf f) i = f i := by
  suffices h : ∀ n, n ≤ 32 → bit ((List.range n).foldl (fun w i => if f i then w ||| atBit 32 i true else w) (0 : Word)) i = (decide (i < n) && f i) by
    unfold wordOf
    rw [h 32 (le_refl 32), decide_eq_true hi, Bool.true_and]
  intro n
  induction n with
  | zero => simp [bit]
  | succ n ih =>
    intro hn
    rw [List.range_succ, List.foldl_append]
    show bit (if f n then _ ||| atBit 32 n true else _) i = _
    have below := ih (by omega)
    split
    next on =>
      rw [show ∀ w : Word, w ||| atBit 32 n true = setBit w n true from fun _ => rfl, bit_setBit_true, below]
      by_cases e : i = n
      · subst e
        simp [on, hi]
      · simp [e, show (i < n + 1) ↔ i < n by omega]
    next off =>
      rw [below]
      by_cases e : i = n
      · subst e
        simp [off]
      · simp [show (i < n + 1) ↔ i < n by omega]

theorem bit_w1c (s : State) (a : Nat) (v : Word) {i : Nat} (hi : i < 32) : bit (s.w1c a v) i = (bit v i && !s.setNow.contains (32 * a + i)) := by
  unfold State.w1c
  rw [← bit_wordOf (fun i => s.setNow.contains (32 * a + i)) hi]
  simp [bit, hi]

theorem word_eq {v w : Word} (h : ∀ i, i < 32 → bit v i = bit w i) : v = w := BitVec.eq_of_getLsbD_eq fun i hi => h i hi

/-- With nothing of the register set in this tick a write keeps its value. -/
theorem w1c_untouched {s : State} {a : Nat} {v : Word} (h : ∀ i, i < 32 → s.setNow.contains (32 * a + i) = false) : s.w1c a v = v :=
  word_eq fun i hi => by rw [bit_w1c s a v hi, h i hi, Bool.not_false, Bool.and_true]

/-! ### Locks and plain registers -/

theorem hostWrite_wired (s : State) : s.hostWrite.hif.mask = s.hif.mask ∧ s.hostWrite.hif.msix = s.hif.msix := by
  have h := wired_checkSilence { s with hif := { s.hif with lastW := s.now, silTo := false } }
  exact ⟨h.mask, h.msix⟩

theorem sysLockWrite_free {v : Word} {s : State} (h : s.sys.lock = false) :
    exec (.sysLockWrite v) s = .next ({ s.hostWrite with sys := { s.sys with lock := bit v 0 } }).settle := by
  have sys : s.hostWrite.sys = s.sys := by rw [told_hostWrite s]
  refine congrArg doneSettled ((if_neg (by rw [sys, h]; decide)).trans ?_)
  show ({ s.hostWrite with sys := { s.hostWrite.sys with lock := bit v 0 } } : State) = _
  rw [sys]

theorem sysLockWrite_locked {v : Word} {s : State} (h : s.sys.lock = true) :
    Gives (exec (.sysLockWrite v) s) (fun t => t.sys.lock = true ∧ bit t.sys.evt 3 = true) := by
  have sys : s.hostWrite.sys = s.sys := by rw [told_hostWrite s]
  show Gives (doneSettled (s.hostWrite.writeLock v)) _
  refine gives_settled ?_
  unfold State.writeLock State.lockedWrite
  rw [if_pos (by rw [sys]; exact h), settle_sys_lock]
  exact ⟨by rw [show (s.hostWrite.sysEvt 3).sys.lock = s.hostWrite.sys.lock from rfl, sys, h], settle_sys_evt (bit_setBit_self _ (by decide))⟩

theorem registerWrite_reserved {a : BitVec 14} {v : Word} {s : State} (h : a.toNat % 4 ≠ 0 ∨ offsetInUse a.toNat = false) :
    exec (.registerWrite a v) s = .next (s.hostWrite.hifEvt 5).settle := congrArg doneSettled (if_pos h)

theorem registerWrite_scratch {v : Word} {s : State} (h : ∀ i : Nat, i < 32 → s.hostWrite.setNow.contains (32 * 0x028 + i) = false) :
    Gives (exec (.registerWrite 0x028 v) s) (fun t => t.sys.scratch = v ∧ t.regs = s.regs) := by
  show Gives (doneSettled (s.hostWrite.bar0Write 0x028 v)) _
  refine gives_settled ?_
  have write : s.hostWrite.bar0Write 0x028 v = { s.hostWrite with sys := { s.hostWrite.sys with scratch := v } } := by
    unfold State.bar0Write
    rw [w1c_untouched h]
    exact if_neg (by decide)
  rw [write, settle_sys_scratch, settle_regs]
  exact ⟨rfl, by rw [told_hostWrite s]⟩

/-! ### Check-value units -/

theorem updCvu_congr (s : State) (n : Nat) {f g : Cvu → Cvu} (h : f (s.cvu n) = g (s.cvu n)) : s.updCvu n f = s.updCvu n g := by
  unfold State.updCvu Tab.upd
  rw [show f (Tab.get {} s.cvus n) = g (Tab.get {} s.cvus n) from h]

theorem cvuDo_congr (s : State) (n : Nat) {f g : Cvu → Cvu} (h : f (s.cvu n) = g (s.cvu n)) : s.cvuDo n f = s.cvuDo n g := by
  unfold State.cvuDo
  rw [updCvu_congr s n h]

/-- A change that sets no event notes none. -/
theorem cvuDo_quiet (s : State) (n : Nat) {f : Cvu → Cvu} (h : (f (s.cvu n)).evt = (s.cvu n).evt) : s.cvuDo n f = s.updCvu n f := by
  unfold State.cvuDo State.each
  dsimp only
  rw [cvu_updCvu_same, h]
  refine List.foldl_fixed' (fun i => ?_) _
  exact when_no (by simp)

theorem cvu_hostWrite (s : State) (n : Nat) : s.hostWrite.cvu n = s.cvu n := by
  unfold State.cvu
  rw [told_hostWrite s]

/-- A write in a tick without items of the unit is that of its register alone (R501). -/
theorem write_calm {c : Cvu} {now reg : Nat} {v : Word} (h : ∀ w, c.was = some w → w.at_ ≠ now) (hw : (c.writeReg reg v).was = c.was) :
    c.write now reg v = { c.writeReg reg v with was := none, items := [] } := by
  have before : c.before now = c := by
    unfold Cvu.before
    split
    next w hw => rw [if_neg (h w hw)]
    · rfl
  have none_ : c.was.any (fun w => w.at_ == now) = false := by
    cases hc : c.was with
    | none => rfl
    | some w => simpa using h w hc
  unfold Cvu.write
  dsimp only
  rw [before]
  unfold Cvu.after
  rw [hw, none_, Bool.and_false]
  rfl

/-- A value of CVU_CTL_n that is not refused is taken (R498). -/
theorem writeCtl_taken (c : Cvu) {v : Word} (hw : 7 ≤ fld v 10 6) (hs : fld v 3 1 ≤ 1) :
    (bit v 0 = true → c.writeCtl v = { c with ctl := v.extractLsb' 0 19, reg := BitVec.ofNat 32 (c.init.toNat % 2 ^ (fld v 10 6 + 1)), cnt := 0, done := false, run := true }) ∧
    (bit v 0 = false → c.writeCtl v = { c with ctl := v.extractLsb' 0 19, run := false }) := by
  have taken : ¬ ((decide (fld v 10 6 < 7) || fld v 3 1 == 7 || (fld v 3 1 == 2 && !bit v 18 && fld v 17 13 != 1 && fld v 17 13 != 3)) = true) := by
    rw [decide_eq_false (by omega), beq_false_of_ne (by omega : fld v 3 1 ≠ 7), beq_false_of_ne (by omega : fld v 3 1 ≠ 2)]
    exact Bool.false_ne_true
  constructor
  · intro start
    exact (if_neg taken).trans (if_pos start)
  · intro stop
    exact (if_neg taken).trans (if_neg (by rw [stop]; decide))

theorem writeCtl_refused (c : Cvu) {v : Word} (hw : fld v 10 6 < 7) : c.writeCtl v = { c with evt := setBit c.evt 1 true } :=
  if_pos (by rw [decide_eq_true hw]; rfl)

section

variable {n : Fin 8} {v : Word} {s : State} (h : ∀ w, (s.cvu n).was = some w → w.at_ ≠ s.now)
include h

/-- A write of a register of a unit that sets no event changes the unit alone. -/
theorem cvuWrite_quiet {reg : Nat} {w : Word} {f : Cvu → Cvu} (hq : (s.cvu n).writeReg reg w = f (s.cvu n)) (hwas : (f (s.cvu n)).was = (s.cvu n).was)
    (hevt : (f (s.cvu n)).evt = (s.cvu n).evt) :
    s.hostWrite.cvuDo n (fun c => c.write s.now reg w) = s.hostWrite.updCvu n (fun c => { f c with was := none, items := [] }) := by
  have cvu := cvu_hostWrite s n
  have calm : (s.cvu n).write s.now reg w = { f (s.cvu n) with was := none, items := [] } := by
    rw [write_calm h (by rw [hq, hwas]), hq]
  rw [cvuDo_quiet _ _ (by rw [cvu, calm, hevt])]
  exact updCvu_congr _ _ (by rw [cvu, calm])

theorem cvuStart_starts (hw : 7 ≤ fld v 10 6) (hs : fld v 3 1 ≤ 1) (hb : bit v 0 = true) :
    exec (.cvuStart n v) s = .next (s.hostWrite.updCvu n (fun c => { c with
        ctl := v.extractLsb' 0 19, reg := BitVec.ofNat 32 (c.init.toNat % 2 ^ (fld v 10 6 + 1)), cnt := 0, done := false,
        run := true, was := none, items := [] })).settle :=
  congrArg doneSettled (cvuWrite_quiet h
    (f := fun c => { c with ctl := v.extractLsb' 0 19, reg := BitVec.ofNat 32 (c.init.toNat % 2 ^ (fld v 10 6 + 1)), cnt := 0, done := false, run := true })
    ((writeCtl_taken (s.cvu n) hw hs).1 hb) rfl rfl)

theorem cvuStop_stops (hw : 7 ≤ fld v 10 6) (hs : fld v 3 1 ≤ 1) (hb : bit v 0 = false) :
    exec (.cvuStop n v) s = .next (s.hostWrite.updCvu n (fun c =>
        { c with ctl := v.extractLsb' 0 19, run := false, was := none, items := [] })).settle :=
  congrArg doneSettled (cvuWrite_quiet h (f := fun c => { c with ctl := v.extractLsb' 0 19, run := false })
    ((writeCtl_taken (s.cvu n) hw hs).2 hb) rfl rfl)

theorem cvuStart_refused (hw : fld v 10 6 < 7) :
    exec (.cvuStart n v) s = .next (s.hostWrite.cvuDo n (fun c => { c with evt := setBit c.evt 1 true, was := none, items := [] })).settle := by
  have cvu := cvu_hostWrite s n
  refine congrArg doneSettled (cvuDo_congr _ _ ?_)
  have refused := writeCtl_refused (s.cvu n) hw
  rw [cvu, write_calm h (by rw [show (s.cvu n).writeReg 0 v = _ from refused]), show (s.cvu n).writeReg 0 v = _ from refused]

theorem cvuRegisterWrite_poly : exec (.cvuRegisterWrite n 1 v) s = .next (s.hostWrite.updCvu n (fun c =>
      { c with poly := s.w1c (0x2C04 + 0x20 * n) v, run := false, was := none, items := [] })).settle := by
  rw [show 0x2C04 + 0x20 * n.val = 0x2C00 + 0x20 * n.val + 4 * 1 by omega]
  exact congrArg doneSettled (cvuWrite_quiet h (reg := 1) (f := fun c => { c with poly := s.w1c (0x2C00 + 0x20 * n.val + 4 * 1) v, run := false }) rfl rfl rfl)

theorem cvuRegisterWrite_len : exec (.cvuRegisterWrite n 4 v) s = .next (s.hostWrite.updCvu n (fun c =>
      { c with len := s.w1c (0x2C10 + 0x20 * n) v, run := false, was := none, items := [] })).settle := by
  rw [show 0x2C10 + 0x20 * n.val = 0x2C00 + 0x20 * n.val + 4 * 4 by omega]
  exact congrArg doneSettled (cvuWrite_quiet h (reg := 4) (f := fun c => { c with len := s.w1c (0x2C00 + 0x20 * n.val + 4 * 4) v, run := false }) rfl rfl rfl)

end

/-! ### Events, reserved reads and the MSI-X table -/

theorem hifWrite_clears {i : Nat} {v : Word} {s : State} (hi : i < 7) (h : bit s.hif.evt i = true) :
    s.hifWrite 0x004 v = { s with hif := { s.hif with evt := s.hif.evt &&& ~~~(v.extractLsb' 16 7) } } ∧
    (bit v (16 + i) = true → bit (s.hifWrite 0x004 v).hif.evt i = false) ∧ (bit v (16 + i) = false → bit (s.hifWrite 0x004 v).hif.evt i = true) := by
  have bits : bit (s.hif.evt &&& ~~~(v.extractLsb' 16 7)) i = !bit v (16 + i) := by
    unfold bit at h ⊢
    rw [BitVec.getLsbD_and, h, BitVec.getLsbD_not, BitVec.getLsbD_extractLsb']
    simp [hi]
  refine ⟨rfl, fun set_ => ?_, fun clear_ => ?_⟩
  · exact bits.trans (by rw [set_]; rfl)
  · exact bits.trans (by rw [clear_]; rfl)

theorem hifEvt_sets (s : State) {i : Nat} (hi : i < 7) : bit (s.hifEvt i).hif.evt i = true := by
  unfold State.hifEvt
  extract_lets was src t
  have set_ : bit t.hif.evt i = true := bit_setBit_self _ hi
  unfold State.when
  split
  · show bit (t.raise 0).hif.evt i = true
    rw [raise_frame]
    exact set_
  · exact set_

theorem reservedRead_zero {bar2 : Bool} {a : BitVec 14} {n : Nat} {s : State} (h : readAccepted bar2 a.toNat n = false) :
    Gives (exec (.reservedRangeRead bar2 a n) s) (fun t => t.rd = { lo := 0, hi := 0 } ∧ bit t.hif.evt 5 = true) := by
  show Gives (execReservedRangeRead bar2 a n s) _
  unfold execReservedRangeRead
  dsimp only
  rw [if_neg (by rw [h]; decide)]
  refine gives_settled ?_
  rw [settle_rd]
  refine ⟨rfl, settle_hif_evt ?_⟩
  exact hifEvt_sets s (by decide)

theorem bit_setBit_value {w : Nat} (x : BitVec w) {i : Nat} (hi : i < w) (b : Bool) : bit (setBit x i b) i = b := by
  cases b with
  | true => exact bit_setBit_self x hi
  | false =>
    simp only [bit, setBit, Bool.false_eq_true, if_false, BitVec.getLsbD_and, BitVec.getLsbD_not, BitVec.getLsbD_ofNat, Nat.testBit_two_pow]
    simp [hi]

/-- A write of word `j` of the MSI-X table (R389). -/
theorem msiXTableWrite_stores {j : Nat} {a : BitVec 12} {v : Word} {s : State} (hj : j < 260) (ha : a.toNat = 0x800 + 4 * j) :
    exec (.msiXTableWrite a v) s = doneSettled (
      let t : State := { s.hostWrite with hif := { s.hostWrite.hif with msix := Tab.put 0 s.hostWrite.hif.msix j (if j % 4 = 3 then v &&& 1 else v) } }
      if j % 4 = 3 then { t with hif := { t.hif with mask := setBit t.hif.mask (j / 4) (bit v 0) } }.sendPending else t) := by
  have listed : ¬ (a.toNat % 4 ≠ 0 ∨ a.toNat < 0x800 ∨ 0xC10 ≤ a.toNat) := by omega
  show execMsiXTableWrite a v s = _
  unfold execMsiXTableWrite
  dsimp only
  rw [if_neg listed, show (a.toNat - 0x800) / 4 = j by omega]
  split
  · rfl
  · rfl

theorem msiXTableWrite_masks (i : Fin 65) (v : Word) (s : State) :
    Gives (exec (.msiXTableWrite (BitVec.ofNat 12 (0x800 + 16 * i + 12)) v) s) (fun t =>
      bit t.hif.mask i = bit v 0 ∧ Tab.get 0 t.hif.msix (4 * i + 3) = v &&& 1) := by
  rw [msiXTableWrite_stores (j := 4 * i + 3) (by omega) (by rw [BitVec.toNat_ofNat, Nat.mod_eq_of_lt (by omega)]; omega)]
  dsimp only
  rw [if_pos (by omega), if_pos (by omega), show (4 * i.val + 3) / 4 = i.val by omega]
  refine gives_settled ?_
  rw [settle_hif_mask, settle_hif_msix, books_sendPending]
  exact ⟨bit_setBit_value _ i.isLt (bit v 0), get_put_same _ _ _ _⟩

theorem msiXTableWrite_address (i : Fin 65) (v : Word) (s : State) :
    Gives (exec (.msiXTableWrite (BitVec.ofNat 12 (0x800 + 16 * i)) v) s) (fun t =>
      Tab.get 0 t.hif.msix (4 * i) = v ∧ t.hif.mask = s.hif.mask) := by
  rw [msiXTableWrite_stores (j := 4 * i) (by omega) (by rw [BitVec.toNat_ofNat, Nat.mod_eq_of_lt (by omega)]; omega)]
  dsimp only
  rw [if_neg (by omega), if_neg (by omega)]
  refine gives_settled ?_
  rw [settle_hif_mask, settle_hif_msix]
  exact ⟨get_put_same _ _ _ _, (hostWrite_wired s).1⟩

/-! ### The obligation -/

/-- Settles O56. -/
theorem registerAccess : Obligations.RegisterAccess := by
  refine ⟨fun v s => ⟨sysLockWrite_free, sysLockWrite_locked⟩, fun a v s h => registerWrite_reserved h, fun v s h => registerWrite_scratch h,
    fun n v s h => ⟨fun hw hs => ⟨cvuStart_starts h hw hs, cvuStop_stops h hw hs⟩, cvuStart_refused h, cvuRegisterWrite_poly h, cvuRegisterWrite_len h⟩,
    fun a v s i hi => bit_w1c s a v hi, fun i v s hi h => hifWrite_clears hi h, fun bar2 a n s h => reservedRead_zero h,
    fun i v s => ⟨msiXTableWrite_masks i v s, msiXTableWrite_address i v s⟩⟩

end Sys2Proof.Laws
end
